-- ==== Sys2Proof/Word.lean ====
section
/-! DEFINITION. The word types of the block: the widths the manual gives registers, lines, tags and identifiers (R5: bit 0 is
the least significant bit of every field, register, descriptor and record). -/
namespace Sys2Proof

/-- One byte of a buffer, an SRAM or the flash. -/
abbrev Byte := BitVec 8
/-- A 16-bit status code: class in bits 15:8, code in bits 7:0 (R102). -/
abbrev Status := BitVec 16
/-- A 64-bit register or TIMEBASE value. -/
abbrev W64 := BitVec 64
/-- A 64-byte line of external memory. -/
abbrev Line := BitVec 512
/-- A 256-bit key. -/
abbrev Key256 := BitVec 256
/-- A physical byte address on the hub NoC (02, request fields). -/
abbrev Addr := BitVec 52
/-- A 7-bit domain: 0-63 partitions, 64 management, 65 plain, 66-127 refused (00, Terms). -/
abbrev Dom := BitVec 7
/-- A 4-bit placement epoch (00, Terms). -/
abbrev Epoch := BitVec 4
/-- A 9-bit command tag (R18). -/
abbrev Tag := BitVec 9
/-- A 16-bit unit identifier: kind in bits 15:11, index in bits 10:0 (R626). -/
abbrev UnitId := BitVec 16
/-- A 64-byte command descriptor (R88). -/
abbrev Desc := BitVec 512
/-- A 16-byte hub NoC register datum. -/
abbrev W128 := BitVec 128

end Sys2Proof
end

