-- ==== Sys2Proof/Syntax.lean ====
section
/-! DEFINITION. The commands of the block: one constructor per row of the opcode table. The table gives no operands; each
constructor carries what its rule lets the environment choose (log entry 1). -/
namespace Sys2Proof

/-- The access class of a requester (00, Notation). -/
inductive Cls where
  | K | S | H | O
  | P (d : BitVec 6)
  | C (site : BitVec 5) (mgmt : Bool)   -- a chiplet or hub-die initiator, in domain 64 when mgmt
  | I                                   -- the life-cycle instrument of the IEEE 1687 network (R410)
  deriving DecidableEq, Repr

/-- The header fields of a hub NoC request (02, request table); the OP field is the command's own row. -/
structure NocHdr where
  addr : Addr
  dom : Dom
  epoch : Epoch
  site : BitVec 5
  txid : BitVec 12
  rsvdOp : Bool := false              -- the OP on the wire lies in 0x6-0xF, which no row has: such a request comes by any request row (R41)
  regOp : Bool := false               -- the OP on the wire is REG_READ or REG_WRITE: at a slice's port such a request comes by a line row (R131)
  deriving DecidableEq, Repr

/-- The flash device in a stage of cast-on: at CO3 it answers with every feature; at CO4 and CO5 a header commit does not read back (R59, R435). -/
structure FlashStart where
  ok : Bool
  torn : Bool := false
  deriving DecidableEq, Repr

/-- An UPD_END: the request's body, and whether the header commit that it leads to does not read back (R435, R704). -/
structure UpdEndReq where
  bytes : List Byte
  torn : Bool := false
  deriving DecidableEq, Repr

/-- What the FEC of a Geyser lane finds: lock lost, lock gained, an uncorrectable codeword under lock (R76). -/
inductive FecLevel where
  | lost
  | gained
  | uncorrectable
  deriving DecidableEq, Repr

/-- What the pulses of an OTP program make of one physical word: the bits that now read 1 at MARGIN_HIGH, at NORMAL and at MARGIN_LOW. A
pulse reaches only target bits at the first two; a bit outside the targets may turn leaky (R392, R393). -/
structure CopyBurn where
  hi : BitVec 40 := BitVec.allOnes 40
  nrm : BitVec 40 := BitVec.allOnes 40
  low : BitVec 40 := 0
  deriving DecidableEq, Repr

/-- The outcome of an OTP program or re-burn: its pulses and each copy's word (an ECC word uses `c0` alone). -/
structure Burn where
  pulses : BitVec 3 := 1
  c0 : CopyBurn := {}
  c1 : CopyBurn := {}
  c2 : CopyBurn := {}
  deriving DecidableEq, Repr
/-- The predicate of a Gulun slot word: negate bit and index (R531). -/
structure Pred where
  neg : Bool := false
  p : BitVec 3 := 0
  deriving DecidableEq, Repr

/-- What the code of a row-memory word finds when an operation reads it (R542). -/
inductive MemErr where
  | clean | corrected | uncorrectable
  deriving DecidableEq, Repr


/-- The commands and events of the block, in the table's order. -/
inductive Instr where
  /-- ALWAYS_ON_POWER_UP: power-up of the always-on domain (R30). -/
  | alwaysOnPowerUp
  /-- BLOCK_POWER_LOSS: loss of block or Caldera power (R31). -/
  | blockPowerLoss
  /-- POR_N_FALL: POR_N falls (R77). -/
  | porNFall
  /-- POR_N_RISE: POR_N rises with these strap levels (R73). -/
  | porNRise (pkgSlot : BitVec 8) (avsEn : BitVec 4)
  /-- WARM_RESET: WARM_RST_N has been low for 100 ns (R74). -/
  | warmReset
  /-- ROW_TICK: the next row tick; the row that it opens has this many core cycles before its successor (R24, R25). -/
  | rowTick (cycles : BitVec 11)
  /-- THERM_TRIP_FALL: THERM_TRIP_N falls past its filter (R64). -/
  | thermTripFall
  /-- THERM_CLAMP_RELEASE: the seam at which the clamp may release (R66). -/
  | thermClampRelease
  /-- PWR_WARN_FALL: PWR_WARN_N falls past its filter (R67). -/
  | pwrWarnFall
  /-- MEMTRN_DONE_FALL: MEMTRN_DONE[slice] falls (R49). -/
  | memtrnDoneFall (slice : BitVec 6)
  /-- MEMTRN_DONE_RISE: MEMTRN_DONE[slice] rises (R49). -/
  | memtrnDoneRise (slice : BitVec 6)
  /-- SUSPEND_HOLD_TIMEOUT: the oldest request held by a suspended slice has waited 2 us (R49). -/
  | suspendHoldTimeout (slice : BitVec 6)
  /-- SITE_PRESENT_FALL: SITE_PRESENT[site] falls (R53). -/
  | sitePresentFall (site : BitVec 5)
  /-- SNOOP: a snoop at a port (R40). -/
  | snoop (port : BitVec 7) (addr : Addr)
  /-- READ_LINE: a line read at a slice port (R131). -/
  | readLine (slice : BitVec 6) (h : NocHdr)
  /-- WRITE_LINE: a full-line write at a slice port (R145). -/
  | writeLine (slice : BitVec 6) (h : NocHdr) (data : Line)
  /-- WRITE_MASKED: a masked write at a slice port (R146). -/
  | writeMasked (slice : BitVec 6) (h : NocHdr) (data : Line) (mask : BitVec 64)
  /-- ZERO_QUERY: a zero query at a slice port (R173). -/
  | zeroQuery (slice : BitVec 6) (h : NocHdr)
  /-- REG_READ: a register read of size bytes at the block port (R8). -/
  | regRead (h : NocHdr) (size : BitVec 7)
  /-- REG_WRITE: a register write of size bytes at the block port (R8). -/
  | regWrite (h : NocHdr) (size : BitVec 7) (data : Line)
  /-- RECORD_ARRIVAL: the record of a page arrives from Caldera at a slice (R131). -/
  | recordArrival (slice : BitVec 6) (page : BitVec 40)
  /-- CONTROLLER_READ_RETURN: a controller read returns with data and sideband word (R142). -/
  | controllerReadReturn (slice : BitVec 6) (rid : BitVec 8) (data : Line) (side : W64)
  /-- RE_KNIT_COMMIT: the re-knit of a page has rewritten its lines (R149). -/
  | reKnitCommit (slice : BitVec 6) (page : BitVec 40)
  /-- RE_KNIT_HOLD_TIMEOUT: a write held behind a re-knit has waited 2 us (R151). -/
  | reKnitHoldTimeout (slice : BitVec 6) (txid : BitVec 12)
  /-- NOC_RESPONSE: a response, with the class 0x05 code of a refusal (R167), to a request of the block's own (R39). -/
  | nocResponse (txid : BitVec 12) (resp : BitVec 3) (data : Line) (code : Status)
  /-- GRD_PROT_WRITE: a write of GRD_PROT (R126). -/
  | grdProtWrite (cls : Cls) (data : W64)
  /-- GRD_SYNC_REQ: a write of GRD_SYNC (R130). -/
  | grdSyncReq (cls : Cls) (data : W64)
  /-- GRD_SYNC_DONE: every slice has written back and invalidated (R130). -/
  | grdSyncDone
  /-- GRD_SCRUB_REQ: a write of GRD_SCRUB (R182). -/
  | grdScrubReq (cls : Cls) (data : W64)
  /-- SCRUB_PHYS_PASS_END: the physical pass of a scrub finishes (R185). -/
  | scrubPhysPassEnd
  /-- SCRUB_COMPLETE: the last pass of a scrub ends (R186). -/
  | scrubComplete
  /-- CLAIM_PASS_COMPLETE: the claim pass of a partition ends (R227). -/
  | claimPassComplete (dom : BitVec 6)
  /-- SQ_SUBMIT: a write of SQ_SUBMIT (R86). -/
  | sqSubmit (cls : Cls) (queue : BitVec 7) (bits : BitVec 16)
  /-- DESCRIPTOR_DISPATCH: the dispatcher visits a queue (R93). -/
  | descriptorDispatch (queue : BitVec 7)
  /-- DB_SET: a write of DB_SET (R109). -/
  | dbSet (cls : Cls) (mb : BitVec 7) (down : Bool) (bits : BitVec 32)
  /-- MB_BUFFER_WRITE: a write into a mailbox buffer (R112). -/
  | mbBufferWrite (cls : Cls) (mb : BitVec 7) (down : Bool) (off : BitVec 8) (size : BitVec 7) (data : Line)
  /-- SEND: a write of LENGTH with SEND (R110). -/
  | send (cls : Cls) (mb : BitVec 7) (down : Bool) (len : BitVec 9)
  /-- DONE: a write of DONE (R112). -/
  | done (cls : Cls) (mb : BitVec 7) (down : Bool)
  /-- MB_LIVE_TIMEOUT: LIVE has been 0 for TIMEOUT_ROWS + 1 ticks (R113). -/
  | mbLiveTimeout (mb : BitVec 7) (down : Bool)
  /-- KNOT_SIGNAL: the dispatched KNOT_SIGNAL runs (R114 to R122, R716). -/
  | knotSignal (tag : Tag)
  /-- KNOT_WAIT: the dispatched KNOT_WAIT runs (R114 to R122, R716). -/
  | knotWait (tag : Tag)
  /-- KNOT_RESET: the dispatched KNOT_RESET runs (R114 to R122, R716). -/
  | knotReset (tag : Tag)
  /-- KNOT_PROBE: the dispatched KNOT_PROBE runs (R114 to R122, R716). -/
  | knotProbe (tag : Tag)
  /-- KNOT_REGISTER_SIGNAL: an 8-byte write to the first 8 bytes of a knot entry (R116). -/
  | knotRegisterSignal (cls : Cls) (knot : BitVec 17) (data : W64)
  /-- OVERFLOW_WAITER_MET: overflow waiters met by a signal are served (R121). -/
  | overflowWaiterMet (knot : BitVec 17)
  /-- KNOT_STALL: the knot-stall conditions hold (R124). -/
  | knotStall
  /-- HANG_REPORT: Steward answers a knot-stall event (R641). -/
  | hangReport
  /-- KEY_WRITE: the dispatched KEY_WRITE runs (R275). -/
  | keyWrite (tag : Tag)
  /-- KEY_GENERATE: the dispatched KEY_GENERATE runs (R275). -/
  | keyGenerate (tag : Tag)
  /-- KEY_DERIVE: the dispatched KEY_DERIVE runs (R275). -/
  | keyDerive (tag : Tag)
  /-- KEY_UNWRAP: the dispatched KEY_UNWRAP runs (R275). -/
  | keyUnwrap (tag : Tag)
  /-- KEY_WRAP: the dispatched KEY_WRAP runs (R275). -/
  | keyWrap (tag : Tag)
  /-- KEY_ERASE: the dispatched KEY_ERASE runs (R275). -/
  | keyErase (tag : Tag)
  /-- KEY_ERASE_FINISH: the readers of an erasing slot have finished (R280). -/
  | keyEraseFinish (slot : BitVec 8)
  /-- KEY_LOAD_IDE: the dispatched KEY_LOAD_IDE runs (R275). -/
  | keyLoadIde (tag : Tag)
  /-- KEY_RANDOM: the dispatched KEY_RANDOM runs (R714). -/
  | keyRandom (tag : Tag)
  /-- SKN_MEAS_COMMIT: COMMIT of SKN_MEAS is set (R288). -/
  | sknMeasCommit (cls : Cls)
  /-- ENTROPY_STARTUP_DONE: the start-up tests pass (R293). -/
  | entropyStartupDone
  /-- ENTROPY_TEST_FAIL: a health test fails: repetition count or adaptive proportion (R294). -/
  | entropyTestFail (samples : List Bool)
  /-- ES_RESTART: a write of ES_CTL.RESTART (R294). -/
  | esRestart (cls : Cls)
  /-- DIG_OPEN: the dispatched DIG_OPEN runs (R302). -/
  | digOpen (tag : Tag)
  /-- DIG_OPEN_GRANT: a waiting DIG_OPEN receives a context (R303). -/
  | digOpenGrant
  /-- DIG_UPDATE: the dispatched DIG_UPDATE runs (R310). -/
  | digUpdate (tag : Tag)
  /-- DIG_FINISH: the dispatched DIG_FINISH runs (R317). -/
  | digFinish (tag : Tag)
  /-- DIG_COMPARE: the dispatched DIG_COMPARE runs (R319). -/
  | digCompare (tag : Tag)
  /-- DIG_CLOSE: the dispatched DIG_CLOSE runs (R306). -/
  | digClose (tag : Tag)
  /-- DIGEST_CORE_SWITCH: a core that absorbed 16 blocks of a context switches (R308). -/
  | digestCoreSwitch (core : BitVec 3)
  /-- PKE_SIGN: the inputs of the PKE_SIGN taken up are loaded and its timed schedule begins (R351). -/
  | pkeSign (tag : Tag)
  /-- PKE_VERIFY: the inputs of the PKE_VERIFY taken up are loaded and its timed schedule begins (R351). -/
  | pkeVerify (tag : Tag)
  /-- PKE_PUBKEY: the inputs of the PKE_PUBKEY taken up are loaded and its timed schedule begins (R351). -/
  | pkePubkey (tag : Tag)
  /-- PKE_KEYGEN: the inputs of the PKE_KEYGEN taken up are loaded and its timed schedule begins (R351). -/
  | pkeKeygen (tag : Tag)
  /-- PKE_ENCAPS: the inputs of the PKE_ENCAPS taken up are loaded and its timed schedule begins (R351). -/
  | pkeEncaps (tag : Tag)
  /-- PKE_DECAPS: the inputs of the PKE_DECAPS taken up are loaded and its timed schedule begins (R351). -/
  | pkeDecaps (tag : Tag)
  /-- PKE_ECDH: the inputs of the PKE_ECDH taken up are loaded and its timed schedule begins (R351). -/
  | pkeEcdh (tag : Tag)
  /-- PKE_EPH_CLEAR: the idle engine takes up the dispatched PKE_EPH_CLEAR (R349). -/
  | pkeEphClear (tag : Tag)
  /-- PKE_ABORT: the dispatched PKE_ABORT runs (R364). -/
  | pkeAbort (tag : Tag)
  /-- PKE_TAKE_UP: the idle engine takes up the next waiting operation (R350). -/
  | pkeTakeUp
  /-- PKE_COMPLETE: a timed schedule ends; fault: the two results or the two verdict comparisons differ (R353, R359, R360). -/
  | pkeComplete (fault : Bool)
  /-- PKE_CLEARING_END: a clearing ends (R363). -/
  | pkeClearingEnd
  /-- PKE_SLOT_LEN_WRITE: a write of PKE_CFG.SLOT_LEN (R340). -/
  | pkeSlotLenWrite (cls : Cls) (value : BitVec 3)
  /-- WG_OPEN: the dispatched WG_OPEN runs (R199). -/
  | wgOpen (tag : Tag)
  /-- WG_LOAD: the dispatched WG_LOAD runs (R202). -/
  | wgLoad (tag : Tag)
  /-- WG_CONTEXT_START: a waiting WGATE command takes the lowest free context (R198). -/
  | wgContextStart
  /-- WG_DEST_CHECK: the destination check of a context begins (R204). -/
  | wgDestCheck (ctx : BitVec 2)
  /-- WG_CHUNK: the next chunk of a context has arrived (R205). -/
  | wgChunk (ctx : BitVec 2)
  /-- WG_RETRY_REISSUE: a gate access answered RETRY is reissued (R209). -/
  | wgRetryReissue (ctx : BitVec 2) (addr : Addr)
  /-- PART_CLAIM: the dispatched PART_CLAIM runs its checks (R219 to R222, R226). -/
  | partClaim (tag : Tag)
  /-- PART_KEY: the dispatched PART_KEY runs its checks (R219 to R222, R231). -/
  | partKey (tag : Tag)
  /-- PART_START: the dispatched PART_START runs its checks (R219 to R222, R233). -/
  | partStart (tag : Tag)
  /-- PART_MIGRATE: the dispatched PART_MIGRATE runs its checks (R219 to R222, R234). -/
  | partMigrate (tag : Tag)
  /-- PART_FREEZE: the dispatched PART_FREEZE runs its checks (R219 to R222, R223). -/
  | partFreeze (tag : Tag)
  /-- PART_THAW: the dispatched PART_THAW runs its checks (R219 to R222, R224). -/
  | partThaw (tag : Tag)
  /-- PART_RESET: the dispatched PART_RESET runs its checks (R219 to R222, R238). -/
  | partReset (tag : Tag)
  /-- PART_BINDOFF: the dispatched PART_BINDOFF runs its checks (R219 to R222, R239). -/
  | partBindoff (tag : Tag)
  /-- PART_RELEASE: the dispatched PART_RELEASE runs its checks (R219 to R222, R242). -/
  | partRelease (tag : Tag)
  /-- LINK_JOB: the dispatched LINK_JOB runs (R255). -/
  | linkJob (tag : Tag)
  /-- LINK_REKEY: the dispatched LINK_REKEY runs (R256). -/
  | linkRekey (tag : Tag)
  /-- LINK_END: the dispatched LINK_END runs (R254). -/
  | linkEnd (tag : Tag)
  /-- LINK_PROBE: the dispatched LINK_PROBE runs (R254). -/
  | linkProbe (tag : Tag)
  /-- LINK_TX_FRAME: the transport submits a frame with PROTECT and JOB (R247). -/
  | linkTxFrame (lane : BitVec 6) (prot : Bool) (job : BitVec 24) (frame : List Byte)
  /-- LINK_RX_FRAME: a frame arrives from the MAC (R250). -/
  | linkRxFrame (lane : BitVec 6) (frame : List Byte)
  /-- REORDER_FLUSH: the lane has been idle for 1 us (R259). -/
  | reorderFlush (lane : BitVec 6)
  /-- FI_MODE_WRITE: LNK_GCTL.FI_MODE is written (R257). -/
  | fiModeWrite (cls : Cls) (mode : Bool)
  /-- LNK_FI_WRITE: LNK_FI of a lane is written (R258). -/
  | lnkFiWrite (cls : Cls) (lane : BitVec 6) (data : W64)
  /-- DUMP_ARM: the dispatched DUMP_ARM runs (R619). -/
  | dumpArm (tag : Tag)
  /-- DUMP_POINT: the dispatched DUMP_POINT runs (R620). -/
  | dumpPoint (tag : Tag)
  /-- DUMP_DISARM: the dispatched DUMP_DISARM runs (R619). -/
  | dumpDisarm (tag : Tag)
  /-- DUMP_RUN: the free dump engine takes the next waiting dump (R621). -/
  | dumpRun
  /-- TELEM_MARK: the dispatched TELEM_MARK runs (R615). -/
  | telemMark (tag : Tag)
  /-- TELEM_READ: the dispatched TELEM_READ runs (R616). -/
  | telemRead (tag : Tag)
  /-- TELEM_DRAIN: the dispatched TELEM_DRAIN runs (R617). -/
  | telemDrain (tag : Tag)
  /-- MARKER_POST: a write of size bytes to the MARKER port (R598). -/
  | markerPost (h : NocHdr) (size : BitVec 7) (data : W128)
  /-- SITE_ADD_POST: a write to a SITE_ADD port (R597). -/
  | siteAddPost (h : NocHdr) (counter : BitVec 2) (size : BitVec 7) (data : W64)
  /-- PC_SAMPLE_POST: a write to the PC port (R609). -/
  | pcSamplePost (h : NocHdr) (size : BitVec 7) (data : W64)
  /-- REGION_CYCLES_POST: a write to a REGION port (R602). -/
  | regionCyclesPost (h : NocHdr) (region : BitVec 6) (size : BitVec 7) (data : W64)
  /-- INT_ADD_POST: a write to an INT_ADD port (R597). -/
  | intAddPost (h : NocHdr) (counter : BitVec 5) (size : BitVec 7) (data : W64)
  /-- TEST_UNIT: the dispatched TEST_UNIT runs (R636). -/
  | testUnit (tag : Tag)
  /-- TEST_PROBE: the dispatched TEST_PROBE runs (R646). -/
  | testProbe (tag : Tag)
  /-- TEST_FENCE: the dispatched TEST_FENCE runs (R646). -/
  | testFence (tag : Tag)
  /-- DEFERRED_TEST_START: the unit of a deferred test has had no work for one full row (R636). -/
  | deferredTestStart (unitId : UnitId)
  /-- SELF_TEST_START: the first ready test that its pool and the global limit allow starts (R633). -/
  | selfTestStart
  /-- SELF_TEST_END: the running test of the unit ends (R635). -/
  | selfTestEnd (unitId : UnitId) (pass : Bool)
  /-- CALDERA_COPY_END: the copy of a Caldera bank to its spare ends (R639). -/
  | calderaCopyEnd (bank : UnitId)
  /-- VENT_REPORT: a write of size bytes to the intake (R628). -/
  | ventReport (h : NocHdr) (size : BitVec 7) (data : W128)
  /-- VENT_REPORT_EXPIRE: a row-routed report has been open for 256 rows (R648). -/
  | ventReportExpire (handle : BitVec 16)
  /-- SNT_APPEND: a 32-byte write of SNT_APPEND (R642). -/
  | sntAppend (cls : Cls) (data : BitVec 256)
  /-- SNT_CKPT_WRITE: a write of SNT_PTR.CKPT (R719). -/
  | sntCkptWrite (cls : Cls) (value : BitVec 21)
  /-- SINTER_CHECKPOINT: Steward writes a checkpoint (R451). -/
  | sinterCheckpoint
  /-- WEAR_LEDGER_COMMIT: Steward commits a wear record; so many slots of each copy fail their verify first (R590, R461). -/
  | wearLedgerCommit (failsA : BitVec 3) (failsB : BitVec 3)
  /-- COMPACTION: a compaction runs or resumes, with the outcome of its counter program (R456, R457). -/
  | compaction (burn : Burn)
  /-- FL_READ: READ with GO on a flash channel (R431). -/
  | flRead (cls : Cls) (chan : Bool) (addr : BitVec 32) (len : BitVec 17) (sram : BitVec 20)
  /-- FL_PROGRAM: PROGRAM with GO on a flash channel (R431, R461). -/
  | flProgram (cls : Cls) (chan : Bool) (addr : BitVec 32) (len : BitVec 17) (sram : BitVec 20)
  /-- FL_ERASE: ERASE with GO on a flash channel (R445). -/
  | flErase (cls : Cls) (chan : Bool) (addr : BitVec 32)
  /-- FL_OP_COMPLETE: the running device operation ends, verified or not (R444). -/
  | flOpComplete (ok : Bool)
  /-- OTP_READ: OTP_CMD written with OP READ, this reference and address, and GO (R397). -/
  | otpRead (cls : Cls) (margin : BitVec 2) (addr : BitVec 11)
  /-- OTP_PROGRAM: OTP_CMD written with OP PROGRAM, this address and GO; the data is OTP_WDATA (R391). -/
  | otpProgram (cls : Cls) (addr : BitVec 11)
  /-- OTP_REBURN: OTP_CMD written with OP REBURN, this address and GO (R394). -/
  | otpReburn (cls : Cls) (addr : BitVec 11)
  /-- OTP_CHECK: OTP_CMD written with OP CHECK, this address and GO (R398). -/
  | otpCheck (cls : Cls) (addr : BitVec 11)
  /-- OTP_OP_COMPLETE: the program or re-burn of an OTP command ends with this outcome (R392). -/
  | otpOpComplete (burn : Burn)
  /-- LC_SESSION_OPEN: OPEN of LC_SESSION is written (R411). -/
  | lcSessionOpen (cls : Cls)
  /-- LC_TICKET_VERIFIED: the ticket program ends with this outcome (R411). -/
  | lcTicketVerified (burn : Burn)
  /-- LC_TRANS_GO: LC_TRANS_CTL is written with this target and GO (R415). -/
  | lcTransGo (cls : Cls) (target : BitVec 4)
  /-- LC_TRANSITION_PHASE: the phase of the transition in progress ends, its copy of the four words programmed with these outcomes, and the next begins (R417). -/
  | lcTransitionPhase (w0 : CopyBurn) (w1 : CopyBurn) (w2 : CopyBurn) (w3 : CopyBurn)
  /-- LC_TRANSITION_END: the transition ends at t0 + 2.2 ms (R418). -/
  | lcTransitionEnd
  /-- LC_DBG_NEW: NEW of LC_DBG_CTL is written (R422). -/
  | lcDbgNew (cls : Cls)
  /-- LC_DBG_GRANT: GRANT of LC_DBG_CTL is written (R425). -/
  | lcDbgGrant (cls : Cls)
  /-- LC_GRANT_OPEN: the unlock-count program ends with this outcome (R426). -/
  | lcGrantOpen (burn : Burn)
  /-- LC_DBG_LOCK: LOCK of LC_DBG_CTL is written (R427). -/
  | lcDbgLock (cls : Cls)
  /-- LC_GRANT_EXPIRE: DURATION seconds have passed since the gates opened (R427). -/
  | lcGrantExpire
  /-- LC_CHALLENGE_EXPIRE: the challenge is 600 s old (R423). -/
  | lcChallengeExpire
  /-- CAST_ON_STAGE: the stage in progress exits; failed: the units whose march test or swatch fails at CO6, CO7 and CO11 (R492, R508, R510). -/
  | castOnStage (flash : FlashStart) (failed : List UnitId)
  /-- CO8_TIMEOUT: 400 ms have passed since CO8 was entered (R512). -/
  | co8Timeout
  /-- CO9_TIMEOUT: 40 ms have passed since CO9 was entered (R513). -/
  | co9Timeout
  /-- CAST_ON_WATCHDOG_EXPIRE: the watchdog expires (R494). -/
  | castOnWatchdogExpire
  /-- CORE_FAULT: a lockstep mismatch or an SRAM error, or (fetch) a refused instruction fetch (R495). -/
  | coreFault (fetch : Bool)
  /-- RUN_SRAM: RUN_SRAM of CO_CTL is written (R505). -/
  | runSram (cls : Cls)
  /-- ROOT_REQ: the ROM takes the message in mailbox 64; burns: the outcomes of its programs in order (R507). -/
  | rootReq (burns : List Burn)
  /-- BLOCK_READY: the conditions of READY hold (R518). -/
  | blockReady
  /-- CO_WAVE_GO: GO of CO_WAVE is written (R515). -/
  | coWaveGo (cls : Cls)
  /-- WAVE_BEGIN: a wave begins at a seam (R515). -/
  | waveBegin
  /-- WAVE_RAIL_TIMEOUT: 10 ms have passed since the wave began (R516). -/
  | waveRailTimeout
  /-- WAVE_SETTLE_OPEN: 50 us have passed since the release (R515). -/
  | waveSettleOpen
  /-- WAVE_SETTLE_DONE: the settle step is complete (R515). -/
  | waveSettleDone
  /-- WAVE_SETTLE_TIMEOUT: 1 ms has passed since the window opened (R516). -/
  | waveSettleTimeout
  /-- WAVE_RESUME: the pause of the wave engine ends (R517). -/
  | waveResume
  /-- RE_RUN: RUN of RE_CTL is written (R561). -/
  | reRun (cls : Cls)
  /-- RE_BANK_REQ: BANK_REQ of RE_CTL is written (R563). -/
  | reBankReq (cls : Cls)
  /-- RE_CLEAR: CLEAR of RE_CTL is written (R560). -/
  | reClear (cls : Cls)
  /-- RE_CLEAR_DONE: 4,096 cycles of a clear have passed (R560). -/
  | reClearDone
  /-- RE_PARAM_COMMIT: COMMIT of RE_PARAM_CTL is written (R552). -/
  | reParamCommit (cls : Cls)
  /-- NOP: a stitch of eight NOPs (R533). -/
  | nop
  /-- ADD: a stitch with ADD in slot S0 or S1 (R536). -/
  | gAdd (s1 : Bool) (pr : Pred) (rd : BitVec 6) (ra : BitVec 6) (rb : BitVec 6)
  /-- SUB: a stitch with SUB in slot S0 or S1 (R536). -/
  | gSub (s1 : Bool) (pr : Pred) (rd : BitVec 6) (ra : BitVec 6) (rb : BitVec 6)
  /-- AND: a stitch with AND in slot S0 or S1 (R536). -/
  | gAnd (s1 : Bool) (pr : Pred) (rd : BitVec 6) (ra : BitVec 6) (rb : BitVec 6)
  /-- OR: a stitch with OR in slot S0 or S1 (R536). -/
  | gOr (s1 : Bool) (pr : Pred) (rd : BitVec 6) (ra : BitVec 6) (rb : BitVec 6)
  /-- XOR: a stitch with XOR in slot S0 or S1 (R536). -/
  | gXor (s1 : Bool) (pr : Pred) (rd : BitVec 6) (ra : BitVec 6) (rb : BitVec 6)
  /-- SHL: a stitch with SHL in slot S0 or S1 (R536). -/
  | gShl (s1 : Bool) (pr : Pred) (rd : BitVec 6) (ra : BitVec 6) (rb : BitVec 6)
  /-- SHR: a stitch with SHR in slot S0 or S1 (R536). -/
  | gShr (s1 : Bool) (pr : Pred) (rd : BitVec 6) (ra : BitVec 6) (rb : BitVec 6)
  /-- SRA: a stitch with SRA in slot S0 or S1 (R536). -/
  | gSra (s1 : Bool) (pr : Pred) (rd : BitVec 6) (ra : BitVec 6) (rb : BitVec 6)
  /-- MIN: a stitch with MIN in slot S0 or S1 (R536). -/
  | gMin (s1 : Bool) (pr : Pred) (rd : BitVec 6) (ra : BitVec 6) (rb : BitVec 6)
  /-- MAX: a stitch with MAX in slot S0 or S1 (R536). -/
  | gMax (s1 : Bool) (pr : Pred) (rd : BitVec 6) (ra : BitVec 6) (rb : BitVec 6)
  /-- MINU: a stitch with MINU in slot S0 or S1 (R536). -/
  | gMinu (s1 : Bool) (pr : Pred) (rd : BitVec 6) (ra : BitVec 6) (rb : BitVec 6)
  /-- MAXU: a stitch with MAXU in slot S0 or S1 (R536). -/
  | gMaxu (s1 : Bool) (pr : Pred) (rd : BitVec 6) (ra : BitVec 6) (rb : BitVec 6)
  /-- ADDS: a stitch with ADDS in slot S0 or S1 (R536). -/
  | gAdds (s1 : Bool) (pr : Pred) (rd : BitVec 6) (ra : BitVec 6) (rb : BitVec 6)
  /-- SUBS: a stitch with SUBS in slot S0 or S1 (R536). -/
  | gSubs (s1 : Bool) (pr : Pred) (rd : BitVec 6) (ra : BitVec 6) (rb : BitVec 6)
  /-- ADDI: a stitch with ADDI in slot S0 or S1 (R536). -/
  | gAddi (s1 : Bool) (pr : Pred) (rd : BitVec 6) (ra : BitVec 6) (imm : BitVec 8)
  /-- ANDI: a stitch with ANDI in slot S0 or S1 (R536). -/
  | gAndi (s1 : Bool) (pr : Pred) (rd : BitVec 6) (ra : BitVec 6) (imm : BitVec 8)
  /-- SHLI: a stitch with SHLI in slot S0 or S1 (R536). -/
  | gShli (s1 : Bool) (pr : Pred) (rd : BitVec 6) (ra : BitVec 6) (imm : BitVec 6)
  /-- SHRI: a stitch with SHRI in slot S0 or S1 (R536). -/
  | gShri (s1 : Bool) (pr : Pred) (rd : BitVec 6) (ra : BitVec 6) (imm : BitVec 6)
  /-- SRAI: a stitch with SRAI in slot S0 or S1 (R536). -/
  | gSrai (s1 : Bool) (pr : Pred) (rd : BitVec 6) (ra : BitVec 6) (imm : BitVec 6)
  /-- LDI: a stitch with LDI in slot S0 or S1 (R536). -/
  | gLdi (s1 : Bool) (pr : Pred) (rd : BitVec 6) (imm : BitVec 14)
  /-- LDIH: a stitch with LDIH in slot S0 or S1 (R536). -/
  | gLdih (s1 : Bool) (pr : Pred) (rd : BitVec 6) (imm : BitVec 14)
  /-- LIDX: a stitch with LIDX in slot S0 or S1 (R536). -/
  | gLidx (s1 : Bool) (pr : Pred) (rd : BitVec 6) (level : BitVec 2)
  /-- MUL: a stitch with MUL in slot S2 (R537). -/
  | gMul (pr : Pred) (rd : BitVec 6) (ra : BitVec 6) (rb : BitVec 6)
  /-- MULH: a stitch with MULH in slot S2 (R537). -/
  | gMulh (pr : Pred) (rd : BitVec 6) (ra : BitVec 6) (rb : BitVec 6)
  /-- QMUL: a stitch with QMUL in slot S2 (R537). -/
  | gQmul (pr : Pred) (rd : BitVec 6) (ra : BitVec 6) (rb : BitVec 6)
  /-- QMAC: a stitch with QMAC in slot S2 (R537). -/
  | gQmac (pr : Pred) (rd : BitVec 6) (ra : BitVec 6) (rb : BitVec 6)
  /-- MULI: a stitch with MULI in slot S2 (R537). -/
  | gMuli (pr : Pred) (rd : BitVec 6) (ra : BitVec 6) (imm : BitVec 8)
  /-- TMAC: a stitch with TMAC in slot S3 (R538). -/
  | gTmac (pr : Pred) (acc : BitVec 2) (ra : BitVec 6) (rb : BitVec 6) (err : MemErr)
  /-- TMACZ: a stitch with TMACZ in slot S3 (R538). -/
  | gTmacz (pr : Pred) (acc : BitVec 2) (ra : BitVec 6) (rb : BitVec 6) (err : MemErr)
  /-- TRQ: a stitch with TRQ in slot S3 (R538). -/
  | gTrq (pr : Pred) (acc : BitVec 2) (ra : BitVec 6) (sh : BitVec 5) (relu : Bool)
  /-- TST32: a stitch with TST32 in slot S3 (R538). -/
  | gTst32 (pr : Pred) (acc : BitVec 2) (ra : BitVec 6)
  /-- TLD32: a stitch with TLD32 in slot S3 (R538). -/
  | gTld32 (pr : Pred) (acc : BitVec 2) (ra : BitVec 6) (err : MemErr)
  /-- LD64: a stitch with LD64 in slot S4 (R540). -/
  | gLd64 (pr : Pred) (rd : BitVec 6) (ra : BitVec 6) (imm : BitVec 8) (err : MemErr)
  /-- LD32S: a stitch with LD32S in slot S4 (R540). -/
  | gLd32s (pr : Pred) (rd : BitVec 6) (ra : BitVec 6) (imm : BitVec 8) (err : MemErr)
  /-- LD32U: a stitch with LD32U in slot S4 (R540). -/
  | gLd32u (pr : Pred) (rd : BitVec 6) (ra : BitVec 6) (imm : BitVec 8) (err : MemErr)
  /-- LD8S: a stitch with LD8S in slot S4 (R540). -/
  | gLd8s (pr : Pred) (rd : BitVec 6) (ra : BitVec 6) (imm : BitVec 8) (err : MemErr)
  /-- ST64: a stitch with ST64 in slot S4 (R540). -/
  | gSt64 (pr : Pred) (rd : BitVec 6) (ra : BitVec 6) (imm : BitVec 8)
  /-- ST32: a stitch with ST32 in slot S4 (R540). -/
  | gSt32 (pr : Pred) (rd : BitVec 6) (ra : BitVec 6) (imm : BitVec 8)
  /-- ST16: a stitch with ST16 in slot S4 (R540). -/
  | gSt16 (pr : Pred) (rd : BitVec 6) (ra : BitVec 6) (imm : BitVec 8)
  /-- ST8: a stitch with ST8 in slot S4 (R540). -/
  | gSt8 (pr : Pred) (rd : BitVec 6) (ra : BitVec 6) (imm : BitVec 8)
  /-- LD64_POSTINC: a stitch with LD64_POSTINC in slot S4 (R540). -/
  | gLd64Post (pr : Pred) (rd : BitVec 6) (ra : BitVec 6) (imm : BitVec 8) (err : MemErr)
  /-- LD32S_POSTINC: a stitch with LD32S_POSTINC in slot S4 (R540). -/
  | gLd32sPost (pr : Pred) (rd : BitVec 6) (ra : BitVec 6) (imm : BitVec 8) (err : MemErr)
  /-- LD32U_POSTINC: a stitch with LD32U_POSTINC in slot S4 (R540). -/
  | gLd32uPost (pr : Pred) (rd : BitVec 6) (ra : BitVec 6) (imm : BitVec 8) (err : MemErr)
  /-- LD8S_POSTINC: a stitch with LD8S_POSTINC in slot S4 (R540). -/
  | gLd8sPost (pr : Pred) (rd : BitVec 6) (ra : BitVec 6) (imm : BitVec 8) (err : MemErr)
  /-- ST64_POSTINC: a stitch with ST64_POSTINC in slot S4 (R540). -/
  | gSt64Post (pr : Pred) (rd : BitVec 6) (ra : BitVec 6) (imm : BitVec 8)
  /-- ST32_POSTINC: a stitch with ST32_POSTINC in slot S4 (R540). -/
  | gSt32Post (pr : Pred) (rd : BitVec 6) (ra : BitVec 6) (imm : BitVec 8)
  /-- ST16_POSTINC: a stitch with ST16_POSTINC in slot S4 (R540). -/
  | gSt16Post (pr : Pred) (rd : BitVec 6) (ra : BitVec 6) (imm : BitVec 8)
  /-- ST8_POSTINC: a stitch with ST8_POSTINC in slot S4 (R540). -/
  | gSt8Post (pr : Pred) (rd : BitVec 6) (ra : BitVec 6) (imm : BitVec 8)
  /-- PRB: a stitch with PRB in slot S5 (R543). -/
  | gPrb (pr : Pred) (rd : BitVec 6) (index : BitVec 14)
  /-- PRBX: a stitch with PRBX in slot S5 (R543). -/
  | gPrbx (pr : Pred) (rd : BitVec 6) (ra : BitVec 6) (imm : BitVec 8)
  /-- PST: a stitch with PST in slot S5 (R543). -/
  | gPst (pr : Pred) (rs : BitVec 6) (index : BitVec 14)
  /-- PSTX: a stitch with PSTX in slot S5 (R543). -/
  | gPstx (pr : Pred) (rs : BitVec 6) (ra : BitVec 6) (imm : BitVec 8)
  /-- DBSET: a stitch with DBSET in slot S6 (R544). -/
  | gDbset (pr : Pred) (target : Bool) (bell : BitVec 5)
  /-- DBSETR: a stitch with DBSETR in slot S6 (R544). -/
  | gDbsetr (pr : Pred) (target : Bool) (ra : BitVec 6)
  /-- DBCLR: a stitch with DBCLR in slot S6 (R544). -/
  | gDbclr (pr : Pred) (target : Bool) (ra : BitVec 6)
  /-- KSIG: a stitch with KSIG in slot S6 (R544). -/
  | gKsig (pr : Pred) (ra : BitVec 6) (rb : BitVec 6)
  /-- SLOG: a stitch with SLOG in slot S6 (R544). -/
  | gSlog (pr : Pred) (ra : BitVec 6) (rb : BitVec 6)
  /-- VACK: a stitch with VACK in slot S6 (R544). -/
  | gVack (pr : Pred) (ra : BitVec 6)
  /-- RAILOK: a stitch with RAILOK in slot S6 (R544). -/
  | gRailok (pr : Pred)
  /-- PSET: a stitch with PSET in slot S7 (R546). -/
  | gPset (pr : Pred) (pd : BitVec 3) (cond : BitVec 3) (ra : BitVec 6) (rb : BitVec 6)
  /-- PSETI: a stitch with PSETI in slot S7 (R546). -/
  | gPseti (pr : Pred) (pd : BitVec 3) (cond : BitVec 3) (ra : BitVec 6) (imm : BitVec 8)
  /-- PLOG: a stitch with PLOG in slot S7 (R546). -/
  | gPlog (pr : Pred) (pd : BitVec 3) (lop : BitVec 2) (pa : BitVec 3) (pb : BitVec 3)
  /-- LOOP: a stitch with LOOP in slot S7; the operands are trip - 1 and body - 1 (R546, R547). -/
  | gLoop (trip : BitVec 10) (body : BitVec 10)
  /-- ROW_END: a stitch with ROW_END in slot S7 (R526). -/
  | gRowEnd
  /-- ILLEGAL_STITCH: a stitch of these bits issues, the slot words marked bad having been read as uncorrectable (R533). -/
  | illegalStitch (word : BitVec 256) (bad : BitVec 8)
  /-- SENSOR_READING: a reading word arrives in slot 1 to 24 (R60). -/
  | sensorReading (slot : BitVec 5) (word : BitVec 20)
  /-- AVS_READBACK: a Voltage or Status read of a rail completes; fault: the Status word reports a fault (R571). -/
  | avsReadback (rail : BitVec 6) (isStatus : Bool) (fault : Bool) (value : BitVec 16)
  /-- GOV_FORCE_HOLD_WRITE: FORCE_HOLD of GOV_CTL is written (R567). -/
  | govForceHoldWrite (cls : Cls) (value : Bool)
  /-- HOLD_EXIT: the seam at which hold mode may end (R568). -/
  | holdExit
  /-- GOV_RAIL_WRITE: VMIN and VMAX of a rail are written (R570). -/
  | govRailWrite (cls : Cls) (rail : BitVec 6) (vmin : BitVec 12) (vmax : BitVec 12)
  /-- LOOPBACK_TRAINED: both Geyser lanes have trained in loopback (R76). -/
  | loopbackTrained
  /-- BYPASS_RELEASE: 1 ms of clean loopback has passed (R76). -/
  | bypassRelease
  /-- RING_TRAINED: both lanes have trained with the ring neighbours (R80). -/
  | ringTrained
  /-- RING_TRAIN_TIMEOUT: 20 ms have passed since BYPASS_N rose (R80). -/
  | ringTrainTimeout
  /-- RING_RETRY: 1 s has passed since the ring training failed (R80). -/
  | ringRetry
  /-- LANE_LOCK_LOSS: a lane has been without lock for 1 ms, or after that report for 20 ms (R683). -/
  | laneLockLoss (lane : BitVec 1)
  /-- GEYSER_FRAME: a frame arrives on a lane; bad: the FEC reports an uncorrectable codeword in it (R679, R681). -/
  | geyserFrame (lane : BitVec 1) (frame : List Byte) (bad : Bool)
  /-- ENUM: an ENUM frame arrives on a lane with this COUNT and HOPS (R680). -/
  | enum (lane : BitVec 1) (count : BitVec 8) (hops : BitVec 8)
  /-- GEYSER_RESEND_TIMEOUT: 500 us have passed without progress in a session and class; SESSION 0 is the handshake, in ROM recovery the station pair (R685). -/
  | geyserResendTimeout (session : BitVec 32) (update : Bool)
  /-- ACK_ONLY_SEND: an ACK_ONLY frame is sent (R685). -/
  | ackOnlySend (session : BitVec 32) (update : Bool)
  /-- GY_HELLO: a GY_HELLO has been received whole (R688, R689). -/
  | gyHello (body : List Byte)
  /-- GY_FINISH: a GY_FINISH has been received whole (R690). -/
  | gyFinish (body : List Byte)
  /-- GY_SESSION_IDLE_TIMEOUT: 600 s have passed without an accepted frame (R691). -/
  | gySessionIdleTimeout (session : BitVec 32)
  /-- GY_REG_READ: the request has been received whole in a session (R693). -/
  | gyRegRead (session : BitVec 32) (body : List Byte)
  /-- GY_REG_WRITE: the request has been received whole in a session (R693). -/
  | gyRegWrite (session : BitVec 32) (body : List Byte)
  /-- GY_CMD: the request has been received whole in a session (R694). -/
  | gyCmd (session : BitVec 32) (body : List Byte)
  /-- GY_REPORT: the request has been received whole in a session (R695). -/
  | gyReport (session : BitVec 32) (body : List Byte)
  /-- GY_LOG: the request has been received whole in a session (R642). -/
  | gyLog (session : BitVec 32) (body : List Byte)
  /-- GY_FI_SET: the request has been received whole in a session (R698). -/
  | gyFiSet (session : BitVec 32) (body : List Byte)
  /-- GY_CLOSE: the request has been received whole in a session (R691). -/
  | gyClose (session : BitVec 32) (body : List Byte)
  /-- GY_FI_WRITE: a write of GY_FI (R697, R698). -/
  | gyFiWrite (cls : Cls) (data : W64)
  /-- GY_FI_SECOND: a second of TIMEBASE begins (R698). -/
  | gyFiSecond
  /-- UPD_BEGIN: the request has been received whole in a session (R702). -/
  | updBegin (session : BitVec 32) (body : List Byte)
  /-- UPD_DATA: the request has been received whole in a session; flash: its erases and programs succeed (R703). -/
  | updData (session : BitVec 32) (body : List Byte) (flash : Bool)
  /-- UPD_END: the request has been received whole in a session (R704). -/
  | updEnd (session : BitVec 32) (body : UpdEndReq)
  /-- UPD_DISCARD: the request has been received whole in a session (R705). -/
  | updDiscard (session : BitVec 32) (body : List Byte)
  /-- UPD_ACTIVATE: the request has been received whole in a session (R707). -/
  | updActivate (session : BitVec 32) (body : List Byte)
  /-- UPD_FLOOR: the request has been received whole in a session; burns: the outcomes of the programs in order (R709). -/
  | updFloor (session : BitVec 32) (body : List Byte) (burns : List Burn)
  /-- UPD_STATUS: the request has been received whole in a session (R687). -/
  | updStatus (session : BitVec 32) (body : List Byte)
  /-- ACTIVATE: ACTIVATE of UPD_CTL is written (R708). -/
  | activate (cls : Cls)
  /-- REC_STATUS: the message has been received whole in ROM recovery (R710). -/
  | recStatus (body : List Byte)
  /-- REC_BEGIN: the message has been received whole in ROM recovery (R710). -/
  | recBegin (body : List Byte)
  /-- REC_DATA: the message has been received whole in ROM recovery (R710). -/
  | recData (body : List Byte) (flash : Bool)
  /-- REC_END: the message has been received whole in ROM recovery (R710). -/
  | recEnd (body : List Byte)
  /-- RPT_REQ: Keeper takes up the message in a mailbox as a report request (R483 to R486). -/
  | rptReq (mb : BitVec 7)
  /-- KEY_REQ: Keeper takes up the message in a mailbox as a key request (R489). -/
  | keyReq (mb : BitVec 7)
  /-- KEM_HOLDER_EXPIRE: 600 s have passed without an accepted bundle (R486). -/
  | kemHolderExpire (dom : BitVec 6)
  /-- SITE_ATTESTATION: Keeper starts the exchange with a chiplet site (R478). -/
  | siteAttestation (site : BitVec 5)
  /-- CHIPLET_SPDM_RESPONSE: an SPDM response of a chiplet arrives (R479). -/
  | chipletSpdmResponse (site : BitVec 5) (msg : List Byte)
  /-- CHIPLET_SPDM_TIMEOUT: a chiplet response is absent past its timeout (R479). -/
  | chipletSpdmTimeout (site : BitVec 5)
  /-- ATT_SITE_TRUST: a write of ATT_SITE_TRUST (R481, R482). -/
  | attSiteTrust (cls : Cls) (data : W64)
  /-- SPDM_REQUEST: an SPDM message of the host's requester (R475). -/
  | spdmRequest (msg : List Byte)
  /-- GET_MEASUREMENTS: the host asks for measurement blocks, 0xFF for all (R477). -/
  | getMeasurements (nonce : Key256) (index : BitVec 8)
  /-- KEY_PROG: an IDE_KM KEY_PROG, inside a secured SPDM session or not (R674). -/
  | keyProg (secured : Bool) (stream : BitVec 8) (kset : Bool) (sub : Fin 3) (tx : Bool) (key : Key256) (iv : W64)
  /-- K_SET_GO: an IDE_KM K_SET_GO (R674). -/
  | kSetGo (secured : Bool) (stream : BitVec 8) (kset : Bool) (tx : Bool)
  /-- K_SET_STOP: an IDE_KM K_SET_STOP (R674). -/
  | kSetStop (secured : Bool) (stream : BitVec 8) (kset : Bool) (tx : Bool)
  /-- QUERY: an IDE_KM QUERY (R674). -/
  | query (secured : Bool)
  /-- CONTAINMENT_ENTER: a host-path error of cause 1 to 4, given less one (R670). -/
  | containmentEnter (cause : Fin 4)
  /-- HW_CONT_READ: a read of HW_CONT (R672). -/
  | hwContRead (cls : Cls)
  /-- HW_CONT_RELEASE: a write of RELEASE of HW_CONT (R672). -/
  | hwContRelease (cls : Cls) (value : BitVec 3)
  /-- HW_STR_OPEN: OPEN of HW_STR_CTL is written (R658). -/
  | hwStrOpen (cls : Cls) (stream : BitVec 4)
  /-- HW_STR_CLOSE: CLOSE of HW_STR_CTL is written (R664). -/
  | hwStrClose (cls : Cls) (stream : BitVec 4)
  /-- HW_STR_ABORT: ABORT of HW_STR_CTL is written (R665). -/
  | hwStrAbort (cls : Cls) (stream : BitVec 4)
  /-- STREAM_APERTURE_WRITE: a BAR2 write of these DWs at a DW offset of the aperture of a stream; full: every byte enable is set (R660). -/
  | streamApertureWrite (stream : BitVec 4) (off : BitVec 18) (dws : List (BitVec 32)) (full : Bool)
  /-- STREAM_BURST_WRITE: a BAR2 write at a DW offset of the burst page of a stream (R660). -/
  | streamBurstWrite (stream : BitVec 4) (off : BitVec 10) (dws : List (BitVec 32)) (full : Bool) (relaxed : Bool)
  /-- STREAM_IDLE_TIMEOUT: a bound stream has been idle for 1,048,576 rows (R665). -/
  | streamIdleTimeout (stream : BitVec 4)
  /-- HW_WIN_WRITE: a write of the lower or higher word of HW_WIN (R667). -/
  | hwWinWrite (cls : Cls) (win : BitVec 4) (hi : Bool) (data : W64)
  /-- TRANSLATION_ACCESS: a BAR2 access; none is a byte whose enable is clear, and a read takes the length alone (R668). -/
  | translationAccess (off : BitVec 25) (write : Bool) (bytes : List (Option Byte))
  /-- REGISTER_WRITE: a write of size bytes at a block offset by class K, S, H or O; full: every byte enable is set (R8, R652). -/
  | registerWrite (cls : Cls) (off : BitVec 26) (size : BitVec 7) (data : Line) (full : Bool)
  /-- REGISTER_READ: a read of size bytes at a block offset (R8, R36, R652). -/
  | registerRead (cls : Cls) (off : BitVec 26) (size : BitVec 7)
  /-- SITE_PRESENT_RISE: SITE_PRESENT[site] rises (R53). -/
  | sitePresentRise (site : BitVec 5)
  /-- THERM_TRIP_RISE: THERM_TRIP_N rises past its filter (R66). -/
  | thermTripRise
  /-- PWR_WARN_RISE: PWR_WARN_N rises past its filter (R67). -/
  | pwrWarnRise
  /-- FEC_LOCK_CHANGE: a lane gains or loses FEC lock, or decodes an uncorrectable codeword (R76, R683). -/
  | fecLockChange (lane : BitVec 1) (level : FecLevel)
  /-- GY_CHALLENGE_EXPIRE: 10 s have passed since the challenge (R690). -/
  | gyChallengeExpire (session : BitVec 32)
  /-- DIG_BLOCK_ABSORBED: a core finishes a block; flip: which of the two comparators err in the compare that this ends (R307, R322). -/
  | digBlockAbsorbed (core : BitVec 3) (flip : BitVec 2)
  deriving DecidableEq, Repr

end Sys2Proof
end

