-- ==== Sys2Proof/Decode.lean ====
section
/-! DEFINITION. Words that spell commands. The opcode table of this block gives no row any bits: its commands come as register accesses,
protocol messages and pin events, so no word spells one. -/
namespace Sys2Proof

/-- The command that the word `w` of `nbits` bits spells by the table's bits: none, for every word. -/
def decodeTableWord (_nbits _w : Nat) : Option Instr := none

end Sys2Proof
end

