-- ==== Sys2Proof/Machine/Bits.lean ====
section
/-! DEFINITION. Bit-field helpers shared by every unit: reading and writing a field, packing a register from its fields,
saturating counters, byte order. Register fields are little-endian (R5); standard-defined encodings use `beBytes` (R6). -/
namespace Sys2Proof.Machine

/-- A Bool as the number its bit holds. -/
def b2n (b : Bool) : Nat := if b then 1 else 0

/-- Bit `i` of a word. -/
def bit {w : Nat} (v : BitVec w) (i : Nat) : Bool := v.getLsbD i

/-- The `n`-bit field of `v` that begins at bit `lo`. -/
def field {w : Nat} (v : BitVec w) (lo n : Nat) : BitVec n := v.extractLsb' lo n

/-- `v` with the `n`-bit field at bit `lo` replaced by `x`. -/
def putField {w : Nat} (v : BitVec w) (lo n : Nat) (x : BitVec n) : BitVec w :=
  (v &&& ~~~((BitVec.allOnes n).setWidth w <<< lo)) ||| (x.setWidth w <<< lo)

/-- `v` with bit `i` set to `b`. -/
def putBit {w : Nat} (v : BitVec w) (i : Nat) (b : Bool) : BitVec w := putField v i 1 (BitVec.ofBool b)

/-- A register value from (lowest bit, value) pairs; fields do not overlap, so their sum is the word. -/
def packN (fs : List (Nat × Nat)) : Nat := (fs.map fun f => f.2 * 2 ^ f.1).sum

/-- A 64-bit register from its fields. -/
def pack (fs : List (Nat × Nat)) : W64 := BitVec.ofNat 64 (packN fs)

/-- A saturating add, as the manual's saturating counters do. -/
def satAdd {w : Nat} (x : BitVec w) (n : Nat) : BitVec w := BitVec.ofNat w (min (x.toNat + n) (2 ^ w - 1))

/-- The `n` bytes of `v`, lowest-addressed byte first, little-endian (R5). -/
def leBytes (n : Nat) {w : Nat} (v : BitVec w) : List Byte := (List.range n).map fun i => v.extractLsb' (8 * i) 8

/-- The word that the bytes spell, little-endian (R5). -/
def ofLeBytes (w : Nat) : List Byte → BitVec w
  | [] => 0
  | b :: bs => (ofLeBytes w bs <<< 8) ||| b.setWidth w

/-- The `n` bytes of `v`, most significant byte first (R6: the order of the standards). -/
def beBytes (n : Nat) {w : Nat} (v : BitVec w) : List Byte := (leBytes n v).reverse

/-- The word that the bytes spell, most significant byte first (R6). -/
def ofBeBytes (w : Nat) (bs : List Byte) : BitVec w := ofLeBytes w bs.reverse

/-- `v` with the bytes whose mask bit is 1 replaced by those of `d`. -/
def maskBytes {w : Nat} (v d : BitVec w) (mask : Nat) : BitVec w :=
  let m : BitVec w := (List.range (w / 8)).foldl (fun a i => if mask.testBit i then a ||| ((0xFF : BitVec w) <<< (8 * i)) else a) 0
  (v &&& ~~~m) ||| (d &&& m)

/-- The bit positions set in `v`, lowest first. -/
def bitsSet {w : Nat} (v : BitVec w) : List Nat := (List.range w).filter (bit v)

/-- Number of bits set. -/
def popCount {w : Nat} (v : BitVec w) : Nat := (bitsSet v).length

/-- The word with exactly the listed bits set. -/
def ofBits (w : Nat) (l : List Nat) : BitVec w := l.foldl (fun a i => putBit a i true) 0

/-- Replace the `n`th element of a list. -/
def setNth {α : Type} (l : List α) (n : Nat) (v : α) : List α := l.set n v

end Sys2Proof.Machine
end

