-- ==== Sys2Proof/Machine/Cbor.lean ====
section
/-! DEFINITION. CBOR (RFC 8949) as far as the block judges it: the extent of one well-formed data item (section 5.3) and the strict
reading of a deterministically encoded head (section 4.2.1). -/
namespace Sys2Proof.Machine

/-- A head: major type, additional information, argument and the bytes behind it. -/
structure CborHead where
  major : Nat
  info : Nat
  arg : Nat
  rest : List Byte

/-- Where an item stops. -/
inductive CborEnd where
  | item (rest : List Byte)   -- the item ended; the bytes behind it
  | short                     -- the bytes ran out
  | bad                       -- not well formed
  deriving DecidableEq, Repr

/-- Big-endian number. -/
def beNat (bs : List Byte) : Nat := bs.foldl (fun a b => a * 256 + b.toNat) 0

/-- Bytes of the argument that follow the initial byte. -/
def cborArgBytes (info : Nat) : Nat := if info = 24 then 1 else if info = 25 then 2 else if info = 26 then 4 else if info = 27 then 8 else 0

/-- The open containers: items still expected, or an indefinite-length array, map (with parity) or string of one major type. -/
inductive CborFrame where
  | items (n : Nat)
  | indef
  | indefMap (odd : Bool)
  | chunks (major : Nat)
  deriving DecidableEq, Repr

/-- An item has ended: close the containers that it completes. -/
def cborPop : List CborFrame → List CborFrame
  | [] => []
  | .items n :: l => if n ≤ 1 then cborPop l else .items (n - 1) :: l
  | .indefMap b :: l => .indefMap (!b) :: l
  | x :: l => x :: l

/-- Scan one item; each step consumes a byte, so `fuel` is the number of bytes and one. -/
def cborScan : Nat → List CborFrame → List Byte → CborEnd
  | 0, _, _ => .short
  | _, [], bs => .item bs
  | _, _, [] => .short
  | k + 1, fr :: l, b :: bs =>
    let major := b.toNat / 32
    let info := b.toNat % 32
    let n := cborArgBytes info
    if 28 ≤ info ∧ info ≤ 30 then .bad
    else if info = 31 then
      match major, fr with
      | 7, .indef => cborScan k (cborPop l) bs
      | 7, .indefMap false => cborScan k (cborPop l) bs
      | 7, .chunks _ => cborScan k (cborPop l) bs
      | 2, .chunks _ => .bad
      | 3, .chunks _ => .bad
      | 2, _ => cborScan k (.chunks 2 :: fr :: l) bs
      | 3, _ => cborScan k (.chunks 3 :: fr :: l) bs
      | 4, .chunks _ => .bad
      | 4, _ => cborScan k (.indef :: fr :: l) bs
      | 5, .chunks _ => .bad
      | 5, _ => cborScan k (.indefMap false :: fr :: l) bs
      | _, _ => .bad
    else if (match fr with | .chunks m => decide (m ≠ major) | _ => false) then .bad
    else if bs.length < n then .short
    else
      let arg := if info < 24 then info else beNat (bs.take n)
      let bs := bs.drop n
      let done := cborPop (fr :: l)
      match major with
      | 2 | 3 =>
        if bs.length < arg then .short
        else match fr with
          | .chunks _ => cborScan k (fr :: l) (bs.drop arg)
          | _ => cborScan k done (bs.drop arg)
      | 4 => if arg = 0 then cborScan k done bs else cborScan k (.items arg :: fr :: l) bs
      | 5 => if arg = 0 then cborScan k done bs else cborScan k (.items (2 * arg) :: fr :: l) bs
      | 6 => cborScan k (.items 1 :: fr :: l) bs
      | 7 => if info = 24 ∧ arg < 32 then .bad else cborScan k done bs
      | _ => cborScan k done bs

/-- The extent of the first item of `bs`. -/
def cborItem (bs : List Byte) : CborEnd := cborScan (bs.length + 1) [.items 1] bs

/-- A head with its argument in the shortest form and no indefinite length. -/
def cborHead : List Byte → Option CborHead
  | [] => none
  | b :: bs =>
    let info := b.toNat % 32
    let n := cborArgBytes info
    if 28 ≤ info ∨ bs.length < n then none
    else
      let arg := if info < 24 then info else beNat (bs.take n)
      let shortest := info < 24 || (if n = 1 then 24 ≤ arg else if n = 2 then 256 ≤ arg else if n = 4 then 65536 ≤ arg else 4294967296 ≤ arg)
      if shortest then some { major := b.toNat / 32, info := info, arg := arg, rest := bs.drop n } else none

/-- A head of the given major type. -/
def cborOf (major : Nat) (bs : List Byte) : Option (Nat × List Byte) :=
  match cborHead bs with
  | some h => if h.major = major then some (h.arg, h.rest) else none
  | none => none

/-- An unsigned integer. -/
def cborUint (bs : List Byte) : Option (Nat × List Byte) := cborOf 0 bs
/-- A byte string. -/
def cborBytes (bs : List Byte) : Option (List Byte × List Byte) :=
  match cborOf 2 bs with
  | some (n, r) => if r.length < n then none else some (r.take n, r.drop n)
  | none => none
/-- The given small key, then its value's bytes. -/
def cborKey (k : Nat) (bs : List Byte) : Option (List Byte) :=
  match cborUint bs with
  | some (n, r) => if n = k then some r else none
  | none => none

/-- The shortest head of a major type. -/
def cborEnc (major arg : Nat) : List Byte :=
  let h (i : Nat) : Byte := BitVec.ofNat 8 (32 * major + i)
  if arg < 24 then [h arg]
  else if arg < 256 then h 24 :: beBytes 1 (BitVec.ofNat 8 arg)
  else if arg < 65536 then h 25 :: beBytes 2 (BitVec.ofNat 16 arg)
  else if arg < 4294967296 then h 26 :: beBytes 4 (BitVec.ofNat 32 arg)
  else h 27 :: beBytes 8 (BitVec.ofNat 64 arg)

end Sys2Proof.Machine
end

