-- ==== Sys2Proof/Machine/Crypto.lean ====
section
/-! DEFINITION. The standard algorithms of the engines, written from the standards the manual names: AES-256 and GCM (SP 800-38D), SHA-2,
SHA-3, SHAKE and KMAC (SP 800-185). Blocks hold byte `j` in bits `8j+7:8j` (R134); digests are byte strings (R6). -/
namespace Sys2Proof.Machine

/-! ### AES-256 -/

/-- The S-box, byte `i` at bits `8i+7:8i`. -/
def sboxTable : BitVec 2048 := 0x16bb54b00f2d99416842e6bf0d89a18cdf2855cee9871e9b948ed9691198f8e19e1dc186b95735610ef6034866b53e708a8bbd4b1f74dde8c6b4a61c2e2578ba08ae7a65eaf4566ca94ed58d6d37c8e779e4959162acd3c25c2406490a3a32e0db0b5ede14b8ee4688902a22dc4f816073195d643d7ea7c41744975fec130ccdd2f3ff1021dab6bcf5389d928f40a351a89f3c507f02f94585334d43fbaaefd0cf584c4a39becb6a5bb1fc20ed00d153842fe329b3d63b52a05a6e1b1a2c830975b227ebe28012079a059618c323c7041531d871f1e5a534ccf73f362693fdb7c072a49cafa2d4adf04759fa7dc982ca76abd7fe2b670130c56f6bf27b777c63

def sbox (b : Byte) : Byte := field sboxTable (8 * b.toNat) 8
def xtime (b : Byte) : Byte := (b <<< 1) ^^^ (if bit b 7 then 0x1B else 0)

/-- A column of the cipher state or a word of the key schedule, byte 0 first. -/
structure Col where
  a : Byte
  b : Byte
  c : Byte
  d : Byte

def Col.xor (x y : Col) : Col := ⟨x.a ^^^ y.a, x.b ^^^ y.b, x.c ^^^ y.c, x.d ^^^ y.d⟩
def Col.sub (x : Col) : Col := ⟨sbox x.a, sbox x.b, sbox x.c, sbox x.d⟩
def Col.rot (x : Col) : Col := ⟨x.b, x.c, x.d, x.a⟩
def Col.mix (x : Col) : Col :=
  let t := x.a ^^^ x.b ^^^ x.c ^^^ x.d
  ⟨x.a ^^^ t ^^^ xtime (x.a ^^^ x.b), x.b ^^^ t ^^^ xtime (x.b ^^^ x.c), x.c ^^^ t ^^^ xtime (x.c ^^^ x.d), x.d ^^^ t ^^^ xtime (x.d ^^^ x.a)⟩

def colAt {w : Nat} (v : BitVec w) (i : Nat) : Col := ⟨field v (32 * i) 8, field v (32 * i + 8) 8, field v (32 * i + 16) 8, field v (32 * i + 24) 8⟩

/-- The cipher state: four columns. -/
structure Blk where
  c0 : Col
  c1 : Col
  c2 : Col
  c3 : Col

def Blk.ofBits (v : W128) : Blk := ⟨colAt v 0, colAt v 1, colAt v 2, colAt v 3⟩
def Blk.toBits (x : Blk) : W128 :=
  ofLeBytes 128 [x.c0.a, x.c0.b, x.c0.c, x.c0.d, x.c1.a, x.c1.b, x.c1.c, x.c1.d, x.c2.a, x.c2.b, x.c2.c, x.c2.d, x.c3.a, x.c3.b, x.c3.c, x.c3.d]
def Blk.xor (x y : Blk) : Blk := ⟨x.c0.xor y.c0, x.c1.xor y.c1, x.c2.xor y.c2, x.c3.xor y.c3⟩
def Blk.subShift (x : Blk) : Blk :=
  ⟨⟨sbox x.c0.a, sbox x.c1.b, sbox x.c2.c, sbox x.c3.d⟩, ⟨sbox x.c1.a, sbox x.c2.b, sbox x.c3.c, sbox x.c0.d⟩,
   ⟨sbox x.c2.a, sbox x.c3.b, sbox x.c0.c, sbox x.c1.d⟩, ⟨sbox x.c3.a, sbox x.c0.b, sbox x.c1.c, sbox x.c2.d⟩⟩
def Blk.mix (x : Blk) : Blk := ⟨x.c0.mix, x.c1.mix, x.c2.mix, x.c3.mix⟩

/-- The next round key pair's halves: 128 bits from the two preceding ones, with or without the rotation and constant. -/
def nextKey (prev last : Blk) (rcon : Option Byte) : Blk :=
  let t := match rcon with
    | some r => let u := last.c3.rot.sub; ⟨u.a ^^^ r, u.b, u.c, u.d⟩
    | none => last.c3.sub
  let k0 := prev.c0.xor t
  let k1 := prev.c1.xor k0
  let k2 := prev.c2.xor k1
  ⟨k0, k1, k2, prev.c3.xor k2⟩

/-- The rounds after the first key addition: `n` double rounds remain before the last. -/
def aesRounds : Nat → Byte → Blk → Blk → Blk → Blk
  | 0, _, _, k1, x => x.subShift.xor k1
  | n + 1, r, k0, k1, x =>
    let x := (x.subShift.mix).xor k1
    let k2 := nextKey k0 k1 (some r)
    if n = 0 then x.subShift.xor k2
    else
      let x := (x.subShift.mix).xor k2
      let k3 := nextKey k1 k2 none
      aesRounds n (xtime r) k2 k3 x

/-- AES-256 encryption of one block; key and block hold byte `j` in bits `8j+7:8j`. -/
def aes256 (key : Key256) (v : W128) : W128 :=
  let k0 := Blk.ofBits (field key 0 128)
  let k1 := Blk.ofBits (field key 128 128)
  (aesRounds 7 1 k0 k1 ((Blk.ofBits v).xor k0)).toBits

/-! ### GHASH and GCM (SP 800-38D) -/

/-- A block with its byte order reversed. -/
def swap128 (v : W128) : W128 := ofBeBytes 128 (leBytes 16 v)

/-- Multiplication in GCM's field on big-endian blocks. -/
def gfMul (x y : W128) : W128 :=
  ((List.range 128).foldl (fun (p : W128 × W128) i =>
    (if bit x (127 - i) then p.1 ^^^ p.2 else p.1, (p.2 >>> 1) ^^^ (if bit p.2 0 then 0xE1000000000000000000000000000000 else 0))) (0, y)).1

/-- GHASH of whole blocks under `h`; blocks and result hold byte `j` in bits `8j+7:8j`. -/
def ghash (h : W128) (bs : List W128) : W128 :=
  swap128 (bs.foldl (fun y b => gfMul (y ^^^ swap128 b) (swap128 h)) 0)

/-- Bytes cut into 16-byte blocks, the last padded with zeros. -/
def blocks16 : Nat → List Byte → List W128
  | 0, _ => []
  | _, [] => []
  | n + 1, bs => ofLeBytes 128 (bs.take 16) :: blocks16 n (bs.drop 16)

/-- The counter block of a 96-bit IV (12 bytes) with counter `c`. -/
def gcmCtr (iv : List Byte) (c : Nat) : W128 := ofLeBytes 128 (iv.take 12 ++ beBytes 4 (BitVec.ofNat 32 c))

/-- The GCM tag over additional data and ciphertext. -/
def gcmTag (key : Key256) (iv aad ct : List Byte) : W128 :=
  let h := aes256 key 0
  let len : List Byte := beBytes 8 (BitVec.ofNat 64 (8 * aad.length)) ++ beBytes 8 (BitVec.ofNat 64 (8 * ct.length))
  ghash h (blocks16 aad.length aad ++ blocks16 ct.length ct ++ [ofLeBytes 128 len]) ^^^ aes256 key (gcmCtr iv 1)

/-- AES-256 counter mode from counter `c`, as GCM encrypts and decrypts. -/
def gcmCrypt (key : Key256) (iv : List Byte) : Nat → Nat → List Byte → List Byte
  | 0, _, _ => []
  | _, _, [] => []
  | n + 1, c, bs =>
    let k := leBytes 16 (aes256 key (gcmCtr iv c))
    (List.zipWith (· ^^^ ·) (bs.take 16) k) ++ gcmCrypt key iv n (c + 1) (bs.drop 16)

/-- AES-256-GCM sealing: ciphertext and tag. -/
def gcmSeal (key : Key256) (iv aad pt : List Byte) : List Byte × W128 :=
  let ct := gcmCrypt key iv pt.length 2 pt
  (ct, gcmTag key iv aad ct)

/-- AES-256-GCM opening: the plaintext when the tag verifies. -/
def gcmOpen (key : Key256) (iv aad ct : List Byte) (tag : W128) : Option (List Byte) :=
  if gcmTag key iv aad ct = tag then some (gcmCrypt key iv ct.length 2 ct) else none

/-! ### SHA-2 (FIPS 180-4) -/

def k256 : BitVec 2048 := 0xc67178f2bef9a3f7a4506ceb90befffa8cc7020884c8781478a5636f748f82ee682e6ff35b9cca4f4ed8aa4a391c0cb334b0bcb52748774c1e376c0819a4c116106aa070f40e3585d6990624d192e819c76c51a3c24b8b70a81a664ba2bfe8a192722c8581c2c92e766a0abb650a735453380d134d2c6dfc2e1b213827b70a851429296706ca6351d5a79147c6e00bf3bf597fc7b00327c8a831c66d983e515276f988da5cb0a9dc4a7484aa2de92c6f240ca1cc0fc19dc6efbe4786e49b69c1c19bf1749bdc06a780deb1fe72be5d74550c7dc3243185be12835b01d807aa98ab1c5ed5923f82a459f111f13956c25be9b5dba5b5c0fbcf71374491428a2f98
def k512 : BitVec 5120 := 0x6c44198c4a4758175fcb6fab3ad6faec597f299cfc657e2a4cc5d4becb3e42b6431d67c49c100d4c3c9ebe0a15c9bebc32caab7b40c7249328db77f523047d841b710b35131c471b113f9804bef90dae0a637dc5a2c898a606f067aa72176fbaf57d4f7fee6ed178eada7dd6cde0eb1ed186b8c721c0c207ca273eceea26619cc67178f2e372532bbef9a3f7b2c67915a4506cebde82bde990befffa23631e288cc702081a6439ec84c87814a1f0ab7278a5636f43172f60748f82ee5defb2fc682e6ff3d6b2b8a35b9cca4f7763e3734ed8aa4ae3418acb391c0cb3c5c95a6334b0bcb5e19b48a82748774cdf8eeb991e376c085141ab5319a4c116b8d2d0c8106aa07032bbd1b8f40e35855771202ad69906245565a910d192e819d6ef5218c76c51a30654be30c24b8b70d0f89791a81a664bbc423001a2bfe8a14cf1036492722c851482353b81c2c92e47edaee6766a0abb3c77b2a8650a73548baf63de53380d139d95b3df4d2c6dfc5ac42aed2e1b21385c26c92627b70a8546d22ffc142929670a0e6e7006ca6351e003826fd5a79147930aa725c6e00bf33da88fc2bf597fc7beef0ee4b00327c898fb213fa831c66d2db43210983e5152ee66dfab76f988da831153b55cb0a9dcbd41fbd44a7484aa6ea6e4832de92c6f592b0275240ca1cc77ac9c650fc19dc68b8cd5b5efbe4786384f25e3e49b69c19ef14ad2c19bf174cf6926949bdc06a725c7123580deb1fe3b1696b172be5d74f27b896f550c7dc3d5ffb4e2243185be4ee4b28c12835b0145706fbed807aa98a3030242ab1c5ed5da6d8118923f82a4af194f9b59f111f1b605d0193956c25bf348b538e9b5dba58189dbbcb5c0fbcfec4d3b2f7137449123ef65cd428a2f98d728ae22
def iv256 : List (BitVec 32) := [0x6a09e667, 0xbb67ae85, 0x3c6ef372, 0xa54ff53a, 0x510e527f, 0x9b05688c, 0x1f83d9ab, 0x5be0cd19]
def iv512 : List W64 := [0x6a09e667f3bcc908, 0xbb67ae8584caa73b, 0x3c6ef372fe94f82b, 0xa54ff53a5f1d36f1, 0x510e527fade682d1, 0x9b05688c2b3e6c1f, 0x1f83d9abfb41bd6b, 0x5be0cd19137e2179]
def iv384 : List W64 := [0xcbbb9d5dc1059ed8, 0x629a292a367cd507, 0x9159015a3070dd17, 0x152fecd8f70e5939, 0x67332667ffc00b31, 0x8eb44a8768581511, 0xdb0c2e0d64f98fa7, 0x47b5481dbefa4fa4]

/-- One compression with round constants `k`, rotation amounts and word width given. -/
def sha2Block {w : Nat} (rounds : Nat) (k : Nat → BitVec w) (s0 s1 : BitVec w → BitVec w) (b0 b1 : BitVec w → BitVec w)
    (h : List (BitVec w)) (m : List (BitVec w)) : List (BitVec w) :=
  let sched (n : Nat) : List (BitVec w) :=
    (List.range n).foldl (fun (l : List (BitVec w)) _ => -- newest word first
      (s1 (l.getD 1 0) + l.getD 6 0 + s0 (l.getD 14 0) + l.getD 15 0) :: l) m.reverse
  let ws := (sched (rounds - 16)).reverse
  let st := (List.range rounds).zip ws |>.foldl (fun (v : List (BitVec w)) (iw : Nat × BitVec w) =>
    match v with
    | [a, b, c, d, e, f, g, hh] =>
      let t1 := hh + b1 e + ((e &&& f) ^^^ (~~~e &&& g)) + k iw.1 + iw.2
      let t2 := b0 a + ((a &&& b) ^^^ (a &&& c) ^^^ (b &&& c))
      [t1 + t2, a, b, c, d + t1, e, f, g]
    | _ => v) h
  List.zipWith (· + ·) h st

def sha256Block (h : List (BitVec 32)) (m : List (BitVec 32)) : List (BitVec 32) :=
  sha2Block 64 (fun i => field k256 (32 * i) 32)
    (fun x => x.rotateRight 7 ^^^ x.rotateRight 18 ^^^ (x >>> 3)) (fun x => x.rotateRight 17 ^^^ x.rotateRight 19 ^^^ (x >>> 10))
    (fun x => x.rotateRight 2 ^^^ x.rotateRight 13 ^^^ x.rotateRight 22) (fun x => x.rotateRight 6 ^^^ x.rotateRight 11 ^^^ x.rotateRight 25) h m

def sha512Block (h : List W64) (m : List W64) : List W64 :=
  sha2Block 80 (fun i => field k512 (64 * i) 64)
    (fun x => x.rotateRight 1 ^^^ x.rotateRight 8 ^^^ (x >>> 7)) (fun x => x.rotateRight 19 ^^^ x.rotateRight 61 ^^^ (x >>> 6))
    (fun x => x.rotateRight 28 ^^^ x.rotateRight 34 ^^^ x.rotateRight 39) (fun x => x.rotateRight 14 ^^^ x.rotateRight 18 ^^^ x.rotateRight 41) h m

/-- Bytes cut into big-endian words of `n` bytes. -/
def beWords (w n : Nat) : Nat → List Byte → List (BitVec w)
  | 0, _ => []
  | _, [] => []
  | k + 1, bs => ofBeBytes w (bs.take n) :: beWords w n k (bs.drop n)

/-- Absorb whole blocks of `n` bytes. -/
def absorb {σ : Type} (n : Nat) (f : σ → List Byte → σ) : Nat → σ → List Byte → σ
  | 0, st, _ => st
  | k + 1, st, bs => if bs.isEmpty then st else absorb n f k (f st (bs.take n)) (bs.drop n)

/-- The padding of SHA-2: one 1 bit, zeros, the bit length in `lenBytes` bytes. -/
def sha2Pad (block lenBytes n : Nat) : List Byte :=
  0x80 :: List.replicate ((2 * block - 1 - lenBytes - n % block) % block) 0 ++ beBytes lenBytes (BitVec.ofNat 128 (8 * n))

def sha256 (m : List Byte) : List Byte :=
  let p := m ++ sha2Pad 64 8 m.length
  (absorb 64 (fun h b => sha256Block h (beWords 32 4 16 b)) (p.length / 64) iv256 p).flatMap (beBytes 4)

def sha512From (iv : List W64) (m : List Byte) : List Byte :=
  let p := m ++ sha2Pad 128 16 m.length
  (absorb 128 (fun h b => sha512Block h (beWords 64 8 16 b)) (p.length / 128) iv p).flatMap (beBytes 8)

def sha512 (m : List Byte) : List Byte := sha512From iv512 m
def sha384 (m : List Byte) : List Byte := (sha512From iv384 m).take 48

/-! ### SHA-3, SHAKE, KMAC (FIPS 202, SP 800-185) -/

def keccakRC : BitVec 1536 := 0x8000000080008008000000008000000180000000000080808000000080008081800000008000000a000000000000800a8000000000000080800000000000800280000000000080038000000000008089800000000000008b000000008000808b000000008000000a00000000800080090000000000000088000000000000008a800000000000800980000000800080810000000080000001000000000000808b8000000080008000800000000000808a00000000000080820000000000000001
/-- Rotation offsets, lane x + 5y. -/
def keccakRot : List Nat := [0, 1, 62, 28, 27, 36, 44, 6, 55, 20, 3, 10, 43, 25, 39, 41, 45, 15, 21, 8, 18, 2, 61, 56, 14]

/-- One round of Keccak-f[1600] on 25 lanes, lane x + 5y. -/
def keccakRound (a : List W64) (rc : W64) : List W64 :=
  let l (a : List W64) (x y : Nat) : W64 := a.getD (x % 5 + 5 * (y % 5)) 0
  let c (x : Nat) : W64 := l a x 0 ^^^ l a x 1 ^^^ l a x 2 ^^^ l a x 3 ^^^ l a x 4
  let d := (List.range 5).map fun x => c (x + 4) ^^^ (c (x + 1)).rotateLeft 1
  let a := (List.range 25).map fun i => a.getD i 0 ^^^ d.getD (i % 5) 0
  -- rho and pi: B[y, 2x + 3y] = rot(A[x, y])
  let b := (List.range 25).map fun i =>
    let x := i % 5; let y := i / 5          -- destination (x, y) comes from source (x + 3y, x)
    let sx := (x + 3 * y) % 5
    (l a sx x).rotateLeft (keccakRot.getD (sx + 5 * x) 0)
  (List.range 25).map fun i =>
    let x := i % 5; let y := i / 5
    let v := l b x y ^^^ (~~~(l b (x + 1) y) &&& l b (x + 2) y)
    if i = 0 then v ^^^ rc else v

def keccakF (a : List W64) : List W64 := (List.range 24).foldl (fun a i => keccakRound a (field keccakRC (64 * i) 64)) a

/-- XOR a block of bytes into the lanes. -/
def keccakXor (a : List W64) (b : List Byte) : List W64 :=
  (List.range 25).map fun i => a.getD i 0 ^^^ ofLeBytes 64 ((b.drop (8 * i)).take 8)

def keccakAbsorb (rate : Nat) (m : List Byte) : List W64 :=
  absorb rate (fun a b => keccakF (keccakXor a b)) (m.length / rate + 1) (List.replicate 25 0) m

/-- Squeeze `n` bytes; `k` bounds the permutations. -/
def keccakSqueeze (rate : Nat) : Nat → Nat → List W64 → List Byte
  | 0, _, _ => []
  | k + 1, n, a =>
    let o := (a.flatMap (leBytes 8)).take rate
    if n ≤ rate then o.take n else o ++ keccakSqueeze rate k (n - rate) (keccakF a)

/-- The sponge padding with domain byte `ds` for a message of `n` bytes. -/
def keccakPad (rate n : Nat) (ds : Byte) : List Byte :=
  let k := rate - n % rate
  if k = 1 then [ds ||| 0x80] else ds :: List.replicate (k - 2) 0 ++ [0x80]

def sponge (rate : Nat) (ds : Byte) (m : List Byte) (n : Nat) : List Byte :=
  keccakSqueeze rate (n / rate + 1) n (keccakAbsorb rate (m ++ keccakPad rate m.length ds))

def sha3_256 (m : List Byte) : List Byte := sponge 136 0x06 m 32
def sha3_384 (m : List Byte) : List Byte := sponge 104 0x06 m 48
def sha3_512 (m : List Byte) : List Byte := sponge 72 0x06 m 64
def shake128 (m : List Byte) (n : Nat) : List Byte := sponge 168 0x1F m n
def shake256 (m : List Byte) (n : Nat) : List Byte := sponge 136 0x1F m n

/-- The bytes of a number, big-endian, at least one (SP 800-185 section 2.3.1). -/
def encBytes (x : Nat) : List Byte :=
  let n := if x < 256 then 1 else if x < 65536 then 2 else if x < 2 ^ 24 then 3 else if x < 2 ^ 32 then 4 else if x < 2 ^ 40 then 5 else if x < 2 ^ 48 then 6 else if x < 2 ^ 56 then 7 else 8
  beBytes n (BitVec.ofNat 64 x)
def leftEncode (x : Nat) : List Byte := let b := encBytes x; BitVec.ofNat 8 b.length :: b
def rightEncode (x : Nat) : List Byte := let b := encBytes x; b ++ [BitVec.ofNat 8 b.length]
def encodeString (s : List Byte) : List Byte := leftEncode (8 * s.length) ++ s
/-- bytepad (SP 800-185 section 2.3.3). -/
def bytepad (x : List Byte) (w : Nat) : List Byte :=
  let z := leftEncode w ++ x
  z ++ List.replicate ((w - z.length % w) % w) 0

/-- The prefix that cSHAKE and KMAC of `rate` absorb before the message, and the key of KMAC. -/
def kmacHead (rate : Nat) (custom key : List Byte) : List Byte :=
  bytepad (encodeString [0x4B, 0x4D, 0x41, 0x43] ++ encodeString custom) rate ++ bytepad (encodeString key) rate

/-- KMAC256 with an output of `n` bytes. -/
def kmac256 (key m : List Byte) (n : Nat) (custom : List Byte) : List Byte :=
  sponge 136 0x04 (kmacHead 136 custom key ++ m ++ rightEncode (8 * n)) n
/-- KMAC128 with an output of `n` bytes. -/
def kmac128 (key m : List Byte) (n : Nat) (custom : List Byte) : List Byte :=
  sponge 168 0x04 (kmacHead 168 custom key ++ m ++ rightEncode (8 * n)) n

/-- An ASCII string as bytes. -/
def ascii (s : String) : List Byte := s.toList.map fun c => BitVec.ofNat 8 c.toNat

end Sys2Proof.Machine
end

