-- ==== Sys2Proof/Config.lean ====
section
/-! DEFINITION. What an implementation fixes: the synthesis parameters of R3 at their reference values, and the free values, which
the manual leaves open and nothing here can evaluate. -/
namespace Sys2Proof.Config

/-- Memory guard slices (R3, reference configuration). -/
def slices : Nat := 64
/-- Sideband attachment on every slice (R3, reference configuration). -/
def carveOut : BitVec 64 := 0
/-- Caldera capacity in GiB (R3, reference configuration). -/
def calderaGiB : Nat := 4
/-- Protected scale-out lanes (R3, reference configuration). -/
def lanes : Nat := 32
/-- Knots (R3, reference configuration). -/
def knots : Nat := 65536
/-- Chiplet sites (R3, reference configuration). -/
def sites : Nat := 24
/-- Sensors on the sensor bus (R3, reference configuration). -/
def sensors : Nat := 256
/-- Power regions (R3, reference configuration). -/
def regions : Nat := 64
/-- Replay-protected coverage in GiB (R4). -/
def coverageGiB : Nat := (calderaGiB - 1) * 64

/-- The CODE of an internal report of class `cls` for which no chapter names a status code (log entry 11). -/
opaque reportCode (cls : Nat) : BitVec 16

/-- A free value: the `n`-th value that the manual leaves open. Nothing constrains it (log entry 10). -/
opaque free (n : Nat) (w : Nat) : BitVec w

/-- P0 (word 0) or P1 (word 1) of an event whose contents a rule names and neither places nor codes (log entry 14). -/
opaque eventWord (code : BitVec 32) (word : Nat) (items : List Nat) : BitVec 64

/-- The 4-bit code of a test class A to D (0 to 3) in RESULT[7:4], which no rule gives (log entry 21). -/
opaque testClass (cls : Nat) : BitVec 4
/-- The slice whose channel holds a page: the integrator's address map (log entry 22). -/
opaque sliceOf (page : Nat) : Nat

/-- Default trim of an OTP TRIM word in the cast-on ROM (R376). -/
opaque romTrim (word : Nat) : BitVec 32
/-- The calibration offset of a sensor in TRIM words 0x080 to 0x09F, whose layout no rule gives (R372, R575). -/
opaque trimOffset (words : List (BitVec 32)) (sensor : Nat) : BitVec 12

/-- What the shipped row-program image holds and no rule gives (R575 to R589, log entry 49): the stitches of its bank 0, the row-memory addresses
of its tensors' tiles (0 W1, 1 W2, 2 B1, 3 B2; 4 the operator-kind table) and the shift of its TRQ. -/
opaque shippedProgram : List (BitVec 256)
/-- The issue count and calibration range (first stitch, count) of its bank header (R559, R564; log entry 49). -/
opaque shippedIssue : Nat × Nat × Nat
opaque shipTile (tensor i j : Nat) : Nat
opaque shipShift : Nat
/-- A quantity of the shipped program that no rule states: kind `k` for region, site or part `n` in row `row` (log entry 49). -/
opaque shipOpen (k n row : Nat) : Int
/-- What the sites of region `r` contribute to a delta of snapshot word `w` that counts no single site (R580). -/
opaque shipShare (w r delta : Nat) : Int

/-- Flash size in MiB: the reference 1 Gbit device (13, Flash layout). -/
def flashMiB : Nat := 128
/-- TSE_MS and TPP_US as the device's SFDP gives them (FL_CFG). -/
opaque flashTse : BitVec 16
opaque flashTpp : BitVec 16
/-- The opcodes that the device's SFDP table names for a read (1), a page program (2) and a sector erase (3) in 8D-8D-8D mode (R59). -/
opaque sfdpOpcode (op : Nat) : BitVec 8
/-- Write format, lowest readable format and translation of the configuration record, which belong to Steward firmware (R447). -/
opaque cfgFormat : Nat
opaque cfgLowest : Nat
opaque cfgTranslate (fmt : Nat) (payload : List Byte) : List Byte
/-- The cast-on ROM, 256 KiB (R287). -/
opaque rom : List Byte

/-- STRIDE of the discovery table's entry of a unit with one instance, and the table beyond its last entry (R655 gives neither). -/
opaque soleStride (unit : Nat) : BitVec 24
opaque discoveryTail (i : Nat) : BitVec 8

/-- What the payload of a certificate record holds, whose layout no rule gives (log entry 32); an empty list of bytes stands for none. -/
structure CertRecord where
  device : List Byte                  -- DeviceID certificate, DER
  ca : List Byte                      -- manufacturing CA certificate, DER
  root : List Byte                    -- vendor root certificate, DER
  siteRoots : List (List Byte)        -- chiplet-root list: hashes of root SubjectPublicKeyInfo
  signer : List Byte × List Byte      -- its signer's P-384 and ML-DSA-87 public keys
  sigP : List Byte
  sigM : List Byte
  deriving Inhabited
opaque certRecord (payload : List Byte) : CertRecord
/-- The notBefore element of an Alias certificate issued while the store holds no DeviceID certificate. -/
opaque aliasFrom : List Byte

/-- What no rule gives of the block's own SPDM capabilities: as requester CTExponent (0) and flags (1), as responder CTExponent (2),
DataTransferSize (3) and MaxSPDMmsgSize (4) (log entry 33). -/
opaque spdmOwn (i w : Nat) : BitVec w

/-- A requester's proof of its own key, as the FINISH of a mutually authenticated session carries it. -/
structure SpdmProof where
  alg : Nat               -- bit of ReqBaseAsymAlg
  key : List Byte
  signed : List Byte      -- what the signature is made over
  sig : List Byte
  deriving Inhabited
/-- The proof that a message carries behind the messages so far, none for any other message. -/
opaque spdmProof (sent : List (List Byte)) (msg : List Byte) : Option SpdmProof
/-- What the signature of a KEY_EXCHANGE answer is made over, from the messages so far, the certificate chain and the randomness drawn. -/
opaque spdmKeyShare (sent : List (List Byte)) (chain rnd msg : List Byte) : List Byte
/-- The answer to a request of a session or in pieces, and the exchange of keys, from the messages so far, the randomness drawn and the signature. -/
opaque spdmAnswer (sent : List (List Byte)) (rnd sig msg : List Byte) : List Byte
/-- The measurement summary that a CHALLENGE asks for, from its type and the blocks' bytes. -/
opaque spdmSummary (type : Byte) (record : List Byte) : List Byte

end Sys2Proof.Config
end

