-- ==== Sys2Proof/Machine/Sparse.lean ====
section
/-! DEFINITION. Sparse storage: a list of (key, value) pairs in one canonical form, keys strictly rising and no value equal to
the default that an unlisted key reads as. Every array of the block (SRAM, flash, OTP words, page records, knots, queues) is held so. -/
namespace Sys2Proof.Machine

/-- Sparse storage over a type with a default held by its user. -/
abbrev SMap (α : Type) := List (Nat × α)

/-- The value at key `k`, `d` when the key is not listed. -/
def SMap.get {α : Type} (d : α) : SMap α → Nat → α
  | [], _ => d
  | (j, v) :: m, k => if k = j then v else SMap.get d m k

/-- Insert or replace at the rising position, without regard to the default. -/
def SMap.put {α : Type} : SMap α → Nat → α → SMap α
  | [], k, v => [(k, v)]
  | (j, u) :: m, k, v =>
    if k < j then (k, v) :: (j, u) :: m
    else if k = j then (k, v) :: m
    else (j, u) :: SMap.put m k v

/-- Remove key `k`. -/
def SMap.del {α : Type} (m : SMap α) (k : Nat) : SMap α := m.filter fun e => e.1 ≠ k

/-- Write `v` at `k`; writing the default removes the entry. -/
def SMap.set {α : Type} [DecidableEq α] (d : α) (m : SMap α) (k : Nat) (v : α) : SMap α :=
  if v = d then SMap.del m k else SMap.put m k v

/-- The keys rise strictly from above `lo`, and no value is the default. -/
def SMap.wfFrom {α : Type} [DecidableEq α] (d : α) : Option Nat → SMap α → Bool
  | _, [] => true
  | lo, (k, v) :: m => (match lo with | none => true | some l => decide (l < k)) && decide (v ≠ d) && SMap.wfFrom d (some k) m

/-- The canonical form. -/
def SMap.wf {α : Type} [DecidableEq α] (d : α) (m : SMap α) : Bool := SMap.wfFrom d none m

/-- Apply `f` to every listed entry, dropping those that become the default. -/
def SMap.mapVals {α : Type} [DecidableEq α] (d : α) (m : SMap α) (f : Nat → α → α) : SMap α :=
  (m.map fun e => (e.1, f e.1 e.2)).filter fun e => e.2 ≠ d

/-- Byte storage (SRAM, flash): unlisted bytes read as the given value. -/
abbrev Mem := List (Nat × Byte)

/-- `n` bytes from address `a`. -/
def Mem.read (d : Byte) (m : Mem) (a n : Nat) : List Byte := (List.range n).map fun i => SMap.get d m (a + i)

/-- Write the bytes from address `a` upward. -/
def Mem.write (d : Byte) : Mem → Nat → List Byte → Mem
  | m, _, [] => m
  | m, a, b :: bs => Mem.write d (SMap.set d m a b) (a + 1) bs

/-- The canonical form of byte storage over its default. -/
def Memory.wf (d : Byte) (m : Mem) : Bool := SMap.wf d m

end Sys2Proof.Machine
end

