-- ==== Sys2Proof/Machine/State.lean ====
section
/-! DEFINITION. The machine's state: every register, FIFO, buffer, table and pin the manual gives the block, as plain data, with
its reset value; the queue of waiting commands; the closed types of faults and refusals. -/
namespace Sys2Proof.Machine

/-- Why the machine stops. No command of this block stops it: the type has one constructor, kept for a step that would find its own
bookkeeping broken; no meaning raises it. Safe. -/
inductive Fault where
  /-- Raised by nothing. Safe. -/
  | internal
  deriving DecidableEq, Repr

/-- Why a command has no meaning. -/
inductive Refusal where
  /-- Raised only by an arm of exec whose command has no meaning yet. Safe. -/
  | notModelled (mnemonic : String)
  deriving DecidableEq, Repr

/-- The RESP field of a hub NoC response (02, response table). -/
inductive Resp where
  | ok | retry | staleEpoch | memIntegrity | refused | frozen
  deriving DecidableEq, Repr

/-- The unit and operation that a request of the block's own serves (R38, R39): which continuation its response runs. -/
inductive Purpose where
  | cmd (tag : Tag)             -- a command of the command processor
  | wgSource (ctx : Nat)        -- a manifest or chunk read of an ingest context (R201, R205)
  | wgDest (ctx : Nat)          -- a destination query of an ingest context (R204)
  | wgLine (ctx : Nat)          -- a plaintext line written by an ingest context (R205)
  | wgZero (ctx : Nat)          -- a rollback zero write (R210)
  | dump                        -- a read or write of the dump engine (R621)
  | keeper                      -- a report or bundle of Keeper in plain memory (R483)
  | gyReport                    -- Steward reads a report back for the operator (R695)
  | host                        -- a plain access through a translation window (R668)
  | abandoned                   -- its user ended; the response is only accepted (R39)
  | save (tag : Tag)            -- a line of a command's plain destination, read before the command writes there (R97)
  | restore                     -- the earlier contents of such a line, written back (R97)
  deriving DecidableEq, Repr

/-- One outstanding request of the block on the hub NoC, with the response once it has arrived. SRC_SITE is 31 (R44). -/
structure OwnReq where
  txid : BitVec 12
  purpose : Purpose
  op : BitVec 4                       -- 0 READ_LINE, 1 WRITE_LINE, 2 WRITE_MASKED, 3 ZERO_QUERY
  addr : Addr
  dom : Dom
  epoch : Epoch
  mask : BitVec 64                    -- BMASK of a WRITE_MASKED, else all ones
  data : Line
  answer : Option (Resp × Line) := none
  code : Status := 0                  -- the class 0x05 code of a response other than OK (R167)
  sent : Bool := false                -- issued: it holds a transaction identifier until it is answered
  tries : Nat := 0                    -- reissues so far (R209)
  asleep : Bool := false              -- answered RETRY, waiting for its reissue
  since : W64 := 0                    -- TIMEBASE of that RETRY
  behind : Bool := false              -- not to be sent yet: a write behind the reads of its destination, a restore behind the write it undoes
  deriving DecidableEq, Repr

/-- An answer to an IDE_KM message (R674, R675). -/
inductive IdeReply where
  | kpAck             -- KP_ACK, successful
  | unsupported       -- KP_ACK, Unsupported Value
  | noSlot            -- KP_ACK of a key for which Keeper finds no Skein slot
  | goStopAck
  | queryResp
  deriving DecidableEq, Repr

/-- What the block sends out of itself; the state keeps them oldest first, as the record of what the environment has been sent. -/
inductive Output where
  | nocResp (txid : BitVec 12) (resp : Resp) (data : Line)                  -- response on the block port or a slice port
  | nocReq (r : OwnReq)                                                     -- a request of the block's own
  | ctlZero (page : Nat)                                                     -- the zero writes of a physical scrub pass: 64 lines, and a carve-out slice's 8 MAC lines (R185)
  | snoopMiss                                                               -- clean miss without data (R40)
  | ctlRead (slice : Nat) (space : Bool) (rid : BitVec 8) (line : Nat)                   -- read issued to an HBM controller
  | ctlWrite (slice : Nat) (space : Bool) (line : Nat) (data : Line) (side : W64)          -- write issued to an HBM controller
  | regData (value : BitVec 512)                                            -- data of a register read
  | regRefused                                                              -- a register access answered REFUSED or UR
  | frameTx (lane : Nat) (bytes : List Byte)                                -- frame passed to the Ethernet MAC
  | frameRx (lane : Nat) (job : Option (BitVec 24)) (bytes : List Byte)     -- frame delivered to the hub transport, PROTECTED with its JOB or not
  | geyser (port : Nat) (bytes : List Byte)                                 -- frame sent on a Geyser lane
  | mctp (site : Nat) (src dst : BitVec 8) (bytes : List Byte)              -- SPDM request sent to a chiplet site, between MCTP endpoint IDs (R52)
  | mctpAssign (site : Nat) (eid : BitVec 8)                                -- the bus owner assigns a chiplet its endpoint ID (R52)
  | spdm (bytes : List Byte)                                                -- SPDM response to the host
  | hostWrite (addr : BitVec 64) (bytes : List Byte)                        -- data written to a bound destination
  | hostRead (bytes : List Byte)                                            -- completion of a BAR2 read
  | ideKm (reply : IdeReply) (stream : BitVec 8)                            -- answer to an IDE_KM message (R674)
  | ideKey (stream : Nat) (kset : Bool) (dir : Nat) (sub : Nat) (key : List Byte) (iv : W64) -- key driven on the IDE key port
  | regUpd (region : Nat) (step : BitVec 6)                                 -- REG_UPD pulse with REG_STEP
  | avs (port : Nat) (rail : Nat) (write : Bool) (mv : BitVec 12)           -- AVSBus frame: a Voltage write with commit, or a Voltage read
  | avsStatus (port : Nat) (rail : Nat)                                     -- AVSBus frame: a Status read
  | sns (slot : Nat) (word : BitVec 20)                                     -- sensor-bus command word
  | flReset                                                                 -- FL_RESET_N low for 10 us (R59)
  | flSfdp                                                                  -- read of the SFDP table in 1S-1S-1S mode at 50 MHz (R59)
  | flOctal                                                                 -- switch of the device to 8D-8D-8D at 200 MHz (R59)
  | flash (opcode : Byte) (addr : Nat)                                      -- a flash operation begun, with its opcode of the SFDP table
  | repairLoad (bits : List (BitVec 32))                                    -- REPAIR stream shifted, bit 0 of the first word first, and REPAIR_LOAD pulsed (R386)
  | trims (serdes supply : List (BitVec 32))                                -- Geyser equalisation and Caldera supply trims of OTP (R372)
  | trace (bytes : List Byte)                                               -- Geyser trace channel data
  deriving DecidableEq, Repr

/-! ### 01 and 02: TIMEBASE, the block status page and the boundary -/

/-- TIMEBASE, the reset status, the pins and the ports of the block boundary. -/
structure Bnd where
  timebase : W64 := 0                 -- R23, R30
  tbLatch : SMap (Option (BitVec 32)) := [] -- R36: latched high half, by class letter
  isolated : Bool := true             -- BLK_STATUS.PLANE_MODE
  ready : Bool := false
  recovery : Bool := false
  coStage : BitVec 4 := 0
  lastReset : BitVec 3 := 0
  everReady : Bool := false           -- R75: READY reached since the cold reset
  readied : List (Nat × BitVec 384) := [] -- kinds and digests of the images that have (R454)
  warmRunning : Bool := false         -- a warm reset has begun and READY has not been reached (R74)
  warmT0 : W64 := 0                   -- t0 of the latest warm reset (R35)
  porN : Bool := false                -- level of POR_N
  pkgSlot : BitVec 8 := 0             -- BND_STRAPS
  avsEn : BitVec 4 := 0
  sitePresent : BitVec 24 := 0        -- BND_PORTS
  siteTrusted : BitVec 24 := 0
  pwrWarn : Bool := false             -- 1 while filtered PWR_WARN_N is low
  thermTrip : Bool := false           -- 1 while filtered THERM_TRIP_N is low
  clamp : Bool := false
  thermHighRows : Nat := 0            -- R66: consecutive rows with THERM_TRIP_N high while the clamp holds
  wiredValid : Bool := false
  wired : BitVec 128 := 0             -- OTP_WIRED
  gyTrained : BitVec 2 := 0
  bypass : Bool := false              -- 1 while BYPASS_N is driven high
  memtrn : BitVec 64 := 0             -- MEMTRN_DONE pins
  testGate : BitVec 4 := 0            -- TEST_GATE outputs
  vppOk : Bool := true                -- OTP_VPP within range (R57)
  snsAlert : Bool := false            -- SNS_ALERT_N low
  deriving DecidableEq, Repr

/-! ### 03: command processor, mailboxes, knots -/

/-- One submission queue's registers and the order of its waiting slots (R84 to R96). -/
structure Queue where
  en : Bool := false
  irqEn : Bool := false
  tagLimit : BitVec 5 := 16
  order : List Nat := []              -- waiting slots in submission order; SQ_SLOTS.WAITING is its set
  refused : BitVec 16 := 0
  head : BitVec 6 := 0
  tail : BitVec 6 := 0
  irqPending : Bool := false
  headSince : W64 := 0                -- when the present head became the head (R641)
  deriving DecidableEq, Repr

/-- A command that holds a tag, in dispatch order. -/
structure Flight where
  tag : Tag
  queue : Nat
  slot : Nat
  desc : Desc
  need : Nat                          -- completion entries still reserved
  reissued : Bool := false
  seen : BitVec 32 := 0               -- LENGTH_SEEN
  started : Bool := false             -- the function has begun and waits for data or a timed schedule
  time : W64 := 0                     -- TIMEBASE at its start
  disp : W64 := 0                     -- TIMEBASE at its dispatch
  result : Option W64 := none         -- RESULT to complete with once its writes are answered
  work : Nat := 0                     -- blocks, chunks or operations of an engine for it (R606)
  deriving DecidableEq, Repr

/-- One direction of a mailbox. -/
structure MbDir where
  db : BitVec 32 := 0
  dbMask : BitVec 32 := 0
  length : BitVec 9 := 0
  full : Bool := false
  result : BitVec 2 := 0
  overrun : Bool := false
  highWater : BitVec 9 := 0
  timeoutRows : BitVec 16 := 0xFFFF
  live : Bool := false
  timeout : Bool := false
  empty : Bool := false
  timeoutEn : Bool := false
  emptyEn : Bool := false
  deadFrom : W64 := 0                 -- TIMEBASE at which LIVE last became 0 (R113)
  buf : BitVec 2048 := 0
  sentAt : W64 := 0                   -- TIMEBASE at which FULL last became 1 (R483)
  deriving DecidableEq, Repr

/-- One mailbox. -/
structure Mailbox where
  siteMask : BitVec 24 := 0
  en : Bool := false
  up : MbDir := {}
  down : MbDir := {}
  deriving DecidableEq, Repr

/-- A stored knot waiter. -/
structure Waiter where
  threshold : BitVec 48
  mailbox : BitVec 7
  doorbell : BitVec 5
  dom : Dom
  handle : BitVec 16                  -- 0xFFFF in the overflow list
  seq : Nat                           -- registration order over the whole table
  deriving DecidableEq, Repr

/-- One knot (R114). -/
structure Knot where
  value : BitVec 48 := 0
  owner : Dom := 64
  active : Bool := false
  hw : List Waiter := []              -- hardware waiters, at most four, in registration order
  spill : List Waiter := []            -- Caldera overflow list, in registration order
  deriving DecidableEq, Repr

/-- Command processor, mailboxes and knot table. -/
structure Cmd where
  queues : SMap Queue := []
  slots : SMap Desc := []             -- key 16 * queue + slot
  ring : SMap (BitVec 256) := []      -- key 32 * queue + entry
  awaited : List (Nat × Nat) := []    -- (queue, slot) of commands whose completions Keeper or Steward reads (R489, R694)
  taken : List (Nat × Nat × BitVec 256) := [] -- their completion records, as (queue, slot, record)
  flights : List Flight := []         -- commands holding tags, in dispatch order
  visited : BitVec 7 := 71            -- the queue that the dispatcher visited last (R94)
  couldRun : List Nat := []           -- the queues whose head could be dispatched at that visit (R94)
  lateDiscarded : BitVec 32 := 0
  lateReissued : BitVec 32 := 0
  mailboxes : SMap Mailbox := []
  mbSince : W64 := 0                  -- TIMEBASE of the cold reset: no LIVE count began earlier
  knots : SMap Knot := []
  waitSeq : Nat := 0                  -- waiters registered so far
  stallRows : BitVec 16 := 0xFFFF
  stallEn : Bool := false
  stalls : BitVec 32 := 0
  stallRef : W64 := 0                 -- R124: TIMEBASE of the latest of the three reference events
  stallArmed : Bool := true           -- R124: no stall event since the last VALUE change
  deriving DecidableEq, Repr

/-! ### 04 and 05: guard slices, page records, zero map, scrub -/

/-- A page record (R128). -/
structure PageRec where
  major : BitVec 48 := 0
  zmap : W64 := 0
  minor : BitVec 384 := 0
  pid : BitVec 6 := 0
  kgen : BitVec 6 := 0
  isSealed : Bool := false
  weight : Bool := false
  dumpArmed : Bool := false
  quarantine : Bool := false
  deriving DecidableEq, Repr

/-- The 512-bit layout of a record, lowest field last (R128). -/
def PageRec.bits (r : PageRec) : BitVec 512 :=
  BitVec.ofBool r.quarantine ++ BitVec.ofBool r.dumpArmed ++ BitVec.ofBool r.weight ++ BitVec.ofBool r.isSealed ++ r.kgen ++ r.pid ++ r.minor ++ r.zmap ++ r.major

/-- The record that 512 bits spell (R128). -/
def PageRec.ofBits (b : BitVec 512) : PageRec :=
  { major := b.extractLsb' 0 48, zmap := b.extractLsb' 48 64, minor := b.extractLsb' 112 384, pid := b.extractLsb' 496 6, kgen := b.extractLsb' 502 6
    isSealed := b.getLsbD 508, weight := b.getLsbD 509, dumpArmed := b.getLsbD 510, quarantine := b.getLsbD 511 }

/-- A slice key-table entry; every slice holds the same copy (04, Line cryptography; R138). -/
structure KeyEntry where
  dataKey : Key256 := 0
  macKey : Key256 := 0
  h : W128 := 0
  kgen : BitVec 6 := 0
  valid : Bool := false
  deriving DecidableEq, Repr

/-- What a request at a slice asks. -/
inductive LineOp where
  | read
  | write (data : Line) (mask : BitVec 64) (masked : Bool)
  | query
  deriving DecidableEq, Repr

/-- A request admitted at a slice, with the key entry bound at admission (R131). -/
structure SliceReq where
  hdr : NocHdr
  op : LineOp
  key : KeyEntry := {}
  epoch : Epoch := 0                  -- the partition's placement epoch at admission (R131, R237)
  knit : Bool := false                -- a re-knit of the page was running or a write held at admission (R173)
  fetched : Bool := false             -- a record fetch of its page has returned while it waited (R129, R156)
  slot : Bool := false                -- an overflowing write that waits for one of the four re-knits (R152)
  hold : Option Nat := none           -- a write: its number among the writes held so far; a query: how many had been held at its admission (R176)
  deriving DecidableEq, Repr

/-- Why a slice reads its controller. -/
inductive ReadFor where
  | line (r : SliceReq)               -- a sealed read
  | plain (r : SliceReq)              -- a plain read, or the old line of a plain masked write
  | merge (r : SliceReq)              -- the old line of a masked write (R146)
  | knit (page : Nat) (line : Nat)    -- a re-knit read (R149)
  | macFill (group : Nat)             -- a MAC line that a read needs, or that is evicted with fewer than eight valid tags (R715)
  deriving DecidableEq, Repr

/-- A controller read, waiting for the port or in flight, with the counters bound to it (R142). -/
structure CtlRead where
  id : Nat                            -- number of the read within its slice
  rid : Option (BitVec 8) := none     -- request identifier, once the port has taken it
  purpose : ReadFor
  addr : Nat                          -- LADDR
  major : BitVec 48
  minor : BitVec 6
  tag : Option (BitVec 56)            -- carve-out: the stored tag once known
  data : Option Line                  -- carve-out: the data while the tag is awaited
  deriving DecidableEq, Repr

/-- An access that waits for the controller port, which is in order and closed while MEMTRN_DONE is low (R48, R141). -/
inductive PortOp where
  | read (id : Nat) (space : Bool) (line : Nat)
  | write (space : Bool) (line : Nat) (data : Line) (side : W64) (ok : Option (BitVec 12)) -- with the write that OK answers at acceptance (R147)
  deriving DecidableEq, Repr

/-- A running re-knit (R149 to R153). -/
structure Knit where
  page : Nat
  key : KeyEntry
  newMajor : BitVec 48
  done : W64 := 0
  failed : Bool := false
  deriving DecidableEq, Repr

/-- A cached page record, most recently used first in the slice's list (R155). -/
structure CacheRec where
  page : Nat
  pr : PageRec
  dirty : Bool
  deriving DecidableEq, Repr

/-- A cached MAC line (R715). -/
structure MacLine where
  group : Nat
  tags : Line
  valid : BitVec 8
  deriving DecidableEq, Repr

/-- One guard slice. -/
structure Slice where
  en : Bool := false
  suspended : Bool := false
  held : List SliceReq := []          -- requests held while suspended (R49), oldest first
  cache : List CacheRec := []         -- most recently used first
  fetches : List Nat := []            -- pages with an outstanding record fetch (R156)
  waiting : List SliceReq := []       -- admitted requests waiting for a record or behind a masked write of their page
  reads : List CtlRead := []
  readSeq : Nat := 0                  -- reads made so far
  port : List PortOp := []            -- accesses that the controller port has not yet taken, oldest first
  knits : List Knit := []
  knitHeld : List SliceReq := []      -- writes held behind a re-knit (R150, R152), and queries that wait for one of them (R176)
  holds : Nat := 0                    -- writes held so far
  macs : List MacLine := []           -- most recently used first
  rd : BitVec 48 := 0
  wr : BitVec 48 := 0
  zrd : BitVec 48 := 0
  zwr : BitVec 48 := 0
  miss : BitVec 48 := 0
  rknit : BitVec 48 := 0
  stale : BitVec 48 := 0
  refused : BitVec 48 := 0
  retry : BitVec 48 := 0
  integ : BitVec 48 := 0
  plain : BitVec 48 := 0
  zq : BitVec 48 := 0
  errLine : BitVec 46 := 0            -- GRD_ERR_LOG
  errDom : Dom := 0
  errEpoch : Epoch := 0
  errSite : BitVec 5 := 0
  errValid : Bool := false
  errOverflow : Bool := false
  errCode : BitVec 16 := 0
  errTime : BitVec 32 := 0
  deriving DecidableEq, Repr

/-- Zero statistics of a partition (R178 to R180) and its reads of the row in progress. -/
structure Zst where
  zlines : BitVec 36 := 0
  lines : BitVec 36 := 0
  fracRes : BitVec 8 := 0
  fracRd : BitVec 8 := 0
  rowRd : Nat := 0
  rowZrd : Nat := 0
  deriving DecidableEq, Repr

/-- The guard. -/
structure Guard where
  base : BitVec 22 := 0               -- GRD_PROT
  size : BitVec 9 := 0
  locked : Bool := false
  syncDom : BitVec 6 := 0             -- GRD_SYNC
  syncAll : Bool := false
  syncBusy : Bool := false
  syncRunDom : BitVec 6 := 0          -- DOM and ALL of the running sync
  syncRunAll : Bool := false
  synced : BitVec 64 := 0             -- partitions synced since they entered BINDING_OFF (R182)
  syncedAll : Bool := false           -- an ALL sync completed since the last entry into BINDING_OFF
  records : SMap (BitVec 512) := []   -- Caldera's record area: the record at offset 64k under key k (R125, R126, R128)
  keys : SMap KeyEntry := []          -- slice key table
  slices : SMap Slice := []
  zst : SMap Zst := []
  scrubDom : BitVec 6 := 0            -- GRD_SCRUB
  scrubAll : Bool := false
  scrubPhys : Bool := false
  scrubBusy : Bool := false
  scrubErr : Bool := false
  scrubPhase : Bool := false          -- 1 during the physical pass
  scrubPages : BitVec 32 := 0
  deriving DecidableEq, Repr

/-! ### 06: weight gate -/

/-- A segment entry of an open package. -/
structure WgSeg where
  meas : BitVec 384 := 0              -- byte `j` in bits `8j+7:8j`
  dst : BitVec 40 := 0
  chunks : BitVec 21 := 0
  loads : BitVec 16 := 0
  loaded : Bool := false
  loading : Bool := false
  deriving DecidableEq, Repr

/-- A package slot of a partition. -/
structure WgPkg where
  state : BitVec 2 := 0               -- 0 FREE, 1 OPEN, 2 COMPLETE
  reserved : Bool := false            -- R199
  nonce : W64 := 0
  mdigest : BitVec 384 := 0
  pmeas : BitVec 384 := 0
  segments : Nat := 0
  totalChunks : Nat := 0
  deriving DecidableEq, Repr

/-- The gate's view of a partition. -/
structure WgPart where
  keyValid : Bool := false            -- weight-key table entry (R194)
  key : Key256 := 0
  pkgs : SMap WgPkg := []
  segs : SMap WgSeg := []             -- key 4096 * slot + segment
  sel : SMap (BitVec 16) := []        -- WG_SEGSEL, per access class
  deriving DecidableEq, Repr

/-- WG_CTX.PHASE. -/
inductive WgPhase where
  | idle | opening | activation | destCheck | ingest | commit | rollback | release
  deriving DecidableEq, Repr

/-- An ingest context. -/
structure WgCtx where
  phase : WgPhase := .idle
  tag : Tag := 0
  load : Bool := false
  dom : Dom := 0
  pkg : BitVec 4 := 0
  seg : BitVec 12 := 0
  stream : Option Nat := none         -- bound stream, none for a memory source
  dst : Nat := 0                      -- first destination page
  chunks : Nat := 0                   -- chunks of the segment
  first : Nat := 0                    -- F(s)
  done : Nat := 0                     -- CHUNKS_DONE
  fetched : Bool := false             -- the reads of the next chunk have been issued
  queried : Bool := false             -- the destination queries have been issued
  tags : List Byte := []              -- tags absorbed by the measurement, in chunk order (R206)
  wrote : SMap W64 := []              -- per chunk, the lines written (R210)
  rangeHeld : Bool := false           -- ingest range (R202, R203)
  rangeActive : Bool := false
  zeroed : Bool := false              -- the rollback's writes have been issued
  stopped : Bool := false             -- the rollback waits for PART_THAW (R211)
  undo : Option WgSeg := none         -- the segment entry before a commit whose completion is still to come (R33)
  status : Status := 0                -- the status to complete with
  result : Option W64 := none
  deriving DecidableEq, Repr

/-- The weight gate. -/
structure Wg where
  parts : SMap WgPart := []
  ctxs : SMap WgCtx := []
  cntChunk : BitVec 48 := 0
  cntTagfail : BitVec 48 := 0
  cntRollback : BitVec 48 := 0
  deriving DecidableEq, Repr

/-! ### 07: partitions -/

/-- The states of a partition (R218). -/
inductive PState where
  | free | claimed | keyed | running | frozen | bindingOff
  deriving DecidableEq, Repr

/-- PART_STATE.STATE's encoding (R218). -/
def PState.code : PState → Nat
  | .free => 0 | .claimed => 1 | .keyed => 2 | .running => 3 | .frozen => 4 | .bindingOff => 5

/-- A region of a partition: BASE is ADDR[51:21], SIZE in units of 2 MiB. -/
structure Region where
  base : BitVec 31 := 0
  size : BitVec 31 := 0
  deriving DecidableEq, Repr

/-- One partition's registers and counters. -/
structure Part where
  state : PState := .free
  resume : PState := .free
  kgen : BitVec 6 := 0
  epoch : Epoch := 0
  freezeCause : BitVec 2 := 0
  physReq : Bool := false
  scrubbed : Bool := false
  tagQuota : BitVec 10 := 0
  streams : BitVec 15 := 0
  power : BitVec 16 := 0
  knotBase : BitVec 17 := 0
  knotCount : BitVec 18 := 0
  lanes : BitVec 64 := 0
  regions : SMap Region := []
  stale : BitVec 48 := 0
  integ : BitVec 48 := 0
  lastEpochRow : Option Nat := none   -- row of the latest epoch change (R235)
  claimChecked : Bool := false        -- a claim pass is running (R227)
  deriving DecidableEq, Repr

/-! ### 07: link guard -/

/-- A frame that reorder injection holds, with the later frames still to be sent before it. -/
structure HeldFrame where
  later : Nat
  sec : List Byte                     -- its security header
  bytes : List Byte
  deriving DecidableEq, Repr

/-- A link-guard lane. -/
structure Lane where
  en : Bool := false
  owner : Dom := 127
  clearLen : BitVec 6 := 14
  etype : BitVec 16 := 0x88B5
  drop : BitVec 16 := 0               -- LNK_FI
  corrupt : BitVec 16 := 0
  rate : BitVec 16 := 0
  depth : BitVec 7 := 0
  lfsr : BitVec 32 := 1               -- fault-injection generator
  held : List HeldFrame := []
  txProt : BitVec 48 := 0
  txPlain : BitVec 48 := 0
  txDrop : BitVec 48 := 0
  rxOk : BitVec 48 := 0
  rxPlain : BitVec 48 := 0
  rxAuth : BitVec 48 := 0
  rxNojob : BitVec 48 := 0
  rxStream : BitVec 48 := 0
  rxReplay : BitVec 48 := 0
  fiDrop : BitVec 48 := 0
  fiCorrupt : BitVec 48 := 0
  fiReorder : BitVec 48 := 0
  deriving DecidableEq, Repr

/-- A job entry. -/
structure Job where
  job : BitVec 24
  dom : BitVec 6
  rank : BitVec 16
  kgen : BitVec 8 := 0
  key : Key256
  prev : Option Key256 := none        -- previous generation, while held
  pn : Nat := 0                       -- transmit counter, 0 to 2^48
  warned : Bool := false              -- event 0x0700_0080 appended for this generation
  deriving DecidableEq, Repr

/-- A replay stream entry (R252). -/
structure StreamEnt where
  job : BitVec 24
  rank : BitVec 16
  gen : BitVec 8
  top : BitVec 48
  window : BitVec 1024                -- bit i: counter top - i seen
  deriving DecidableEq, Repr

/-- The link guard. -/
structure Link where
  lanes : SMap Lane := []
  jobs : SMap (Option Job) := []      -- by job entry 0-4,095
  streams : List StreamEnt := []
  fiMode : Bool := false
  fiEpoch : BitVec 16 := 0
  fiSeed : BitVec 32 := 1
  refusedRow : Option Nat := none     -- row of the latest stream refusal (R251)
  deriving DecidableEq, Repr

/-! ### 08: Skein, entropy source, DRBG -/

/-- A key slot (R264, SKN_META). -/
structure SkSlot where
  mat : BitVec 512 := 0               -- key material, byte `j` in bits `8j+7:8j`
  valid : Bool := false
  written : Bool := false             -- slots 24-63: written since the last cold reset
  usage : BitVec 2 := 0
  engines : BitVec 9 := 0             -- attribute bits 10:2
  owner : Dom := 0
  len : BitVec 2 := 0
  exportable : Bool := false
  origin : BitVec 3 := 0
  erasing : Bool := false
  gen : BitVec 16 := 0
  deriving DecidableEq, Repr

/-- The health tests of the noise source since they last began (R292). -/
structure Health where
  last : Option Bool := none          -- the sample before
  run : Nat := 0                      -- equal samples in a row up to it
  first : Bool := false               -- the first sample of the window
  same : Nat := 0                     -- samples of the window equal to it
  left : Nat := 0                     -- samples until the window ends
  deriving DecidableEq, Repr

/-- A DRBG instance (R295, R296): CTR_DRBG's Key and V, byte `j` in bits `8j+7:8j`, and its bookkeeping. -/
structure Drbg where
  ready : Bool := false
  key : Key256 := 0
  v : W128 := 0
  reqs : BitVec 17 := 0
  lastReseed : W64 := 0               -- TIMEBASE at the last reseed
  deriving DecidableEq, Repr

/-- The KEY_RANDOM whose plain writes are in progress (R714). -/
structure KeyRandom where
  tag : Tag
  bytes : List Byte                   -- bytes not yet written
  addr : Nat
  written : Nat
  retries : Nat
  deriving DecidableEq, Repr

/-- A shadow entry of a pending PART_KEY, LINK_JOB or LINK_REKEY (R289). -/
structure Shadow where
  tag : Tag
  dataKey : Key256 := 0
  macKey : Key256 := 0
  weightKey : Key256 := 0
  dumpKey : Key256 := 0
  kgen : BitVec 6 := 0
  jobKey : Key256 := 0
  deriving DecidableEq, Repr

structure Skein where
  slots : SMap SkSlot := []
  devidDone : Bool := false
  aliasDone : Bool := false
  secretDenied : Bool := false
  keeperDig : BitVec 384 := 0         -- SKN_MEAS, byte `j` in bits `8j+7:8j`
  stewardDig : BitVec 384 := 0
  rowDig : BitVec 384 := 0
  keeperSvn : BitVec 16 := 0
  stewardSvn : BitVec 16 := 0
  rowSvn : BitVec 16 := 0
  commit : Bool := false
  random : Option KeyRandom := none
  shadows : List Shadow := []
  esState : BitVec 3 := 1             -- ES_STAT: 1 STARTUP, 2 OK, 3 FAILED, 4 LATCHED
  esLast : Bool := false
  esFails : BitVec 2 := 0
  health : Health := {}
  drbg0 : Drbg := {}
  drbg1 : Drbg := {}
  keeperSram : Mem := []              -- control core pair SRAM, 512 KiB
  stewardSram : Mem := []             -- service core SRAM, 1 MiB
  deriving DecidableEq, Repr

/-! ### 09: digest engine -/

/-- A digest context. The absorbed message stands for the chaining state and the buffered block, which nothing reads. -/
structure DigCtx where
  state : BitVec 2 := 0               -- 0 FREE, 1 OPEN, 2 FINISHED
  alg : BitVec 4 := 0
  owner : Dom := 0
  qclass : BitVec 2 := 0              -- 0 Keeper, 1 Steward, 2 host, 3 partition
  keyed : Bool := false
  usage : BitVec 2 := 0
  key : List Byte := []               -- key-dependent starting state
  custom : List Byte := []            -- S of a KMAC
  msg : List Byte := []
  count : W128 := 0
  outLen : BitVec 13 := 0
  result : BitVec 512 := 0
  cmpMatch : BitVec 16 := 0
  cmpMatchN : BitVec 16 := 0
  func : Option Tag := none           -- the function in progress
  inbox : List Byte := []             -- bytes received for it
  left : Nat := 0                     -- source bytes still to come, or accesses of a finish still open
  next : Nat := 0                     -- address of the next source byte
  pend : Nat := 0                     -- blocks waiting for a core
  flip : BitVec 2 := 0                -- comparators that err in the compare in progress
  last : Nat := 0                     -- the core that absorbed its last block
  deriving DecidableEq, Repr

/-- A digest core. -/
structure DigCore where
  ctx : Option Nat := none
  run : Nat := 0                      -- blocks absorbed of that context
  last : Nat := 31                    -- the context served before
  deriving DecidableEq, Repr

structure Dig where
  ctxs : SMap DigCtx := []
  cores : SMap DigCore := []
  cntBlocks : BitVec 48 := 0
  cntMismatch : BitVec 48 := 0
  cntFault : BitVec 48 := 0
  deriving DecidableEq, Repr

/-! ### 10: public-key engine -/

/-- An ephemeral holder (R347). -/
structure PkeHolder where
  kemFull : Bool := false
  kemSet : BitVec 4 := 0
  dhFull : Bool := false
  dhSet : BitVec 4 := 0
  owner : Dom := 0
  dz : List Byte := []                -- the KEM part
  scalar : Nat := 0                   -- the DH part
  deriving DecidableEq, Repr

/-- What a timed schedule has computed; nothing reads it before its end. -/
structure PkeOut where
  status : Status := 0
  result : Option W64 := none
  out : List Byte := []               -- for DST
  secret : List Byte := []            -- for TARGET
  holder : Option PkeHolder := none   -- for KEYGEN
  cycles : Nat := 0
  deriving DecidableEq, Repr

/-- The public-key engine. -/
structure Pke where
  slotLen : BitVec 3 := 5
  err : Bool := false
  state : BitVec 2 := 2               -- 0 IDLE, 1 BUSY, 2 CLEARING
  phase : BitVec 2 := 0               -- 0 checks, 1 load, 2 timed schedule
  run : Option Tag := none
  constValid : BitVec 8 := 0
  mem : Mem := []                     -- operand memory, 128 KiB
  holders : SMap PkeHolder := []
  keeperRun : Nat := 0                -- Keeper operations taken up in a row while another class waited (R350)
  since : W64 := 0                    -- TIMEBASE at the start of the phase or clearing
  wrote : Bool := false               -- the outputs of the schedule are on their way to a plain DST (R351)
  late : Bool := false                -- an operation ended by a fence has not come to its end (R99)
  seed : List Byte := []              -- seed of the running operation, in working memory (R281, R336)
  outcome : Option PkeOut := none
  after : List (Tag × Status × Option W64) := [] -- completions due when the clearing ends
  faulted : Bool := false             -- the clearing follows a PKE_FAULT (R360)
  cntOps : BitVec 48 := 0
  cntRefused : BitVec 48 := 0
  cntMismatch : BitVec 48 := 0
  cntFault : BitVec 48 := 0
  cntClear : BitVec 48 := 0
  cntConflict : BitVec 48 := 0
  deriving DecidableEq, Repr

/-! ### 11: one-time-programmable memory -/

/-- A physical word of the array as it reads at MARGIN_HIGH, NORMAL and MARGIN_LOW (R367, R379). -/
structure OtpWord where
  hi : BitVec 40 := 0
  nrm : BitVec 40 := 0
  low : BitVec 40 := 0
  deriving DecidableEq, Repr

/-- Whose program runs. -/
inductive OtpUser where
  | command | ticket | count
  deriving DecidableEq, Repr

/-- A program or re-burn in progress. -/
structure OtpRun where
  user : OtpUser
  addr : Nat
  reburn : Bool
  t0 : BitVec 40                      -- target bits of the word, or of copies 0, 1 and 2
  t1 : BitVec 40
  t2 : BitVec 40
  start : W64
  deriving DecidableEq, Repr

/-- The OTP array and its controller. -/
structure Otp where
  words : SMap OtpWord := []
  sensed : Bool := false
  pstate : BitVec 14 := 0             -- two bits per ECC partition: 0 OPEN, 1 LOCKED, 2 INCOMPLETE_LOCKED
  lockSince : BitVec 7 := 0
  vals : SMap (BitVec 32) := []       -- ECC words as decoded at the cold sense
  unprov : Bool := false
  weak : BitVec 2048 := 0
  leaky : BitVec 2048 := 0
  uncorr : BitVec 2048 := 0
  fmax : BitVec 6 := 31               -- feature values in force; the lowest variant until the sense
  variant : BitVec 8 := 0
  defaulted : Bool := true
  powerCap : BitVec 16 := 600
  partEn : W64 := 1
  sliceEn : W64 := BitVec.ofNat 64 (2 ^ Config.slices - 1)
  laneEn : W64 := 0
  op : BitVec 3 := 0                  -- OTP_CMD
  margin : BitVec 2 := 0
  addr : BitVec 11 := 0
  wdata : BitVec 32 := 0
  rdata : BitVec 40 := 0
  rdec : BitVec 32 := 0
  corrected : Bool := false
  rUncorr : Bool := false
  copyDiff : Bool := false
  pulses : BitVec 3 := 0              -- OTP_STAT
  copyFail : BitVec 3 := 0
  leakyStat : Bool := false
  checkClean : Bool := false
  checkMatch : Bool := false
  status : Status := 0
  running : Option OtpRun := none
  deriving DecidableEq, Repr

/-! ### 12: life cycle -/

/-- A challenge record and its time of NEW (R422). -/
structure LcChal where
  record : BitVec 768
  time : W64
  deriving DecidableEq, Repr

structure Lc where
  state : BitVec 4 := 0               -- state in force, from the cold sense (R403)
  otpState : BitVec 4 := 0
  session : Bool := false
  ticketsUsed : BitVec 5 := 0
  unlocks : BitVec 7 := 0
  dbgOpen : Bool := false
  dbgScope : BitVec 2 := 0
  dbgSince : Bool := false
  transSince : Bool := false
  tokenFails : BitVec 4 := 0
  sessBusy : Bool := false            -- LC_SESSION
  sessStatus : Status := 0
  target : BitVec 4 := 0              -- LC_TRANS_CTL
  trBusy : Bool := false              -- LC_TRANS_STAT
  trPhase : BitVec 3 := 0
  trStatus : Status := 0
  trTo : BitVec 4 := 0                -- target of the transition in progress
  trStart : W64 := 0
  trWords : BitVec 4 := 0             -- the LIFE_CYCLE words that it changes
  trStop : Bool := false              -- copy 0 did not verify (R418)
  token : Key256 := 0
  scope : BitVec 2 := 0               -- LC_DBG_CTL
  purpose : Bool := false
  duration : BitVec 16 := 0
  dbgStatus : Status := 0             -- LC_DBG_STAT
  chal : Option LcChal := none
  granting : Option (BitVec 2 × BitVec 16) := none   -- scope and duration of a grant whose count program runs
  openedAt : W64 := 0                 -- when the gates of the grant opened
  grantFor : BitVec 16 := 0           -- its DURATION
  deriving DecidableEq, Repr

/-! ### 13: flash and persistent state -/

/-- A channel of the flash controller. -/
structure FlChan where
  op : BitVec 2 := 0
  addr : BitVec 32 := 0
  len : BitVec 17 := 0
  sram : BitVec 20 := 0
  busy : Bool := false
  status : Status := 0
  deriving DecidableEq, Repr

/-- The operation that the device performs. -/
structure FlRun where
  chan : Nat
  op : BitVec 2
  addr : Nat
  len : Nat
  sram : Nat
  data : List Byte                    -- bytes to program
  deriving DecidableEq, Repr

/-- An entry of the defect ledger (R644); OPTIME is that of the change. -/
structure Defect where
  unitId : UnitId
  state : BitVec 8
  cls : BitVec 8
  number : BitVec 32
  optime : BitVec 32
  transients : BitVec 16
  deriving DecidableEq, Repr

/-- A ledger key (KEY_DERIVE label code 3) or a configuration key (code 4) in Skein: what it was derived from, and its slot (R438, R439). -/
structure StoreKey where
  label : Nat
  ident : List Byte
  slot : Nat
  gen : BitVec 16                     -- GEN of the slot with the key in it
  deriving DecidableEq, Repr

/-- The flash device, its controller, and what Steward's stores keep while it runs. -/
structure Flash where
  dev : Mem := []                     -- device contents; an unlisted byte is erased, 0xFF (log entry 30)
  ok : Bool := false                  -- FL_CFG.DEVICE_OK
  octal : Bool := false               -- the port runs in 8D-8D-8D mode (R59)
  acl : BitVec 12 := 0
  ch0 : FlChan := {}
  ch1 : FlChan := {}
  run : Option FlRun := none
  last : Nat := 1                     -- channel served last
  erases : BitVec 48 := 0
  progs : BitVec 48 := 0
  defects : List Defect := []         -- the ledger's entries, oldest first
  defectsDropped : Bool := false
  defectsTold : Bool := false         -- a record has marked that with COMPACT (R645)
  defectsDue : Bool := false          -- entries not yet committed
  resumeDue : Bool := false           -- a compaction found open at this start is not yet resumed (R457)
  bad : List Nat := []                -- sectors marked bad in this start (R461)
  repaired : BitVec 8 := 0            -- kinds whose repair of R442 has run since the cold reset
  keys : List StoreKey := []          -- ledger and configuration keys, oldest first
  status : Status := 0                -- how the latest commit or compaction ended (R455, R461)
  wearAt : W64 := 0                   -- TIMEBASE at which the newest wear record was committed, or of the cold reset since (R588)
  wearNew : Bool := false             -- this start's LOST_INTERVAL record found no record before it (R588)
  lostDue : Bool := false             -- the LOST_INTERVAL record of the cold start is not yet committed (R448)
  cfgDue : Bool := false              -- a configuration record is not yet migrated (R447)
  idleDue : Bool := false             -- Keeper has not yet committed IDLE and ATTEMPTS 0 (R436)
  ckDue : Bool := false               -- a partition has been bound off since the last checkpoint (R451)
  ckBytes : Nat := 0                  -- bytes of checkpoints written since ckFrom (R460)
  ckFrom : W64 := 0                   -- TIMEBASE of the cold start from which they count
  compactAt : Nat := 0                -- OPTIME at the last completed compaction (R437)
  optime : Nat := 0                   -- OPTIME of the latest commit
  optimeAt : Option W64 := none       -- its TIMEBASE, none before the first of this cold-reset period
  assumed : BitVec 40 := 0            -- wear parts entered at W_INIT (R588)
  baseDone : BitVec 40 := 0           -- wear parts whose BASE word has been written in this start (R587)
  deriving DecidableEq, Repr

/-! ### 14: attestation and key release -/

/-- What the exchange with a site has settled. -/
structure SpdmSide where
  ver : Byte := 0x12                  -- the version selected
  ct : Nat := 0                       -- the site's CTExponent
  alg : BitVec 32 := 0                -- BaseAsymAlgo selected
  big : Bool := false                 -- BaseHashAlgo selected: SHA-384, or SHA-256
  chain : List Byte := []             -- the chain of slot 0 as far as it has come
  left : Nat := 0                     -- bytes of it that are still to come
  deriving DecidableEq, Repr

/-- A chiplet site as Keeper records it (R472, R478). -/
structure AttSite where
  status : BitVec 2 := 0              -- 0 absent, 1 present and not attested, 2 trusted, 3 failed
  eid : BitVec 8 := 0                 -- endpoint ID assigned to it, 0 for none (R52)
  alg : BitVec 32 := 0
  leafDigest : List Byte := []        -- empty for none
  measDigest : List Byte := []
  time : W64 := 0                     -- TIMEBASE of the last attestation
  step : Option Nat := none           -- request of the running exchange that awaits its response
  repeated : Bool := false            -- that request has been repeated
  sentAt : W64 := 0                   -- TIMEBASE at which it was last sent
  side : SpdmSide := {}               -- what the running or last exchange has settled
  sent : List (List Byte) := []       -- requests and responses of the exchange, oldest first
  deriving DecidableEq, Repr

/-- What Keeper keeps of a partition's key release (R486, R489). -/
structure AttPart where
  holder : Option Nat := none
  bound : List Byte := []             -- SHA-384 of the report that the holder is bound to
  boundAt : W64 := 0
  td : Option (List Byte) := none     -- transcript digest of the accepted bundle
  deriving DecidableEq, Repr

/-- Where the request that Keeper handles stands. -/
inductive AttPhase where
  | writing                           -- the report is being written to its buffer
  | reading                           -- the bundle is being read
  | loading                           -- PART_KEY has been submitted
  deriving DecidableEq, Repr

/-- The attestation request that Keeper handles (R483). -/
structure AttRun where
  mb : Nat
  phase : AttPhase
  part : Nat
  holder : Option Nat := none
  reqId : List Byte
  len : Nat := 0                      -- report length
  addr : Nat := 0
  td : List Byte := []
  slots : List Nat := []              -- tenant slots that step 4 of R489 wrote
  qslot : Nat := 0                    -- slot of queue 70 that holds the PART_KEY
  deriving DecidableEq, Repr

structure Att where
  sites : SMap AttSite := []
  parts : SMap AttPart := []
  run : Option AttRun := none
  aliasIssued : Bool := false         -- the Alias certificate of this SKN_MEAS commit has been issued (R465)
  aliasCert : List Byte := []
  deviceCert : List Byte := []        -- the accepted DeviceID certificate (R466)
  caCert : List Byte := []            -- the manufacturing CA certificate that it was accepted under
  siteRoots : Option (List (List Byte)) := none -- the accepted chiplet-root list (R480)
  verified : List (List Byte) := []   -- digests of the chiplet certificates verified since the cold reset (R481)
  hostSpdm : List (List Byte) := []   -- messages exchanged with the host's SPDM requester, oldest first
  deriving DecidableEq, Repr

/-! ### 15: cast-on -/

/-- Where the current wave stands (R515). -/
inductive WaveStep where
  | none | ramp | settleWait | settle
  deriving DecidableEq, Repr

/-- Cast-on: `CO_STAT`, `CO_CTL`, the watchdog and the wave engine. -/
structure Co where
  halted : Bool := false
  haltCause : BitVec 3 := 0
  recCause : BitVec 3 := 0
  failedStarts : BitVec 3 := 0
  failStage : BitVec 4 := 0
  failCause : BitVec 2 := 0
  testHold : Bool := false
  rootprov : Bool := false
  keeperDone : Bool := false
  stewardDone : Bool := false
  runSram : Bool := false             -- CO_CTL.RUN_SRAM
  holdAgain : Bool := false           -- a session opened in test hold: the ROM repeats CO4 (R505)
  unsignedImgs : BitVec 3 := 0        -- images that run as unsigned code in this start, by kind (R504)
  untrained : BitVec 64 := 0          -- slices retired at CO8, until the next cold reset (R512)
  unsignedRun : Bool := false         -- RUN_SRAM started the image in core SRAM (R505)
  swatched : Bool := false            -- the work of CO11 is done in this start (R510, R518)
  times : SMap W64 := []              -- CO_TIME
  stageAt : W64 := 0                  -- entry into the stage in progress
  wdogFrom : W64 := 0                 -- start of the watchdog's count (R494)
  wdogSkip : Nat := 0                 -- time that it does not count
  seamDone : Bool := false            -- the row program has committed a seam in this start (R518)
  waveMask : BitVec 64 := 0
  waveBusy : Bool := false
  wave : BitVec 3 := 0
  railOk : Bool := false
  paused : Bool := false
  released : BitVec 64 := 0
  failed : BitVec 64 := 0
  waveSet : BitVec 64 := 0            -- regions of the current wave
  waveStep : WaveStep := .none
  waveT0 : W64 := 0                   -- seam at which the wave began
  waveAt : W64 := 0                   -- release, then the opening of the settle window
  waveClean : SMap Nat := []          -- per region of the wave: consecutive droop-free snapshots
  pausedAt : W64 := 0                 -- when PAUSED was set
  deriving DecidableEq, Repr

/-! ### 16: row engine -/

/-- An open loop level (R547). -/
structure LoopLevel where
  trip : Nat
  index : Nat
  first : Nat                         -- first and last stitch of the body
  last : Nat
  deriving DecidableEq, Repr

/-- What an operation in flight will do when its latency has passed (R527). -/
inductive RowWrite where
  | scalar (r : BitVec 6) (v : W64)
  | pred (p : BitVec 3) (b : Bool)
  | acc (a : BitVec 2) (v : BitVec 2048)        -- replace the accumulator
  | accAdd (a : BitVec 2) (v : BitVec 2048)     -- add element by element
  | mem (addr : Nat) (bs : List Byte)
  | stage (word : Nat) (v : W64)
  deriving DecidableEq, Repr

/-- An operation in flight: stitches until it takes effect, and its slot. -/
structure RowFlight where
  left : Nat
  slot : Nat
  write : RowWrite
  deriving DecidableEq, Repr

/-- A bank header (RE_HDR). -/
structure RowHdr where
  length : BitVec 11 := 0
  maxIssue : BitVec 10 := 0
  calFirst : BitVec 10 := 0
  calCount : BitVec 10 := 0
  calSlots : BitVec 24 := 0
  layout : BitVec 16 := 0
  deriving DecidableEq, Repr

/-- The last readings of a sensor (R60, R550). -/
structure Sensor where
  reading : BitVec 16 := 0
  status : BitVec 2 := 0
  stale : Bool := false
  fresh : Bool := false
  cal : Bool := false
  age : BitVec 8 := 0
  unused : BitVec 32 := 0             -- answers not used
  deriving DecidableEq, Repr

/-- The events that S6 has staged in the row (R544). -/
structure RowEvents where
  up78 : BitVec 32 := 0
  up79 : BitVec 32 := 0
  down78 : BitVec 32 := 0
  down79 : BitVec 32 := 0
  ksigs : List (BitVec 17 × BitVec 48) := []
  slogs : List (BitVec 23 × W64) := []
  vacks : List (BitVec 16) := []
  railOk : Bool := false
  deriving DecidableEq, Repr

/-- What the shipped row program keeps in row memory from row to row (R575, R579 to R586). Per-region lists hold region 0 first. -/
structure ShipVars where
  temps : List (List Int) := []       -- highest thermal readings of the last 16 rows, newest row first
  amps : List (List Int) := []        -- measured currents of the last 16 rows, newest row first
  steps : List Nat := []              -- committed steps of the last row
  y : List Int := []                  -- Y[r][0] of the last row, empty before the first
  missRun : SMap Nat := []            -- rows in a row beyond PRED_TOL
  missLeft : SMap Nat := []           -- rows for which a miss still counts
  integral : SMap Int := []           -- E, Q16.16
  turn : SMap Nat := []               -- row of a sensor's next turn
  waiting : BitVec 256 := 0           -- sensors that keep their turn
  calAt : Nat := 0                    -- place of the sensor under calibration among those marked CAL
  calRead : Bool := false             -- its calibrate read comes next
  calVal : SMap (BitVec 16) := []     -- last calibrate reading of a sensor
  acc : SMap Nat := []                -- Q8.8 accumulators of the wear parts
  since : SMap Nat := []              -- SINCE, stress-ms
  accRows : Nat := 0                  -- rows since SINCE last moved
  derate : SMap Nat := []             -- derate counts
  railFor : W64 := 0                  -- the wave for which RAILOK has been staged
  deriving DecidableEq, Repr

/-- The row engine, its memories, the snapshot it reads and the staging it writes. -/
structure RowEngine where
  vars : ShipVars := {}
  shipped : Bool := false             -- bank 0 holds the shipped program, as loaded
  regs : SMap W64 := []               -- s0-s63
  preds : BitVec 8 := 1               -- p0 reads 1
  accs : SMap (BitVec 2048) := []     -- element (i, j) in bits 32(8i+j)+31:32(8i+j)
  loops : List LoopLevel := []        -- innermost first
  mem : Mem := []                     -- row memory, 256 KiB
  prog : SMap (BitVec 256) := []      -- key 1024 * bank + stitch
  flights : List RowFlight := []      -- in issue order
  pc : Nat := 0
  issued : Nat := 0
  ended : Bool := false               -- ROW_END has issued in this row
  fault : Bool := false               -- a row fault stopped issue
  dropped : Bool := false             -- an event of this row was dropped
  stage : SMap W64 := []
  events : RowEvents := {}
  committed : SMap W64 := []          -- region and sensor words and RE_PUB, as committed
  snap : SMap W64 := []               -- the readable snapshot buffer
  sensNext : SMap W64 := []           -- sensor table committed at the last seam (R555)
  sensLive : SMap W64 := []           -- table that drives the slots of this row
  sensors : SMap Sensor := []
  param : SMap W64 := []              -- RE_PARAM, pending copy
  paramNow : SMap W64 := []           -- committed copy
  paramReq : Bool := false
  seq : BitVec 32 := 0
  run : Bool := false                 -- RE_CTL
  bank : Bool := false
  clearing : Bool := false
  status : Status := 0
  running : Bool := false             -- RE_STAT
  first : Bool := false               -- no row of this run has begun
  switching : Bool := false
  consec : BitVec 2 := 0
  prevOverrun : Bool := false
  prevFault : Bool := false
  prevDrop : Bool := false
  lastIssue : BitVec 11 := 0
  lastEnd : BitVec 12 := 0
  rows : Nat := 0
  hdr0 : RowHdr := {}
  hdr1 : RowHdr := {}
  cntRows : BitVec 48 := 0
  cntOverrun : BitVec 48 := 0
  cntFault : BitVec 48 := 0
  cntDrop : BitVec 48 := 0
  cntCalconv : BitVec 48 := 0
  cntKnot : BitVec 48 := 0
  cntAvs : BitVec 48 := 0
  cntEcc : BitVec 48 := 0
  deriving DecidableEq, Repr

/-! ### 17: governor -/

/-- One region's outputs and registers (GOV_REG, R566 to R572). -/
structure GovReg where
  step : BitVec 6 := 0                -- REG_STEP
  stretch : Bool := false             -- REG_STRETCH_EN
  holdCeil : BitVec 6 := 0
  rail : BitVec 6 := 0
  railEn : Bool := false
  age : BitVec 8 := 0
  ages : Bool := false                -- an event of R572 has begun its AGE
  deriving DecidableEq, Repr

/-- One rail (GOV_RAIL). -/
structure GovRail where
  vmin : BitVec 12 := 0
  vmax : BitVec 12 := 0
  target : BitVec 12 := 0
  readback : BitVec 12 := 0
  fault : Bool := false
  sentRow : Option Nat := none        -- row of the last target sent (R557)
  deriving DecidableEq, Repr

/-- The governor's hardware. -/
structure Gov where
  forceHold : Bool := false
  hold : Bool := false                -- also BLK_STATUS.HOLD
  holdCause : BitVec 2 := 0
  cleanRows : BitVec 11 := 0
  holdRows : Nat := 0                 -- rows in hold mode
  clampRows : Nat := 0                -- rows clamped
  status : Status := 0
  regs : SMap GovReg := []
  rails : SMap GovRail := []
  readAt : SMap Nat := []             -- per AVSBus port: its next read-back, 2 for each rail (R571)
  cntHold : BitVec 48 := 0
  cntTrip : BitVec 48 := 0
  cntVclip : BitVec 48 := 0
  cntRailfault : BitVec 48 := 0
  deriving DecidableEq, Repr

/-! ### 18: Fumarole -/

/-- A counter that Fumarole itself holds: its value, and what has happened to it since the last latch (R592, R595). -/
structure FumCnt where
  value : BitVec 48 := 0
  delta : BitVec 48 := 0              -- increments since the last latch
  resets : Bool := false              -- a reset since the last latch
  deriving DecidableEq, Repr

/-- What a group record has gathered of one counter since the group's previous record (R604). -/
structure FumAcc where
  delta : BitVec 48 := 0
  resets : Bool := false
  deriving DecidableEq, Repr

/-- An announcement of a site (R599). -/
structure Announce where
  marker : W128                       -- as in a marker post: STEP, LAYER, OPERATOR, DOM
  ahead : BitVec 7
  zeroRows : Nat := 0
  deriving DecidableEq, Repr

/-- A site as Fumarole sees it. -/
structure FumSite where
  marker : Option W128 := none
  began : W64 := 0
  announces : List Announce := []     -- in AHEAD order
  pcRow : Nat := 0                    -- PC samples accepted in this row
  loss : BitVec 8 := 0                -- highest LOSS of its regions since the marker began
  stopped : Bool := false
  doms : BitVec 64 := 0               -- partitions that its marker has named in this row
  deriving DecidableEq, Repr

/-- A dump selector. -/
structure DumpSel where
  state : BitVec 2 := 0               -- 0 FREE, 1 ARMED, 2 FIRED, 3 BUSY
  stepAny : Bool := false
  tensor : BitVec 32 := 0
  step : BitVec 32 := 0
  bytes : BitVec 32 := 0
  dst : W64 := 0
  cap : BitVec 32 := 0
  deriving DecidableEq, Repr

/-- Where a running dump stands (R621, R623). -/
inductive DumpPhase where
  | reading | writing | header | zeroing
  deriving DecidableEq, Repr

/-- The running dump. -/
structure DumpRun where
  tag : Tag
  dom : BitVec 6
  sel : Nat
  phase : DumpPhase
  header : List Byte
  nonce : W64
  written : List (Addr × BitVec 64) := [] -- destination lines written in earlier phases, with their bytes
  status : Status := 0                -- what the zeroing will complete with
  silent : Bool := false              -- its queue was reset: the tag is freed with no completion (R100)
  deriving DecidableEq, Repr

/-- Fumarole: counters, markers, rings and dump selectors. -/
structure Fum where
  ringEn : Bool := false              -- FUM_CTL
  pcEn : Bool := false
  linkEn : Bool := false
  linkShift : BitVec 5 := 0
  kGlobal : BitVec 16 := 0
  kPart : BitVec 16 := 0
  gmask : BitVec 32 := 0
  postRefused : BitVec 32 := 0
  annDropped : BitVec 32 := 0
  cnts : SMap FumCnt := []            -- global counter g at g, counter k of partition d at 256 + 16d + k
  base : SMap (BitVec 48) := []       -- counters of other units: their value at the last latch
  latched : SMap (BitVec 48) := []    -- VALUE as latched at the last tick
  deltas : SMap W64 := []             -- snapshot words 0x200 + index
  accs : SMap FumAcc := []            -- since the group's previous record
  groupRow : SMap Nat := []           -- row of the group's previous record
  first : Bool := true                -- the next latch is the first (R596)
  firstRow : Nat := 0                 -- row at which that latch's interval began
  sites : SMap FumSite := []
  descMarker : SMap W128 := []        -- current descriptor marker, by partition
  regionPost : SMap W64 := []         -- region cycle posts of the row in progress
  regionLoss : SMap (BitVec 8) := []  -- LOSS as latched
  partLoss : SMap (BitVec 8) := []    -- highest LOSS for the partition's group records
  partStop : BitVec 64 := 0
  latching : Option Nat := none       -- site whose marker the post behind the latest tick changes in the latching cycle (R593, R600)
  ring : SMap (BitVec 512) := []      -- sample ring
  prod : BitVec 22 := 0
  cons : BitVec 22 := 0
  used : Nat := 0
  lost : BitVec 48 := 0
  gap : Nat := 0                      -- records dropped since the last accepted one
  pcRing : SMap W128 := []            -- PC ring
  pcProd : BitVec 22 := 0
  pcCons : BitVec 22 := 0
  pcUsed : Nat := 0
  pcLost : BitVec 48 := 0
  pcGap : Bool := true                -- the next sample needs an anchor
  pcDropping : Bool := false          -- a drop has followed the last accepted sample
  pcLast : W64 := 0                   -- TIMEBASE of the previous record
  winRows : Nat := 0                  -- rows of the current window of 1,000
  winPower : SMap Nat := []           -- mW summed over the current window of 1,000 rows
  winCnt : SMap (BitVec 48) := []     -- k0 to k3 at the window's start, key 4d + k
  ppwr : SMap (BitVec 16) := []       -- FUM_PPWR
  zcoarse : SMap (BitVec 12) := []    -- FUM_ZCOARSE
  sels : SMap DumpSel := []           -- key 16d + s
  dump : Option DumpRun := none
  dumpKeys : SMap (Option Key256) := [] -- dump-key table, by partition
  deriving DecidableEq, Repr

/-! ### 19: Vent, self-test and the Sinter log -/

/-- A coalesced record of the row (R629). -/
structure VentRec where
  cls : BitVec 8
  peer : UnitId
  code : BitVec 16
  reporter : BitVec 6
  dom : Dom
  detail : W64
  time : W64
  count : BitVec 32
  deriving DecidableEq, Repr

/-- A storm in force (R631). -/
structure Storm where
  cls : BitVec 8
  code : BitVec 16
  rows : Nat
  deriving DecidableEq, Repr

/-- An open row-routed report (R647, R648). -/
structure OpenRep where
  handle : BitVec 16
  unitId : UnitId
  cls : BitVec 8
  code : BitVec 16
  rows : Nat
  deriving DecidableEq, Repr

/-- Where a test stands (R633 to R636). -/
inductive TestPhase where
  | waiting       -- queued for its pool and the global limit, or for its seam
  | deferred      -- requested by TEST_UNIT without a spare: waits for one idle row
  | ready         -- the unit is free (fenced, darned out or idle): the test may start
  | running
  | passed        -- returns to service at the next seam
  deriving DecidableEq, Repr

/-- A requested or running self-test. -/
structure Test where
  unitId : UnitId
  byCmd : Option Tag                  -- the TEST_UNIT command that asked, none for error, storm or FAULT
  phase : TestPhase := .waiting
  spare : Option UnitId := none       -- spare that darning put in for it
  again : Bool := false               -- the second run after a failure (R635)
  deferredRun : Bool := false
  fence : Bool := false               -- TEST_FENCE: classify without a test
  was : BitVec 4 := 0                 -- state of a unit tested out of service
  asked : W64 := 0                    -- TIMEBASE of the request; of a deferred test, of its unit's latest work
  start : W64 := 0
  deriving DecidableEq, Repr

/-- What Vent keeps of a physical unit. -/
structure UnitRec where
  state : BitVec 4 := 0               -- 0 in service, 1 spare, 2 under test, 3 fenced, 4 darned out, 5 retired
  logical : Option Nat := none        -- none: its own index
  transients : List W64 := []         -- rows of its transient classifications (R635)
  eccRows : List W64 := []            -- rows of ECC_CORR reports (R627)
  cause : Option (BitVec 8) := none   -- CLASS of the report that asked for its latest test
  lasting : Bool := false             -- classified lasting; retired at the next claim where no spare stands in
  fresh : Nat := 0                    -- transient classifications since its latest ledger entry (R644)
  deriving DecidableEq, Repr

/-- A Sinter log entry (R642). -/
structure SntEntry where
  time : W64 := 0
  code : BitVec 32 := 0
  unitId : UnitId := 0
  dom : BitVec 8 := 0
  flags : BitVec 8 := 0
  p0 : W64 := 0
  p1 : W64 := 0
  deriving DecidableEq, Repr

/-- The Sinter log ring and its pointers (R642, R643, R719). -/
structure Snt where
  ring : SMap SntEntry := []
  prod : BitVec 21 := 0
  ckpt : BitVec 21 := 0
  pend : Nat := 0                     -- entries not checkpointed; tells full from empty when PROD = CKPT
  lost : BitVec 22 := 0
  lostSince : Nat := 0                -- entries lost since the previous loss event
  wsel : SMap (BitVec 21) := []       -- per access class
  opened : Bool := false              -- the log accepts entries (R509)
  queue : List SntEntry := []         -- events queued before that, in order of occurrence (R383, R509)
  otpOver : Nat := 0                  -- OTP events beyond 64, and TIMEBASE of the first
  otpOverAt : W64 := 0
  coOver : Nat := 0                   -- cast-on events beyond 32, and TIMEBASE of the first
  coOverAt : W64 := 0
  deriving DecidableEq, Repr

/-- Vent: the intake, tests and the unit records. -/
structure Vent where
  table : List VentRec := []          -- records of the current row, in order of first arrival
  refused : BitVec 16 := 0
  overflow : BitVec 16 := 0
  overflowRow : Bool := false
  accepted : Nat := 0                 -- reports accepted in the current row
  storms : List Storm := []
  opens : List OpenRep := []
  tests : List Test := []             -- in arrival order
  units : SMap UnitRec := []
  epochs : SMap (BitVec 4) := []      -- placement epoch per logical number (R638)
  copying : List (UnitId × UnitId) := [] -- Caldera bank copies in progress, bank to spare (R639)
  copyDone : List (UnitId × UnitId) := []
  stallFlag : Bool := false           -- a knot-stall report in the current row
  hangs : Nat := 0                    -- stall events that Steward has not answered (R641)
  shrunk : SMap Nat := []             -- units compacted out of the pools of a kind (R640)
  summary : SMap W64 := []            -- snapshot words 0x011-0x01F latched at the last tick (R647)
  sensorBad : BitVec 256 := 0         -- sensors that answered status 0b10 in the current row
  handed : List UnitId := []          -- tests of external kinds handed to Steward (R632)
  deriving DecidableEq, Repr

/-! ### 20: host window unit -/

/-- The states of a stream (R657). -/
inductive StState where
  | free | opened | bound | closed | error
  deriving DecidableEq, Repr

/-- A bulk-window stream. -/
structure Stream where
  state : StState := .free
  mode : BitVec 2 := 0
  long : Bool := false
  status : Status := 0
  len : BitVec 32 := 0
  f : Nat := 0                        -- first byte not received
  c : Nat := 0                        -- first byte not consumed
  got : List Nat := []                -- dwords received beyond F
  ring : Mem := []                    -- received bytes by position, until consumed
  tag : Option Tag := none            -- bound consumer
  idle : W64 := 0                     -- TIMEBASE at binding or at the last data (R665)
  deriving DecidableEq, Repr

/-- A translation window (R667). -/
structure HwWin where
  hostBase : BitVec 8 := 0
  size : BitVec 9 := 0
  space : BitVec 2 := 0
  rd : Bool := false
  wr : Bool := false
  en : Bool := false
  target : BitVec 52 := 0
  deriving DecidableEq, Repr

structure HostUnit where
  cause : BitVec 3 := 0               -- HW_CONT
  frozen : Bool := false
  causeRead : Bool := false
  overflow : Bool := false
  errors : BitVec 16 := 0
  irqPending : BitVec 3 := 0          -- HW_IRQ
  irqMask : BitVec 3 := 0
  malformed : BitVec 16 := 0          -- HW_STAT
  miss : BitVec 16 := 0
  dropped : BitVec 16 := 0
  status : Status := 0
  wins : SMap HwWin := []
  sid : BitVec 128 := 0
  ideIv : W64 := 0                    -- HW_IDE_IV
  slot : BitVec 4 := 0                -- HW_IDE_GO
  dir : Bool := false
  kset : Bool := false
  active : BitVec 32 := 0             -- HW_IDE_ACT
  ksetUsed : BitVec 32 := 0
  streams : SMap Stream := []
  deriving DecidableEq, Repr

/-! ### 21: Geyser and firmware update -/

/-- A frame that waits for the window of 64, without its sequence numbers. -/
structure GyPiece where
  last : Bool
  type : BitVec 16
  msgId : BitVec 32
  frag : BitVec 16
  msgBytes : BitVec 32
  payload : List Byte
  deriving DecidableEq, Repr

/-- One direction-pair of a session's traffic class: the sequence numbers and the frames not yet acknowledged (R685). -/
structure GyFlow where
  sent : Nat := 0                     -- SEQ of the last frame sent
  got : Nat := 0                      -- highest SEQ received in order
  acked : Nat := 0                    -- highest SEQ acknowledged by the peer
  unacked : List (Nat × List Byte) := [] -- frames in flight, oldest first, as sent
  queue : List GyPiece := []          -- frames that wait for the window of 64
  asm : Nat := 0                      -- bytes of the message being received
  resends : Nat := 0                  -- resends without progress
  since : W64 := 0                    -- TIMEBASE of the last progress
  ackDue : Bool := false              -- frames received that no frame sent has acknowledged
  ackSince : W64 := 0
  deriving DecidableEq, Repr

/-- An open operator session (R688 to R692). -/
structure GySession where
  id : BitVec 32
  slot0 : Nat                         -- slot of role 0, hub to operator
  slot1 : Nat                         -- slot of role 1, operator to hub
  ski : List Byte := []
  mgmt : GyFlow := {}
  update : GyFlow := {}
  last : W64 := 0                     -- TIMEBASE of the last accepted operator frame
  deriving DecidableEq, Repr

/-- A handshake that waits for its GY_FINISH (R689, R690). -/
structure GyShake where
  id : BitVec 32
  holder : Nat
  h1 : List Byte
  leafP384 : List Byte
  leafMldsa : List Byte
  ski : List Byte
  time : W64
  flow : GyFlow := {}                 -- its frames, which carry its SESSION (R678, R685)
  deriving DecidableEq, Repr

/-- An open upload (R701); in ROM recovery it has no session. -/
structure Upload where
  kind : BitVec 2
  bytes : Nat
  sdigest : List Byte
  received : Nat := 0
  session : Option (BitVec 32) := none
  deriving DecidableEq, Repr

/-- A queue 68 command that a session awaits (R694). -/
structure GyWait where
  session : BitVec 32
  slot : Nat
  deriving DecidableEq, Repr

/-- A GY_REPORT: it waits for mailbox 76, or its request has gone to Keeper, or its report is being read back (R695). -/
structure GyReport where
  session : BitVec 32
  request : List Byte
  addr : Nat := 0
  sent : Bool := false
  answer : List Byte := []            -- the RPT_RSP
  deriving DecidableEq, Repr

/-- A frame that waits for an egress lane. -/
structure GyEntry where
  frame : List Byte
  own : Bool                          -- the station's own
  enum : Option (BitVec 8) := none    -- an ENUM frame: COUNT as it arrived (R680)
  deriving DecidableEq, Repr

/-- An egress lane's scheduler (R684). Its groups are 0 for classes 1 and 4, 1 for trace and 2 for update. -/
structure GyLane where
  room : Int := 25000                 -- bytes of its time that the row has left; below zero the last frame runs into the next row
  link : List GyEntry := []           -- link-control frames
  linkGap : Nat := 64                 -- cells since the last of them, at most 64
  fwd : SMap (List GyEntry) := []     -- per group: forwarded frames
  run : SMap Nat := []                -- per group: forwarded frames since one of the station's own
  turn : Nat := 0                     -- the group whose round it is
  credited : Bool := false            -- that group has its quantum of this round
  deficit : SMap Nat := []            -- per group, cells
  deriving DecidableEq, Repr

/-- The Geyser port, its sessions and the upload. -/
structure Gy where
  lanes : SMap GyLane := []
  ownQ : SMap (List GyEntry) := []    -- per group: the station's own frames, which either lane may take
  traceEn : Bool := false             -- GY_CTL
  fiSeed : BitVec 32 := 1
  station : BitVec 8 := 0xFF          -- GY_STAT
  lock : BitVec 2 := 0
  lockLost : SMap (Option W64) := [(0, some 0), (1, some 0)] -- per lane: TIMEBASE since which it is without lock
  lossTold : BitVec 2 := 0            -- the 1 ms report of the present loss has been made
  fi : W64 := 0                       -- GY_FI
  fiSecond : Nat := 0                 -- second of TIMEBASE at the last decrement
  lfsr : BitVec 32 := 1
  recFlow : GyFlow := {}              -- class 4, station pair
  traceSeq : SMap Nat := []           -- per channel
  sessions : List GySession := []
  shakes : List GyShake := []
  nextId : Nat := 0                   -- sessions and handshakes named so far
  upload : Option Upload := none
  waits : List GyWait := []
  reports : List GyReport := []       -- oldest first; only the first can be in progress
  activateAt : Option W64 := none     -- UPD_ACTIVATE answered, ACTIVATE due (R707)
  activateBy : BitVec 32 := 0          -- the session whose UPD_ACTIVATE was answered
  activateSeq : Nat := 0              -- SEQ of that answer's last frame
  hello : GyFlow := {}                -- GY_HELLO and its refusals, SESSION 0
  doomed : List Nat := []             -- slots of sessions that a warm reset ended, which Keeper erases before READY (R691)
  loopAt : Option W64 := none         -- R76: both lanes trained in loopback
  ringAt : Option W64 := none         -- R80: BYPASS_N rose
  retryAt : Option W64 := none        -- R80: failed, waiting for its retry
  cntTx : BitVec 48 := 0
  cntRx : BitVec 48 := 0
  cntFwd : BitVec 48 := 0
  cntDrop : BitVec 48 := 0
  cntHops : BitVec 48 := 0
  cntTrace : BitVec 48 := 0
  cntFiDrop : BitVec 48 := 0
  cntFiCorrupt : BitVec 48 := 0
  deriving DecidableEq, Repr

/-! ### The machine -/

/-- The state of the block and the queue of waiting commands. -/
structure State where
  pending : List Instr := []
  out : List Output := []             -- what the block has sent, oldest first
  freeCount : Nat := 0                -- index of the next free value (the model's own)
  own : List OwnReq := []             -- outstanding requests of the block
  bnd : Bnd := {}
  cmd : Cmd := {}
  parts : SMap Part := []
  vent : Vent := {}
  snt : Snt := {}
  fum : Fum := {}
  guard : Guard := {}
  skn : Skein := {}
  otp : Otp := {}
  lc : Lc := {}
  host : HostUnit := {}
  wg : Wg := {}
  fl : Flash := {}
  att : Att := {}
  dig : Dig := {}
  pke : Pke := {}
  lnk : Link := {}
  co : Co := {}
  re : RowEngine := {}
  gov : Gov := {}
  gy : Gy := {}
  deriving DecidableEq, Repr

/-- The machine right after the always-on domain has powered up: POR_N low, stage CO0, every register at its Cold column. -/
def State.reset : State := {}

end Sys2Proof.Machine
end

