-- ==== Sys2Proof/Machine/Drbg.lean ====
section
/-! DEFINITION. The random source: the health tests on the noise samples (R292) and CTR_DRBG on AES-256 with the derivation function of
SP 800-90A (R295, R296). The samples themselves are free values. -/
namespace Sys2Proof.Machine

/-! ### Health tests (R292) -/

/-- Cutoffs of the repetition count and adaptive proportion tests, and the window of the latter. -/
def repetitionCutoff : Nat := 28
def proportionCutoff : Nat := 686
def proportionWindow : Nat := 1024

/-- Take one raw sample into both tests. -/
def Health.sample (h : Health) (b : Bool) : Health :=
  let h := { h with run := if h.last = some b then h.run + 1 else 1, last := some b }
  if h.left = 0 then { h with first := b, same := 1, left := proportionWindow - 1 }
  else { h with same := if b = h.first then h.same + 1 else h.same, left := h.left - 1 }

/-- The test that has failed: `some false` the repetition count, `some true` the adaptive proportion test. -/
def Health.failed (h : Health) : Option Bool :=
  if repetitionCutoff ≤ h.run then some false else if proportionCutoff ≤ h.same then some true else none

/-- Test samples in order up to the first failure. -/
def Health.samples : Health → List Bool → Health × Option Bool
  | h, [] => (h, none)
  | h, b :: l =>
    let h := h.sample b
    match h.failed with
    | some t => ({}, some t)
    | none => Health.samples h l

/-! ### CTR_DRBG (SP 800-90A 10.2.1, 10.3.2) -/

/-- The counter block after `v`. -/
def ctrNext (v : W128) : W128 := swap128 (swap128 v + 1)

/-- `n` output blocks after counter `v`, and the last counter. -/
def ctrBlocks (key : Key256) : Nat → W128 → List Byte × W128
  | 0, v => ([], v)
  | n + 1, v =>
    let v := ctrNext v
    let r := ctrBlocks key n v
    (leBytes 16 (aes256 key v) ++ r.1, r.2)

/-- CTR_DRBG_Update with 48 bytes of provided data. -/
def Drbg.update (d : Drbg) (data : List Byte) : Drbg :=
  let t := List.zipWith (· ^^^ ·) (ctrBlocks d.key 3 d.v).1 data
  { d with key := ofLeBytes 256 (t.take 32), v := ofLeBytes 128 (t.drop 32) }

/-- BCC: the chained encryption of blocks. -/
def bcc (key : Key256) (bs : List W128) : W128 := bs.foldl (fun c b => aes256 key (c ^^^ b)) 0

/-- Block_Cipher_df to 48 bytes. -/
def blockDf (input : List Byte) : List Byte :=
  let s := beBytes 4 (BitVec.ofNat 32 input.length) ++ beBytes 4 (48 : BitVec 32) ++ input ++ [0x80]
  let k : Key256 := ofLeBytes 256 ((List.range 32).map (BitVec.ofNat 8))
  let t := (List.range 3).flatMap fun i => leBytes 16 (bcc k (ofLeBytes 128 (beBytes 4 (BitVec.ofNat 32 i)) :: blocks16 s.length s))
  let key : Key256 := ofLeBytes 256 (t.take 32)
  let x1 := aes256 key (ofLeBytes 128 (t.drop 32))
  let x2 := aes256 key x1
  leBytes 16 x1 ++ leBytes 16 x2 ++ leBytes 16 (aes256 key x2)

/-- Instantiate instance `i` from 512 entropy samples and 256 nonce samples (R295). -/
def Drbg.start (i : Nat) (now : W64) (entropy : BitVec 512) (nonce : BitVec 256) : Drbg :=
  ({ ready := true, reqs := 0, lastReseed := now } : Drbg).update
    (blockDf (leBytes 64 entropy ++ leBytes 32 nonce ++ [BitVec.ofNat 8 i] ++ leBytes 8 now))

/-- Reseed from 512 samples. -/
def Drbg.reseed (d : Drbg) (now : W64) (entropy : BitVec 512) : Drbg :=
  { d.update (blockDf (leBytes 64 entropy)) with reqs := 0, lastReseed := now }

/-- A reseed comes before the next request (R296). -/
def Drbg.stale (d : Drbg) (now : W64) : Bool := 65536 ≤ d.reqs.toNat || d.lastReseed.toNat / 1000 + 1000000 ≤ now.toNat / 1000

/-- Serve a request for `n` bytes. -/
def Drbg.generate (d : Drbg) (n : Nat) : List Byte × Drbg :=
  let r := ctrBlocks d.key ((n + 15) / 16) d.v
  (r.1.take n, { ({ d with v := r.2 }).update (List.replicate 48 0) with reqs := d.reqs + 1 })

/-- A request with the reseed that R296 puts before it. -/
def Drbg.request (d : Drbg) (now : W64) (resist : Bool) (entropy : BitVec 512) (n : Nat) : List Byte × Drbg :=
  (if resist || d.stale now then d.reseed now entropy else d).generate n

end Sys2Proof.Machine
end

