-- ==== Sys2Proof/Machine/Codes.lean ====
section
/-! DEFINITION. Status codes and unit identifiers (R102 to R105, R626), each with the number its chapter's table gives. -/
namespace Sys2Proof.Machine.St
open Sys2Proof

def ok : Status := 0x0000
def cmdDescriptor : Status := 0x0101
def cmdOpcode : Status := 0x0102
def cmdFamilyDenied : Status := 0x0103
def cmdDomain : Status := 0x0104
def cmdFrozen : Status := 0x0105
def cmdRestarted : Status := 0x0106
def cmdAborted : Status := 0x0107
def cmdRetry : Status := 0x0108
def cmdDeferred : Status := 0x0109
def lengthShort : Status := 0x010A
def lengthLong : Status := 0x010B
def knotRange : Status := 0x010C
def knotOwner : Status := 0x010D
def knotState : Status := 0x010E
def knotOverflow : Status := 0x010F
def knotFull : Status := 0x0110
def knotMailbox : Status := 0x0111

end Sys2Proof.Machine.St
end

