-- ==== Sys2Proof/Machine/Ops.lean ====
section
/-! DEFINITION. The operations that the units share: free values, the Sinter log, reports to Vent, the command processor's flights
and completions, doorbells, requests of the block's own. -/
namespace Sys2Proof.Machine

/-- TIMEBASE as a number of nanoseconds. -/
def State.now (s : State) : Nat := s.bnd.timebase.toNat

/-- The row in progress. -/
def State.row (s : State) : Nat := s.now / 1000

/-- The next free value of width `w`; the step advances the counter it is indexed by (log entry 10). -/
def State.draw (w : Nat) (s : State) : BitVec w := Config.free s.freeCount w

/-- `s` with `n` free values consumed. -/
def State.drawn (s : State) (n : Nat) : State := { s with freeCount := s.freeCount + n }

/-- The `i`-th free value from the counter. -/
def State.drawAt (w : Nat) (s : State) (i : Nat) : BitVec w := Config.free (s.freeCount + i) w

/-- Something the block sends out. -/
def State.emit (s : State) (o : Output) : State := { s with out := s.out ++ [o] }

/-! ### The Sinter log (R642, R643) -/

/-- Entries of the Sinter ring. -/
def sntSize : Nat := 2097152

/-- Write an entry at PROD. -/
def Snt.push (x : Snt) (e : SntEntry) : Snt :=
  { x with ring := SMap.set {} x.ring x.prod.toNat e, prod := x.prod + 1, pend := x.pend + 1 }

/-- Append under R643: a full ring loses the entry; after a loss appends resume only with two free entries, the loss event first
(`fill` is the P1 that no rule gives it). -/
def Snt.append (x : Snt) (e : SntEntry) (fill : W64) : Snt :=
  if x.lostSince = 0 ∧ x.pend < sntSize then x.push e
  else if 0 < x.lostSince ∧ x.pend + 2 ≤ sntSize then
    { (x.push { time := e.time, code := 0x0D0000C9, dom := 127, p0 := BitVec.ofNat 64 x.lostSince, p1 := fill }).push e with lostSince := 0 }
  else { x with lost := satAdd x.lost 1, lostSince := x.lostSince + 1 }

/-- The class of an event (R104). -/
def SntEntry.cls (e : SntEntry) : Nat := e.code.toNat / 2 ^ 24
/-- An event of the cast-on chapter (R522). -/
def SntEntry.castOn (e : SntEntry) : Bool := e.code.toNat / 16 = 0x0F00004

/-- Before the log accepts entries, at most 64 OTP events and 32 cast-on events wait, and every other event besides (R383, R509; log entry 17). -/
def Snt.wait (x : Snt) (e : SntEntry) : Snt :=
  let held := (x.queue.filter fun q => q.cls = e.cls ∧ q.castOn = e.castOn).length
  if e.cls = 8 ∧ 64 ≤ held then { x with otpOver := x.otpOver + 1, otpOverAt := if x.otpOver = 0 then e.time else x.otpOverAt }
  else if e.castOn ∧ 32 ≤ held then { x with coOver := x.coOver + 1, coOverAt := if x.coOver = 0 then e.time else x.coOverAt }
  else { x with queue := x.queue ++ [{ e with flags := e.flags ||| 1 }] }

/-- Append an entry. -/
def State.logEntry (s : State) (e : SntEntry) : State :=
  if s.snt.opened then { s with freeCount := s.freeCount + 1, snt := s.snt.append e (s.draw 64) } else { s with snt := s.snt.wait e }

/-- Append an event now; a P0 or P1 that no rule gives is a free value (log entry 10). -/
def State.log (s : State) (code : BitVec 32) (unitId : UnitId := 0) (dom : BitVec 8 := 127) (p0 : Option W64 := none) (p1 : Option W64 := none)
    (flags : BitVec 8 := 0) : State :=
  (s.drawn 2).logEntry { time := s.bnd.timebase, code := code, unitId := unitId, dom := dom, flags := flags, p0 := p0.getD (s.draw 64),
                         p1 := p1.getD (s.drawAt 64 1) }

/-- An event with contents that a rule names and neither places nor codes (log entry 14). -/
def State.logItems (s : State) (code : BitVec 32) (items : List Nat) (unitId : UnitId := 0) (dom : BitVec 8 := 127) : State :=
  s.log code unitId dom (Config.eventWord code 0 items) (Config.eventWord code 1 items)

/-! ### Fumarole's own counters and the sample ring (R592, R593, R605, R608) -/

/-- Counter `i`: global counter g at g, counter k of partition d at 256 + 16d + k. -/
def Fum.cnt (x : Fum) (i : Nat) : FumCnt := SMap.get {} x.cnts i

/-- Add `n` to counter `i`. -/
def State.bump (s : State) (i n : Nat) : State :=
  let c := s.fum.cnt i
  { s with fum := { s.fum with cnts := SMap.set {} s.fum.cnts i { c with value := c.value + BitVec.ofNat 48 n, delta := c.delta + BitVec.ofNat 48 n } } }

/-- Add to counter `k` of the partition that `d` names, if it names one. -/
def State.pcount (s : State) (d : Nat) (k : Nat) (n : Nat := 1) : State := if d < 64 then s.bump (256 + 16 * d + k) n else s

/-- Records of the sample ring. -/
def ringSize : Nat := 3145728

/-- The next index of a ring. -/
def ringNext (size : Nat) (i : BitVec 22) : BitVec 22 := if i.toNat + 1 < size then i + 1 else 0

/-- Write a record at PROD. -/
def Fum.push (x : Fum) (r : BitVec 512) : Fum :=
  { x with ring := SMap.set 0 x.ring x.prod.toNat r, prod := ringNext ringSize x.prod, used := x.used + 1 }

/-- The 16-byte header of a sample record (R605). -/
def ringHeader (time : W64) (type group : Nat) (flags rows : BitVec 16) (site : Nat) (loss : BitVec 8) : List Byte :=
  leBytes 8 time ++ [BitVec.ofNat 8 type, BitVec.ofNat 8 group] ++ leBytes 2 flags ++ leBytes 2 rows ++ [BitVec.ofNat 8 site, loss]

/-- A record from its header and payload; missing payload bytes are zero. -/
def ringRecord (bs : List Byte) : BitVec 512 := ofLeBytes 512 (bs.take 64)

/-- Append a sample record while RING_EN is 1: a full ring drops it; after a drop a GAP record comes first (R608, log entry 25). The ROWS
field of a GAP record is open. -/
def State.sample (s : State) (r : BitVec 512) : State :=
  let x := s.fum
  if ¬ x.ringEn then s
  else if x.gap = 0 ∧ x.used < ringSize then { s with fum := x.push r }
  else if 0 < x.gap ∧ x.used + 2 ≤ ringSize then
    let g := ringRecord (ringHeader s.bnd.timebase 4 0xFF 0 (s.draw 16) 0xFF 0 ++ leBytes 8 (BitVec.ofNat 64 x.gap))
    (s.drawn 1 |> fun s => { s with fum := { (x.push g).push r with gap := 0 } })
  else
    let s' := { s with fum := { x with lost := x.lost + 1, gap := x.gap + 1 } }
    if x.gap = 0 then s'.log 0x0D000081 else s'

/-! ### Units, pools and Vent -/

/-- The identifier of unit `idx` of kind `kind` (R626). -/
def unitOf (kind idx : Nat) : UnitId := BitVec.ofNat 16 (kind * 2048 + idx)
/-- The unit of the row engine and governor (R626). -/
def govUnit : UnitId := unitOf 12 0

/-- The kind of a unit (R626). -/
def unitKind (u : UnitId) : Nat := u.toNat / 2048
/-- The index of a unit within its kind (R626). -/
def unitIdx (u : UnitId) : Nat := u.toNat % 2048

/-- External kinds, which Vent hands to Steward (R632). -/
def unitExternal (u : UnitId) : Bool := [13, 14, 15, 16, 18, 31].contains (unitKind u)

/-- The unit exists in this configuration (R626, R3). -/
def unitConfigured (u : UnitId) : Bool :=
  let i := unitIdx u
  match unitKind u with
  | 1 => i < Config.slices
  | 2 => i / 8 < Config.slices && i % 8 < 6
  | 3 => i / 16 < Config.slices && i % 16 < 9
  | 4 => i < Config.slices
  | 5 => i < 34
  | 6 => i < 17
  | 7 => i < Config.lanes
  | 8 => i < 5
  | 9 => i < 5
  | 10 => i = 0
  | 11 => i = 0
  | 12 => i = 0
  | 13 => i < Config.sites
  | 14 => i < 16
  | 15 => i < Config.regions
  | 16 => i < Config.sensors
  | 17 => i < 2
  | 18 => i = 0
  | 19 => i = 0
  | 31 => true
  | _ => false

/-- The pool of a unit: kind and group. Units without a spare are pools of one (R626). -/
def unitPool (u : UnitId) : Nat × Nat :=
  match unitKind u with
  | 2 => (2, unitIdx u / 8)
  | 3 => (3, unitIdx u / 16)
  | 5 => (5, 0) | 6 => (6, 0) | 8 => (8, 0) | 9 => (9, 0)
  | k => (k, unitIdx u)

/-- The spares of a unit's pool, lowest identifier first (R626). -/
def poolSpares (u : UnitId) : List UnitId :=
  let i := unitIdx u
  match unitKind u with
  | 2 => [unitOf 2 (i / 8 * 8 + 5)]
  | 3 => [unitOf 3 (i / 16 * 16 + 8)]
  | 5 => [unitOf 5 32, unitOf 5 33]
  | 6 => [unitOf 6 16]
  | 8 => [unitOf 8 4]
  | 9 => [unitOf 9 4]
  | _ => []

/-- The record of a unit. A spare that has never been used is in state 1. -/
def Vent.unitRec (v : Vent) (u : UnitId) : UnitRec :=
  let r := SMap.get {} v.units u.toNat
  if r.state = 0 ∧ r.logical = none ∧ (poolSpares u).contains u then { r with state := 1 } else r

/-- Replace the record of a unit. -/
def Vent.setUnit (v : Vent) (u : UnitId) (r : UnitRec) : Vent := { v with units := SMap.set {} v.units u.toNat r }

/-- The count of a pool's logical numbers, `n` at full strength (R640). -/
def Vent.count (v : Vent) (kind n : Nat) : Nat := n - SMap.get 0 v.shrunk kind

/-- Spares of the unit's pool that stand ready. -/
def Vent.freeSpares (v : Vent) (u : UnitId) : List UnitId :=
  (poolSpares u).filter fun p => (v.unitRec p).state = 1 ∧ p ≠ u ∧ ¬ (v.tests.any fun t => t.unitId = p) ∧ ¬ (v.copying ++ v.copyDone).any fun c => c.2 = p

/-- A spare that the next seam frees for `t`: that of a unit returning to service, or of a requested test that gives it up (R637). -/
def Vent.yields (v : Vent) (t : Test) : Bool :=
  v.tests.any fun q => q.spare.isSome && unitPool q.unitId = unitPool t.unitId &&
    (q.phase = .passed || (q.byCmd.isSome && !q.fence && (t.byCmd.isNone || t.fence)))

/-- A seam can put a spare in the place of the unit of `t`. -/
def Vent.replaces (v : Vent) (t : Test) : Bool := !(v.freeSpares t.unitId).isEmpty || v.yields t

/-- A lane of the public-key engine waits for its spare: no operation is taken up before that seam (R365). -/
def Vent.pkeDarnPending (v : Vent) : Bool := v.tests.any fun t => t.phase = .waiting && unitKind t.unitId = 9 && v.replaces t

/-- Keeper runs `n` operations of the public-key engine to their end on the sets `sets`, whose constants are then valid (R352). -/
def State.pkeRan (s : State) (sets : List Nat) (n : Nat) : State :=
  { s with pke := { s.pke with cntOps := s.pke.cntOps + BitVec.ofNat 48 n, constValid := sets.foldl (fun v i => putBit v i true) s.pke.constValid } }

/-- The lane of the public-key engine that an error of the engine is laid to: that with logical number 0, or the first one in service. -/
def Vent.pkeLane (v : Vent) : UnitId :=
  let up := ((List.range 5).map (unitOf 9)).filter fun u => (v.unitRec u).state = 0
  (up.find? fun u => ((v.unitRec u).logical).getD (unitIdx u) = 0).getD (up.headD (unitOf 9 0))

/-- A test of `u` that an error, a storm or a FAULT outcome asked for is waiting or running. -/
def Vent.testing (v : Vent) (u : UnitId) : Bool := v.tests.any fun t => t.unitId = u && t.byCmd.isNone && t.phase ≠ .passed

/-- Ask for a targeted self-test of `u` (R627, R631, R633): a unit has one such test at a time, an unconfigured, retired or lasting one none. The
test of an external kind is handed to Steward (R632). -/
def Vent.requestTest (v : Vent) (u : UnitId) (cls : BitVec 8) : Vent :=
  if unitExternal u then { v with handed := v.handed ++ [u] }
  else if unitConfigured u ∧ ¬ v.testing u ∧ (v.unitRec u).state ≠ 5 ∧ ¬ (v.unitRec u).lasting
  then { v.setUnit u { v.unitRec u with cause := some cls } with tests := v.tests ++ [{ unitId := u, byCmd := none, was := (v.unitRec u).state }] } else v

/-- What an accepted report starts beyond its coalescing (R627). `row` is the row in progress. -/
def Vent.reportStarts (v : Vent) (row : Nat) (cls : BitVec 8) (peer : UnitId) : Vent :=
  match cls.toNat with
  | 1 =>
    let r := v.unitRec peer
    let rows := (r.eccRows ++ [BitVec.ofNat 64 row]).filter fun x => row < x.toNat + 65536
    if 16 ≤ rows.length then (v.setUnit peer { r with eccRows := [] }).requestTest peer cls
    else v.setUnit peer { r with eccRows := rows }
  | 2 | 3 | 4 | 5 | 6 | 7 | 12 => v.requestTest peer cls
  | 11 => { v with stallFlag := true, hangs := v.hangs + 1 }
  | _ => v

/-- Accept a report: coalesce it within the row by (CLASS, PEER, CODE) (R629) and start what R627 gives. -/
def Vent.accept (v : Vent) (time : W64) (reporter : BitVec 6) (cls : BitVec 8) (peer : UnitId) (code : BitVec 16) (dom : Dom) (detail : W64) : Vent :=
  let v := { v with accepted := v.accepted + 1 }
  let v :=
    if v.table.any (fun r => r.cls = cls ∧ r.peer = peer ∧ r.code = code) then
      { v with table := v.table.map fun r => if r.cls = cls ∧ r.peer = peer ∧ r.code = code then { r with count := satAdd r.count 1 } else r }
    else if v.table.length < 256 then
      { v with table := v.table ++ [{ cls := cls, peer := peer, code := code, reporter := reporter, dom := dom, detail := detail, time := time, count := 1 }] }
    else { v with overflow := satAdd v.overflow 1, overflowRow := true }
  v.reportStarts (time.toNat / 1000) cls peer

/-- OPTIME now: that of the latest commit and the whole seconds since (R437). -/
def State.optime (s : State) : Nat := match s.fl.optimeAt with | some t => s.fl.optime + (s.now - t.toNat) / 1000000000 | none => s.fl.optime

/-- The transient classifications of `u` since it first appeared: those of its latest entry and those since (R644). -/
def State.transientCount (s : State) (u : UnitId) : Nat :=
  ((s.fl.defects.filter fun d => d.unitId = u).getLast?.map fun d => d.transients.toNat).getD 0 + (s.vent.unitRec u).fresh

/-- An entry of the defect ledger (R644, R645): the newest 1,000 stay. A CLASS or number that no rule gives is a free value. -/
def State.defect (s : State) (u : UnitId) (st : BitVec 8) (number : Option Nat) : State :=
  let r := s.vent.unitRec u
  let e : Defect := { unitId := u, state := st, cls := r.cause.getD (s.draw 8), number := (number.map (BitVec.ofNat 32 ·)).getD (s.drawAt 32 1)
                      optime := BitVec.ofNat 32 s.optime, transients := BitVec.ofNat 16 (s.transientCount u) }
  let l := s.fl.defects ++ [e]
  { s with
    freeCount := s.freeCount + 2
    vent := s.vent.setUnit u { r with fresh := 0 }
    fl := { s.fl with defects := l.drop (l.length - 1000), defectsDropped := s.fl.defectsDropped || 1000 < l.length, defectsDue := true } }

/-- Work reached the units that `p` names: a deferred test of one waits again for a full row without work (R636). -/
def State.worked (s : State) (p : UnitId → Bool) : State :=
  { s with vent := { s.vent with tests := s.vent.tests.map fun t => if t.phase = .deferred ∧ p t.unitId then { t with asked := s.bnd.timebase } else t } }

/-- The units of slice `n`: its datapath, its controller path, its AES cores and its ways (R626). -/
def sliceUnit (n : Nat) (u : UnitId) : Bool :=
  match unitKind u with
  | 1 | 4 => unitIdx u = n
  | 2 => unitIdx u / 8 = n
  | 3 => unitIdx u / 16 = n
  | _ => false

/-- The units that a request at slice `n` may work: those of the slice, and every Caldera bank, since no rule says which bank holds what. -/
def sliceWork (n : Nat) (u : UnitId) : Bool := sliceUnit n u || unitKind u = 5

/-- The derivation core takes new work: it has no fence and no test runs on it (R634, R636). -/
def State.deriveUp (s : State) : Bool := (s.vent.unitRec (unitOf 10 0)).state = 0

/-- A report to Vent; the first report of a row beyond 256 keys appends event 0x0D00_00C8 (R629). -/
def State.ventFrom (s : State) (reporter : BitVec 6) (cls : BitVec 8) (peer : UnitId) (code : BitVec 16) (dom : Dom) (detail : W64) : State :=
  let v := s.vent.accept s.bnd.timebase reporter cls peer code dom detail
  let s' := { s with vent := v }
  if v.overflowRow ∧ ¬ s.vent.overflowRow then s'.log 0x0D0000C8 else s'

/-- A report by a unit of the block, reporter 32 (R628). -/
def State.report (s : State) (cls : BitVec 8) (peer : UnitId) (code : BitVec 16) (dom : Dom := 127) (detail : W64 := 0) : State :=
  s.ventFrom 32 cls peer code dom detail

/-! ### Descriptors (R88) -/

def Desc.opcode (d : Desc) : BitVec 8 := field d 0 8
def Desc.dom (d : Desc) : Dom := field d 8 7
def Desc.flags (d : Desc) : BitVec 32 := field d 32 32
def Desc.irq (d : Desc) : Bool := bit d 32
def Desc.fence (d : Desc) : Bool := bit d 33
def Desc.mark (d : Desc) : Bool := bit d 34
def Desc.layer (d : Desc) : BitVec 24 := field d 64 24
def Desc.operator (d : Desc) : BitVec 16 := field d 96 16
def Desc.step (d : Desc) : BitVec 32 := field d 128 32
def Desc.length (d : Desc) : BitVec 32 := field d 160 32
def Desc.src0 (d : Desc) : W64 := field d 192 64
def Desc.src1 (d : Desc) : W64 := field d 256 64
def Desc.dst (d : Desc) : W64 := field d 320 64
def Desc.arg (d : Desc) : W128 := field d 384 128
/-- An `n`-bit field of ARG. -/
def Desc.argField (d : Desc) (lo n : Nat) : BitVec n := field d (384 + lo) n

/-! ### Queues, flights, completions (R84 to R101) -/

/-- The owner classes of the submission queues (R84). -/
inductive QClass where
  | part | host | steward | keeper
  deriving DecidableEq, Repr

/-- The class of queue `q` (R84). -/
def qClass (q : Nat) : QClass := if q < 64 then .part else if q < 68 then .host else if q < 70 then .steward else .keeper

/-- Queue `q`. -/
def Cmd.queue (c : Cmd) (q : Nat) : Queue := SMap.get {} c.queues q
def Cmd.setQueue (c : Cmd) (q : Nat) (x : Queue) : Cmd := { c with queues := SMap.set {} c.queues q x }
/-- Descriptor slot `i` of queue `q`. -/
def Cmd.slot (c : Cmd) (q i : Nat) : Desc := SMap.get 0 c.slots (16 * q + i)

/-- The command that holds tag `t`. -/
def Cmd.flight (c : Cmd) (t : Tag) : Option Flight := c.flights.find? fun f => f.tag = t
/-- Tags held by queue `q` (SQ_STATUS.TAGS_HELD). -/
def Cmd.tagsHeld (c : Cmd) (q : Nat) : Nat := (c.flights.filter fun f => f.queue = q).length
/-- Slot `i` of queue `q` is held (SQ_SLOTS.HELD). -/
def Cmd.held (c : Cmd) (q i : Nat) : Bool := (c.queue q).order.contains i || c.flights.any fun f => f.queue = q && f.slot = i

/-- Free entries of the completion ring of queue `q`: the ring has 32, HEAD and TAIL carry a pass bit. -/
def Cmd.ringFree (c : Cmd) (q : Nat) : Nat := 32 - ((c.queue q).tail - (c.queue q).head).toNat
/-- Entries reserved for the queue's dispatched slots (R93). -/
def Cmd.reserved (c : Cmd) (q : Nat) : Nat := ((c.flights.filter fun f => f.queue = q).map (·.need)).sum

/-- What a completion record says beyond its descriptor. -/
structure Comp where
  status : Status
  tag : Tag := 0
  interim : Bool := false
  reissued : Bool := false
  notag : Bool := false
  result : W64 := 0
  seen : BitVec 32 := 0

/-- The 32-byte completion record (R96). -/
def compRecord (k : Comp) (phase : Bool) (q slot : Nat) (d : Desc) (time : W64) : BitVec 256 :=
  BitVec.ofNat 256 (packN [(0, k.status.toNat), (16, k.tag.toNat), (25, slot), (29, b2n k.interim), (30, b2n k.reissued), (31, b2n phase),
    (32, (Desc.layer d).toNat), (56, q), (64, (Desc.operator d).toNat), (80, (Desc.opcode d).toNat), (88, (Desc.dom d).toNat), (95, b2n k.notag),
    (96, (Desc.step d).toNat), (128, k.result.toNat), (192, k.seen.toNat), (224, time.toNat % 2 ^ 32)])

/-- Write a completion record at TAIL and advance TAIL (R96). -/
def Cmd.writeRecord (c : Cmd) (time : W64) (q slot : Nat) (d : Desc) (k : Comp) : Cmd :=
  let u := c.queue q
  let r := compRecord k (!(bit u.tail 5)) q slot d time
  { c.setQueue q { u with
      tail := u.tail + 1
      refused := if k.notag then satAdd u.refused 1 else u.refused
      irqPending := u.irqPending || Desc.irq d } with
    ring := SMap.set 0 c.ring (32 * q + u.tail.toNat % 32) r
    taken := if c.awaited.contains (q, slot) then c.taken ++ [(q, slot, r)] else c.taken
    awaited := if k.interim then c.awaited else c.awaited.filter (· ≠ (q, slot)) }

/-- The records of an awaited command once the last has been written; its reader advances HEAD past them. -/
def Cmd.takeRecords (c : Cmd) (q slot : Nat) : Option (List (BitVec 256) × Cmd) :=
  let l := c.taken.filter fun e => e.1 = q ∧ e.2.1 = slot
  if l.isEmpty ∨ c.awaited.contains (q, slot) then none
  else some (l.map (·.2.2), { c.setQueue q { c.queue q with head := (c.queue q).head + BitVec.ofNat 6 l.length } with taken := c.taken.filter fun e => ¬ (e.1 = q ∧ e.2.1 = slot) })

/-- The command of tag `t` leaves the machine; its slot and tag are free. -/
def Cmd.drop (c : Cmd) (t : Tag) : Cmd := { c with flights := c.flights.filter fun f => f.tag ≠ t }

/-- A work marker as a marker post lays it out (R597). -/
def markerOf (d : Desc) : W128 :=
  BitVec.ofNat 128 (packN [(0, (Desc.step d).toNat), (32, (Desc.layer d).toNat), (64, (Desc.operator d).toNat), (80, (Desc.dom d).toNat)])

/-- The 10 bytes of a marker in a payload (R606). -/
def markerBytes (m : W128) : List Byte := leBytes 4 (field m 0 32) ++ leBytes 3 (field m 32 24) ++ [(field m 80 7).setWidth 8] ++ leBytes 2 (field m 64 16)

/-- What Fumarole takes from a completion: counters 49, 50 and k = 10, and a WORK record for FLAGS.MARK (R592, R606). ROWS of a WORK record
is open. -/
def State.countComplete (s : State) (q : Nat) (d : Desc) (dispatched : W64) (seen : BitVec 32) (status : Status) (notag : Bool) (work : Nat := 0) : State :=
  let s := (s.bump 49 1).pcount (Desc.dom d).toNat 10
  let s := if notag then s.bump 50 1 else s
  if Desc.mark d ∧ s.fum.ringEn then
    (s.drawn 1).sample (ringRecord (ringHeader s.bnd.timebase 2 0xFF 0 (s.draw 16) 0xFF 0 ++ markerBytes (markerOf d) ++ leBytes 2 status ++
      [BitVec.ofNat 8 q, Desc.opcode d, 0, 0] ++ leBytes 8 dispatched ++ leBytes 4 seen ++ [0, 0, 0, 0] ++ leBytes 8 (BitVec.ofNat 64 work)))
  else s

/-- Complete a command (R96): write its record, free its tag and slot. A RESULT that no rule gives is a free value (log entry 10). -/
def State.complete (s : State) (f : Flight) (status : Status) (result : Option W64 := none) : State :=
  let s := s.countComplete f.queue f.desc f.disp f.seen status false f.work
  { s with
    freeCount := if result = none then s.freeCount + 1 else s.freeCount
    cmd := (s.cmd.writeRecord s.bnd.timebase f.queue f.slot f.desc
      { status := status, tag := f.tag, reissued := f.reissued, result := result.getD (s.draw 64), seen := f.seen }).drop f.tag }

/-- Bytes received so far, for LENGTH_SEEN (R96). -/
def State.sawBytes (s : State) (t : Tag) (n : Nat) : State :=
  { s with cmd := { s.cmd with flights := s.cmd.flights.map fun g => if g.tag = t then { g with seen := BitVec.ofNat 32 n } else g } }

/-- An engine has done `n` blocks, chunks or operations for a command (R606). -/
def State.engineWork (s : State) (t : Tag) (n : Nat := 1) : State :=
  { s with cmd := { s.cmd with flights := s.cmd.flights.map fun g => if g.tag = t then { g with work := g.work + n } else g } }

/-- Replace the flight record of its tag. -/
def Cmd.setFlight (c : Cmd) (f : Flight) : Cmd := { c with flights := c.flights.map fun g => if g.tag = f.tag then f else g }

/-- Run `k` on the command that holds tag `t`, if it is one of function `op`; a tag that no such command holds runs nothing. -/
def State.withFlight (s : State) (t : Tag) (op : BitVec 8) (k : Flight → State → State) : State :=
  match s.cmd.flight t with
  | some f => if Desc.opcode f.desc = op then k f s else s
  | none => s

/-- Hide a detailed code from callers other than Keeper (R103): the class's generic refusal stands in its place. -/
def hideFor (q : Nat) (hidden : List Status) (st : Status) : Status :=
  if qClass q ≠ .keeper ∧ hidden.contains st then (st &&& 0xFF00) ||| 0x00FF else st

/-! ### Partitions -/

/-- Partition `d`. -/
def State.part (s : State) (d : Nat) : Part := SMap.get {} s.parts d
def State.setPart (s : State) (d : Nat) (p : Part) : State := { s with parts := SMap.set {} s.parts d p }

/-- Steward writes partition `d`'s budget field of the parameter page and asks for a commit of the page (R576, R577). -/
def State.budgetWrite (s : State) (d : Nat) (v : BitVec 16) : State :=
  let w := 0x148 + d / 4
  { s with re := { s.re with param := SMap.set 0 s.re.param w (putField (SMap.get 0 s.re.param w) (16 * (d % 4)) 16 v), paramReq := true } }
/-- The state of the partition that a domain names, none for domains 64 and 65. -/
def State.domState (s : State) (d : Dom) : Option PState := if d.toNat < 64 then some (s.part d.toNat).state else none

/-- Slice `n` is enabled: OTP_FEAT enables it and no lasting fault has retired it (R389, R640). -/
def State.sliceEnabled (s : State) (n : Nat) : Bool :=
  bit s.otp.sliceEn n && (s.vent.unitRec (unitOf 1 n)).state ≠ 5 && (s.vent.unitRec (unitOf 4 n)).state ≠ 5
/-- Lane `l` is enabled likewise. -/
def State.laneEnabled (s : State) (l : Nat) : Bool := bit s.otp.laneEn l && l < Config.lanes && (s.vent.unitRec (unitOf 7 l)).state ≠ 5

/-! ### Doorbells and messages -/

/-- Mailbox `m`. -/
def Cmd.mailbox (c : Cmd) (m : Nat) : Mailbox := SMap.get {} c.mailboxes m
def Cmd.setMailbox (c : Cmd) (m : Nat) (x : Mailbox) : Cmd := { c with mailboxes := SMap.set {} c.mailboxes m x }
/-- One direction of a mailbox. -/
def Mailbox.dir (x : Mailbox) (down : Bool) : MbDir := if down then x.down else x.up
def Mailbox.setDir (x : Mailbox) (down : Bool) (d : MbDir) : Mailbox := if down then { x with down := d } else { x with up := d }

/-- Set doorbells of one direction; a mailbox with EN 0 ignores them (R717). -/
def Cmd.ring1 (c : Cmd) (m : Nat) (down : Bool) (bits : BitVec 32) : Cmd :=
  let x := c.mailbox m
  if x.en then c.setMailbox m (x.setDir down { x.dir down with db := (x.dir down).db ||| bits }) else c

/-! ### Requests of the block's own (R38, R39) -/

/-- The request holds a transaction identifier. -/
def OwnReq.live (r : OwnReq) : Bool := r.sent && r.answer.isNone && !r.asleep

/-- The lowest TXID that no outstanding request uses. -/
def freeTxid (l : List OwnReq) : Nat :=
  ((List.range (l.length + 1)).find? fun i => ¬ l.any fun r => r.live && r.txid.toNat = i).getD 0

/-- The request waits for nothing but the port. -/
def OwnReq.due (r : OwnReq) : Bool := !r.sent && !r.behind

/-- Send the oldest waiting request while a transaction identifier is free (R38): `k` bounds them. -/
def State.pump : Nat → State → State
  | 0, s => s
  | k + 1, s =>
    let t := freeTxid s.own
    match s.own.findIdx? OwnReq.due with
    | none => s
    | some i =>
      if 4096 ≤ t then s
      else
        match s.own[i]? with
        | none => s
        | some r =>
          let r := { r with sent := true, txid := BitVec.ofNat 12 t, epoch := if r.dom.toNat < 64 then (s.part r.dom.toNat).epoch else 0 }
          State.pump k { s with own := s.own.set i r, out := s.out ++ [.nocReq r] }

/-- Issue a request of the block's own on the block port, with the epoch that the slices hold for the domain at issue. -/
def State.request (s : State) (p : Purpose) (op : BitVec 4) (addr : Addr) (dom : Dom) (data : Line := 0) (mask : BitVec 64 := BitVec.allOnes 64) : State :=
  State.pump 1 { s with own := s.own ++ [{ txid := 0, purpose := p, op := op, addr := addr, dom := dom, epoch := 0, mask := mask, data := data }] }

/-- Issue one request per (address, data) pair, in order. -/
def State.requestAll (s : State) (p : Purpose) (op : BitVec 4) (dom : Dom) : List (Addr × Line) → State
  | [] => s
  | (a, d) :: l => (s.request p op a dom d).requestAll p op dom l

/-- The lines that the bytes `a` to `a + n - 1` touch. -/
def linesOf (a n : Nat) : List Addr :=
  if n = 0 then [] else (List.range' (a / 64) ((a + n - 1) / 64 - a / 64 + 1)).map fun l => BitVec.ofNat 52 (64 * l)

/-- Read every line of a span. -/
def State.requestSpan (s : State) (p : Purpose) (dom : Dom) (a n : Nat) : State := s.requestAll p 0 dom ((linesOf a n).map fun l => (l, 0))

/-- One write of a span of bytes: the line, the operation, its data and BMASK. -/
structure PlainLine where
  addr : Addr
  op : BitVec 4
  data : Line
  mask : BitVec 64
  deriving DecidableEq, Repr

/-- The writes of bytes to a plain address: whole lines, and masked writes for the lines covered in part. -/
def plainLines (a : Nat) (bs : List Byte) : List PlainLine :=
  (linesOf a bs.length).map fun l =>
    let lo := max a l.toNat
    let n := min (a + bs.length) (l.toNat + 64) - lo
    let o := lo - l.toNat
    { addr := l, op := if n = 64 then 1 else 2, data := (ofLeBytes 512 ((bs.drop (lo - a)).take n)) <<< (8 * o), mask := BitVec.ofNat 64 ((2 ^ n - 1) * 2 ^ o) }

/-- Issue the writes of bytes to a plain address. -/
def State.plainWrite (s : State) (p : Purpose) (a : Nat) (bs : List Byte) : State :=
  (plainLines a bs).foldl (fun s w => s.request p w.op w.addr 65 w.data w.mask) s

/-- A write of command `t` that waits for the read of its line. -/
def PlainLine.behind (w : PlainLine) (t : Tag) : OwnReq :=
  { txid := 0, purpose := .cmd t, op := w.op, addr := w.addr, dom := 65, epoch := 0, mask := w.mask, data := w.data, behind := true }

/-- Write bytes to the plain destination of command `t`. Every line is read first, and the writes wait for the reads, so that a command that
does not complete OK can leave its destination as it was (R97; the manual does not say how: DESIGN CHOICE, log entry 46). -/
def State.plainOut (s : State) (t : Tag) (a : Nat) (bs : List Byte) : State :=
  let s := (plainLines a bs).foldl (fun s w => s.request (.save t) 0 w.addr 65) s
  { s with own := s.own ++ (plainLines a bs).map (·.behind t) }

/-- The requests of a purpose, in issue order. -/
def State.ownOf (s : State) (p : Purpose) : List OwnReq := s.own.filter fun r => r.purpose = p
/-- All of a purpose's requests have been answered. -/
def State.ownDone (s : State) (p : Purpose) : Bool := (s.ownOf p).all fun r => r.answer.isSome
/-- Forget a purpose's requests; one still outstanding is kept until its response comes. -/
def State.ownDrop (s : State) (p : Purpose) : State :=
  { s with own := (s.own.filter fun r => r.purpose ≠ p ∨ r.live).map fun r => if r.purpose = p then { r with purpose := .abandoned } else r }

/-- The reads of a plain destination have come: its writes go out. -/
def State.plainGo (s : State) (t : Tag) : State :=
  let s := { s with own := s.own.map fun r => if r.purpose = .cmd t then { r with behind := false } else r }
  State.pump s.own.length s

/-- A restore whose write is no longer outstanding may go out. -/
def State.restoreGo (s : State) : State :=
  { s with own := s.own.map fun r => if r.purpose = .restore ∧ ¬ s.own.any (fun w => w.purpose = .abandoned && w.live && w.addr = r.addr) then { r with behind := false } else r }

/-- The write that gives a line back its bytes `x`, behind the write `w` that it undoes. -/
def OwnReq.undo (w : OwnReq) (x : Line) : OwnReq :=
  { w with txid := 0, purpose := .restore, data := x, answer := none, sent := false, asleep := false, behind := true }

/-- Command `t` commits nothing: its requests are forgotten, and each line that one of its writes may have changed takes back the bytes read
before it (R97). -/
def State.ownUndo (s : State) (t : Tag) : State :=
  let saves := s.ownOf (.save t)
  let back := (s.ownOf (.cmd t)).filterMap fun w =>
    match (saves.find? fun r => r.addr = w.addr).bind (·.answer) with
    | some (.ok, x) => if w.sent then some (w.undo x) else none
    | _ => none
  let s := (s.ownDrop (.cmd t)).ownDrop (.save t)
  let s := { s with own := s.own ++ back }.restoreGo
  State.pump back.length s

/-- Command `t` ends with its requests: they are forgotten on OK, and undone on any other status (R97). -/
def State.ownEnd (s : State) (t : Tag) (ok : Bool) : State := if ok then (s.ownDrop (.cmd t)).ownDrop (.save t) else s.ownUndo t

/-- The bytes `a` to `a + n - 1` out of the lines that a purpose's reads returned. -/
def spanBytes (l : List OwnReq) (a n : Nat) : List Byte :=
  let m : Mem := l.foldl (fun m r => match r.answer with
    | some (.ok, x) => Mem.write 0 m (64 * (r.addr.toNat / 64)) (leBytes 64 x)
    | _ => m) []
  Mem.read 0 m a n

/-- The class 0x05 code of a response other than OK (R166): the response names it, but for REFUSED, whose code the slice gives (R167). -/
def respCode (r : Resp) (code : Status) : Status :=
  match r with
  | .ok => 0
  | .retry => if code = 0x0509 then 0x0509 else 0x050C
  | .staleEpoch => 0x0506
  | .memIntegrity => 0x0507
  | .frozen => 0x0508
  | .refused => if code.toNat / 256 = 5 then code else 0x0501

/-- The hidden codes of class 0x05 (R166). -/
def guardHidden : List Status := [0x0503, 0x0504, 0x0505]

/-- A start is under way: it can still fail (R494, R495). -/
def State.starting (s : State) : Bool :=
  s.bnd.porN && !s.bnd.ready && !s.co.halted && !s.bnd.recovery && !s.co.testHold && !s.co.rootprov && s.bnd.coStage ≠ 0

/-- The watchdog does not count: CO8, or a channel 0 erase or program in progress (R493, R494). -/
def State.wdogPaused (s : State) : Bool :=
  s.starting && (s.bnd.coStage = 8 || s.fl.run.any fun (r : FlRun) => r.chan = 0 && 2 ≤ r.op.toNat)

/-- Move TIMEBASE forward to `t` where it is earlier: an event that a rule places at a time brings that time (log entry 3). The cast-on
watchdog skips what passes while it is paused (R494). -/
def State.at (s : State) (t : Nat) : State :=
  { s with
    bnd := { s.bnd with timebase := if s.now < t then BitVec.ofNat 64 t else s.bnd.timebase }
    co := { s.co with wdogSkip := if s.wdogPaused then s.co.wdogSkip + (t - s.now) else s.co.wdogSkip } }

/-- Every slice and lane stays disabled in a halt and in ROM recovery (R500, R502). -/
def State.planeClosed (s : State) : Bool := s.co.halted || s.bnd.recovery

/-! ### Which register accesses are open (R520, R671) -/

/-- Before the first READY, in a halt, in ROM recovery and in test hold (R520). -/
def State.accessClosed (s : State) : Bool := !s.bnd.everReady || s.co.halted || s.bnd.recovery || s.co.testHold

/-- Class `c` reaches block offset `off` at all: the life-cycle instrument the four registers whose captions name it; R520 closes most of
the map to the host, to chiplets and to partitions, R671 to the host in containment. -/
def State.reaches (s : State) (c : Cls) (off : Nat) : Bool :=
  match c with
  | .K | .S | .O => true
  | .H => (!s.accessClosed || off < 0x2000 || (0x0740000 ≤ off && off < 0x0741000) || (s.co.rootprov && 0x0140000 ≤ off && off < 0x0141000)) &&
          (!s.host.frozen || off < 0x2000 || (0x0E00000 ≤ off && off < 0x0E00008))
  | .P _ | .C _ _ => !s.accessClosed || off < 0x2000
  | .I => 0x0740000 ≤ off && off < 0x0740020

/-- P and C accesses come over the hub NoC (REG_READ, REG_WRITE). -/
def isNocClass : Cls → Bool
  | .P _ | .C _ _ => true
  | _ => false

/-- Run `k` where class `c` reaches `off`; a write from elsewhere has no effect. -/
def State.gated (s : State) (c : Cls) (off : Nat) (k : State → State) : State := if s.reaches c off then k s else s

end Sys2Proof.Machine
end

