-- ==== Sys2Proof/Machine/RegMap.lean ====
section
/-! DEFINITION. The form of the register map: a register gives its offset, who reaches it, what a read returns, what a read does
besides, and what a write does; a window gives a span of bytes. R7 and R8 are in the two access functions. -/
namespace Sys2Proof.Machine

/-- A register of at most 64 bits, repeated `count` times at `stride`. -/
structure Reg where
  base : Nat
  stride : Nat := 0x1000
  count : Nat := 1
  allow : Nat → Cls → State → Bool
  get : Nat → Cls → State → W64
  onRead : Nat → Cls → W64 → State → State := fun _ _ _ s => s            -- mask of the bits the access reads
  put : Nat → Cls → W64 → W64 → State → State := fun _ _ _ _ s => s     -- value, mask of the bits the access writes

/-- A span of bytes reached by offset (buffers, slots, rings, tables), repeated `count` times at `stride`. -/
structure Window where
  base : Nat
  span : Nat
  stride : Nat := 0x1000
  count : Nat := 1
  allow : Nat → Cls → State → Bool
  get : Nat → Nat → Nat → Cls → State → List Byte                          -- instance number, byte offset, size
  onRead : Nat → Nat → Nat → Cls → State → State := fun _ _ _ _ s => s
  put : Nat → Nat → Cls → List Byte → State → State := fun _ _ _ _ s => s

/-- A captioned register: the listed class letters reach every copy of it. -/
def caption (l : List Cls) : Nat → Cls → State → Bool := fun _ c _ => l.contains c

def capKSHO : Nat → Cls → State → Bool := caption [.K, .S, .H, .O]
def capKSO : Nat → Cls → State → Bool := caption [.K, .S, .O]
def capKS : Nat → Cls → State → Bool := caption [.K, .S]
def capKSH : Nat → Cls → State → Bool := caption [.K, .S, .H]
def capK : Nat → Cls → State → Bool := caption [.K]

/-- An RW field at bit `lo` after a write of `v` under mask `m`. -/
def mrg {n : Nat} (old : BitVec n) (lo : Nat) (v m : W64) : BitVec n := (old &&& ~~~(field m lo n)) ||| (field v lo n &&& field m lo n)
/-- A one-bit RW field. -/
def mrgB (old : Bool) (lo : Nat) (v m : W64) : Bool := if bit m lo then bit v lo else old
/-- An RW1C field. -/
def w1c {n : Nat} (old : BitVec n) (lo : Nat) (v m : W64) : BitVec n := old &&& ~~~(field (v &&& m) lo n)
/-- A one-bit RW1C field. -/
def w1cB (old : Bool) (lo : Nat) (v m : W64) : Bool := old && !(bit v lo && bit m lo)

/-- The class letter as a number, for state kept per access class. -/
def clsNum : Cls → Nat
  | .K => 0 | .S => 1 | .H => 2 | .O => 3 | .P _ => 4 | .C _ _ => 5 | .I => 6

/-- Copy `i` of register `r` lies at block offset `off` (an 8-byte location). -/
def Reg.idx (r : Reg) (off : Nat) : Option Nat :=
  if off < r.base then none
  else
    let i := (off - r.base) / (if r.count ≤ 1 then 2 ^ 40 else r.stride)
    if i < r.count ∧ r.base + i * r.stride ≤ off ∧ off < r.base + i * r.stride + 8 then some i else none

/-- The instance and byte offset that `off` names in window `w`. -/
def Window.idx (w : Window) (off : Nat) : Option (Nat × Nat) :=
  if off < w.base then none
  else
    let i := (off - w.base) / (if w.count ≤ 1 then 2 ^ 40 else w.stride)
    if i < w.count ∧ off < w.base + i * w.stride + w.span then some (i, off - w.base - i * w.stride) else none

end Sys2Proof.Machine
end

