-- ==== Sys2Proof/Machine/Guard.lean ====
section
/-! DEFINITION. The guard slices: admission (R131), line cryptography (R133 to R138), reads, writes, the zero map, re-knits, the record
cache, integrity failures (R125 to R178), and the slice's suspension (R48, R49). -/
namespace Sys2Proof.Machine

/-! ### Line cryptography -/

/-- The 128-bit counter input V (R133). -/
def counterV (laddr : Nat) (major : BitVec 48) (minor : BitVec 6) (b : Nat) (dom : Nat) (u : Nat) : W128 :=
  BitVec.ofNat 128 (packN [(0, laddr % 2 ^ 46), (46, major.toNat), (94, minor.toNat), (100, b), (102, dom), (109, u)])

/-- The line XORed with its keystream: encryption and decryption (R135). -/
def lineCrypt (k : KeyEntry) (laddr : Nat) (major : BitVec 48) (minor : BitVec 6) (dom : Nat) (x : Line) : Line :=
  (List.range 4).foldl (fun v b => putField v (128 * b) 128 (field x (128 * b) 128 ^^^ aes256 k.dataKey (counterV laddr major minor b dom 0))) 0

/-- The 56-bit tag of a ciphertext line (R136). -/
def lineTag (k : KeyEntry) (laddr : Nat) (major : BitVec 48) (minor : BitVec 6) (dom : Nat) (c : Line) : BitVec 56 :=
  let l : W128 := BitVec.ofNat 128 (packN [(0, laddr % 2 ^ 46), (46, dom), (64, 512)])
  let t := ghash k.h ((List.range 4).map (fun b => field c (128 * b) 128) ++ [l]) ^^^ aes256 k.dataKey (counterV laddr major minor 0 dom 1)
  field t 0 56

/-! ### Accessors -/

def State.slice (s : State) (n : Nat) : Slice := SMap.get {} s.guard.slices n
def State.setSlice (s : State) (n : Nat) (x : Slice) : State := { s with guard := { s.guard with slices := SMap.set {} s.guard.slices n x } }
def State.updSlice (s : State) (n : Nat) (f : Slice → Slice) : State := s.setSlice n (f (s.slice n))

/-- The key-table entry of partition `d`. -/
def State.keyEntry (s : State) (d : Nat) : KeyEntry := SMap.get {} s.guard.keys d
def State.zst (s : State) (d : Nat) : Zst := SMap.get {} s.guard.zst d
def State.setZst (s : State) (d : Nat) (z : Zst) : State := { s with guard := { s.guard with zst := SMap.set {} s.guard.zst d z } }

/-- Line address, page number and line index of an address. -/
def laddrOf (a : Addr) : Nat := a.toNat / 64
def pageOf (a : Addr) : Nat := a.toNat / 4096
def lineOf (a : Addr) : Nat := a.toNat / 64 % 64

/-- The page lies inside the protected window (R125). -/
def Guard.inWindow (g : Guard) (page : Nat) : Bool := g.base.toNat * 2 ^ 18 ≤ page && page < (g.base.toNat + g.size.toNat) * 2 ^ 18
/-- Every page of the window. -/
def Guard.windowPages (g : Guard) : List Nat := List.range' (g.base.toNat * 2 ^ 18) (g.size.toNat * 2 ^ 18)

/-- Offset of a window page's record in Caldera's record area (R125). -/
def Guard.recordOffset (g : Guard) (page : Nat) : Nat := (page - g.base.toNat * 2 ^ 18) * 64

/-- End of the record area, which begins at Caldera offset 0 (R126). -/
def recordAreaEnd : Nat := (Config.calderaGiB - 1) * 2 ^ 30

/-- The record of a page as Caldera holds it; a page outside the window has none and reads as free (R125). -/
def Guard.record (g : Guard) (page : Nat) : PageRec :=
  if g.inWindow page then PageRec.ofBits (SMap.get 0 g.records (g.recordOffset page / 64)) else {}

/-- Write the record of a window page (R125, R128). -/
def Guard.putRecord (g : Guard) (page : Nat) (r : PageRec) : Guard :=
  if g.inWindow page then { g with records := SMap.set 0 g.records (g.recordOffset page / 64) r.bits } else g

/-- A byte of the record area: records are stored little-endian (R128). -/
def Guard.calderaByte (g : Guard) (offset : Nat) : Byte := field (SMap.get 0 g.records (offset / 64)) (8 * (offset % 64)) 8

/-- The record of a page: a slice's cached copy where there is one, else Caldera's. -/
def State.pageRec (s : State) (n page : Nat) : PageRec :=
  match (s.slice n).cache.find? fun e => e.page = page with
  | some e => e.pr
  | none => s.guard.record page

/-- Count a change of a sealed record's ZMAP in its partition's ZLINES (R178). -/
def State.countZ (s : State) (old new : PageRec) : State :=
  if new.isSealed ∧ old.zmap ≠ new.zmap then
    let d := new.pid.toNat
    let z := s.zst d
    s.setZst d { z with zlines := z.zlines + BitVec.ofNat 36 (popCount new.zmap) - BitVec.ofNat 36 (popCount old.zmap) }
  else s

/-- Change a record: in the cache, marking it dirty, or in Caldera when it is not cached. -/
def State.putRec (s : State) (n page : Nat) (r : PageRec) : State :=
  let s := s.countZ (s.pageRec n page) r
  if (s.slice n).cache.any fun e => e.page = page then
    s.updSlice n fun x => { x with cache := x.cache.map fun e => if e.page = page then { e with pr := r, dirty := true } else e }
  else { s with guard := s.guard.putRecord page r }

/-- Write the listed cached records that are dirty back to Caldera. -/
def Guard.writeBack (g : Guard) (l : List CacheRec) : Guard :=
  l.foldl (fun g e => if e.dirty then g.putRecord e.page e.pr else g) g

/-- Place a record in its set, evicting the least recently used of eight (R155). -/
def State.cacheFill (s : State) (n page : Nat) (r : PageRec) : State :=
  let x := s.slice n
  let inSet := x.cache.filter fun e => e.page % 64 = page % 64
  let victim := if 8 ≤ inSet.length then inSet.getLast? else none
  let g := match victim with | some v => s.guard.writeBack [v] | none => s.guard
  let kept := match victim with | some v => x.cache.filter (fun e => e.page ≠ v.page) | none => x.cache
  { s with guard := g }.setSlice n { x with cache := { page := page, pr := r, dirty := false } :: kept }

/-- A use of a cached record makes it the most recently used of its set. -/
def State.touch (s : State) (n page : Nat) : State :=
  s.updSlice n fun x => { x with cache := x.cache.filter (fun e => e.page = page) ++ x.cache.filter (fun e => e.page ≠ page) }

/-! ### Responses, counters, the error log -/

def State.respond (s : State) (h : NocHdr) (r : Resp) (data : Line := 0) : State := s.emit (.nocResp h.txid r data)

/-- GRD_ERR_LOG holds the first event; later ones set OVERFLOW. -/
def Slice.logErr (x : Slice) (time : W64) (laddr : Nat) (dom : Dom) (epoch : Epoch) (site : BitVec 5) (code : BitVec 16) : Slice :=
  if x.errValid then { x with errOverflow := true }
  else { x with errValid := true, errLine := BitVec.ofNat 46 laddr, errDom := dom, errEpoch := epoch, errSite := site, errCode := code,
                errTime := field time 0 32 }

/-- Answer a request other than OK, count it and log its code where the log captures it (R131, R166). -/
def State.deny (s : State) (n : Nat) (h : NocHdr) (r : Resp) (code : BitVec 16) (logged : Bool) : State :=
  let s := s.updSlice n fun x =>
    let x := match r with
      | .refused => { x with refused := x.refused + 1 }
      | .retry => { x with retry := x.retry + 1 }
      | .staleEpoch => { x with stale := x.stale + 1 }
      | _ => x
    if logged then x.logErr s.bnd.timebase (laddrOf h.addr) h.dom h.epoch h.site code else x
  let s := if r = .staleEpoch then s.setPart h.dom.toNat { s.part h.dom.toNat with stale := (s.part h.dom.toNat).stale + 1 } |>.pcount h.dom.toNat 5 else s
  s.respond h r

/-- The 64-byte answer of a zero query (R173). -/
def zeroAnswer (r : PageRec) (knit : Bool) : Line :=
  BitVec.ofNat 512 (packN [(0, r.zmap.toNat), (64, 1), (65, b2n r.weight), (66, b2n knit), (72, popCount r.zmap)])

/-- Answer a query from the record as it stands; the page may have been quarantined while the query waited (R131, R173). -/
def State.answerQuery (s : State) (n : Nat) (q : SliceReq) : State :=
  let r := s.pageRec n (pageOf q.hdr.addr)
  if r.quarantine then s.deny n q.hdr .refused 0x0505 true
  else ((s.pcount q.hdr.dom.toNat 4).updSlice n fun x => { x with zq := x.zq + 1 }).respond q.hdr .ok (zeroAnswer r q.knit)

/-- Answer every held write of domain `d` FROZEN, in every slice; the queries behind them, admitted before, complete (R131, R163). The rule
says that the writes are answered and not that they are logged, so GRD_ERR_LOG takes no 0x0508 of them (DESIGN CHOICE, log entry 45). -/
def State.flushHeld (s : State) (d : Nat) : List Nat → State
  | [] => s
  | n :: l =>
    let x := s.slice n
    let gone := x.knitHeld.filter fun r => r.hdr.dom.toNat = d
    let s := s.setSlice n { x with knitHeld := x.knitHeld.filter fun r => r.hdr.dom.toNat ≠ d }
    (gone.foldl (fun s r => match r.op with | .query => s.answerQuery n r | _ => s.respond r.hdr .frozen) s).flushHeld d l

/-- Place a KEYED or RUNNING partition in FROZEN (R161, R223). -/
def State.freeze (s : State) (d : Nat) (cause : BitVec 2) : State :=
  let p := s.part d
  if p.state = .keyed ∨ p.state = .running then
    (s.setPart d { p with state := .frozen, resume := p.state, freezeCause := cause }).flushHeld d (List.range Config.slices)
  else s

/-- An integrity failure of a line of `page` (R160 to R162, R223). The report's DETAIL is laid out as word 0 of GRD_ERR_LOG: line, domain,
epoch and site (DEDUCED, log entry 45). -/
def State.integrityFailure (s : State) (n page laddr : Nat) (dom : Dom) (epoch : Epoch) (site : BitVec 5) : State :=
  let s := s.putRec n page { s.pageRec n page with quarantine := true }
  let s := s.updSlice n fun x => { x.logErr s.bnd.timebase laddr dom epoch site 0x0507 with integ := x.integ + 1 }
  let s := s.setPart dom.toNat { s.part dom.toNat with integ := (s.part dom.toNat).integ + 1 }
  (s.report 3 (unitOf 1 n) 0x0507 dom (pack [(0, laddr), (46, dom.toNat), (53, epoch.toNat), (57, site.toNat)])).freeze dom.toNat 1

/-! ### The controller port -/

/-- Carve-out attachment of slice `n`. -/
def carved (n : Nat) : Bool := bit Config.carveOut n

/-- The lowest request identifier that no read in flight holds; the manual names no rule for the choice (DESIGN CHOICE, log entry 45). -/
def Slice.freeRid (x : Slice) : Nat := ((List.range (x.reads.length + 1)).find? fun i => ¬ x.reads.any fun r => r.rid.map (·.toNat) = some i).getD 0

/-- Let the port of slice `n` take waiting accesses in order: none while MEMTRN_DONE is low (R48), no read while all 256 identifiers are in
use; `k` bounds them. -/
def State.runPort (n : Nat) : Nat → State → State
  | 0, s => s
  | k + 1, s =>
    let x := s.slice n
    if ¬ bit s.bnd.memtrn n then s
    else match x.port with
      | [] => s
      | .write space line data side ok :: l =>
        let s := (s.setSlice n { x with port := l }).emit (.ctlWrite n space line data side)
        State.runPort n k (match ok with | some t => s.emit (.nocResp t .ok 0) | none => s)
      | .read id space line :: l =>
        let rid := x.freeRid
        if 256 ≤ rid then s
        else State.runPort n k
          ((s.setSlice n { x with port := l, reads := x.reads.map fun r => if r.id = id then { r with rid := some (BitVec.ofNat 8 rid) } else r }).emit
            (.ctlRead n space (BitVec.ofNat 8 rid) line))

/-- Pass an access to the controller port. -/
def State.toPort (s : State) (n : Nat) (p : PortOp) : State :=
  let s := s.updSlice n fun x => { x with port := x.port ++ [p] }
  State.runPort n (s.slice n).port.length s

/-- A controller write; `ok` names a write that OK answers once the port has accepted it (R147). -/
def State.ctlWrite (s : State) (n : Nat) (space : Bool) (line : Nat) (data : Line) (side : W64) (ok : Option (BitVec 12) := none) : State :=
  s.toPort n (.write space line data side ok)

/-- A controller read. -/
def State.ctlRead (s : State) (n : Nat) (space : Bool) (laddr : Nat) (p : ReadFor) (major : BitVec 48 := 0) (minor : BitVec 6 := 0)
    (tag : Option (BitVec 56) := none) : State :=
  let x := s.slice n
  let s := s.setSlice n { x with readSeq := x.readSeq + 1
                                 reads := x.reads ++ [{ id := x.readSeq, purpose := p, addr := laddr, major := major, minor := minor, tag := tag, data := none }] }
  s.toPort n (.read x.readSeq space laddr)

/-- The valid tag of a line in the MAC-line cache (R139). -/
def Slice.macTag (x : Slice) (laddr : Nat) : Option (BitVec 56) :=
  match x.macs.find? fun m => m.group = laddr / 8 with
  | some m => if bit m.valid (laddr % 8) then some (field m.tags (64 * (laddr % 8)) 56) else none
  | none => none

/-- Read a MAC line of the controller unless that read is under way. -/
def State.fillMac (s : State) (n group : Nat) : State :=
  if (s.slice n).reads.any fun r => r.purpose = .macFill group then s else s.ctlRead n true group (.macFill group)

/-- Read a sealed line: in carve-out attachment with its tag, from the MAC-line cache or with a MAC-line read (R139, R715). -/
def State.readSealed (s : State) (n laddr : Nat) (p : ReadFor) (major : BitVec 48) (minor : BitVec 6) : State :=
  if carved n then
    match (s.slice n).macTag laddr with
    | some t => s.ctlRead n false laddr p major minor (some t)
    | none =>
      (s.ctlRead n false laddr p major minor).fillMac n (laddr / 8)
  else s.ctlRead n false laddr p major minor

/-- Evict MAC lines beyond 64, the one placed or filled longest ago first (the manual names no order: DESIGN CHOICE, log entry 45). A whole
line is written back, after a read of it that is under way; another stays in use until the read of the controller's line has completed it
(R715). -/
def State.macEvict (n : Nat) : Nat → State → State
  | 0, s => s
  | k + 1, s =>
    let x := s.slice n
    match x.macs.getLast? with
    | some m =>
      if x.macs.length ≤ 64 then s
      else if m.valid = 0xFF ∧ ¬ x.reads.any (fun r => r.purpose = .macFill m.group) then State.macEvict n k ((s.setSlice n { x with macs := x.macs.dropLast }).ctlWrite n true m.group m.tags 0)
      else s.fillMac n m.group
    | none => s

/-- Place a tag in the MAC-line cache without reading the line (R715). -/
def State.macPut (s : State) (n laddr : Nat) (t : BitVec 56) : State :=
  let x := s.slice n
  let g := laddr / 8
  let m := (x.macs.find? fun m => m.group = g).getD { group := g, tags := 0, valid := 0 }
  let m' : MacLine := { m with tags := putField m.tags (64 * (laddr % 8)) 64 (t.setWidth 64), valid := putBit m.valid (laddr % 8) true }
  State.macEvict n 65 (s.setSlice n { x with macs := m' :: x.macs.filter fun m => m.group ≠ g })

/-- Write a sealed line with its tag. -/
def State.writeSealed (s : State) (n laddr : Nat) (c : Line) (t : BitVec 56) (ok : Option (BitVec 12) := none) : State :=
  if carved n then (s.ctlWrite n false laddr c 0 ok).macPut n laddr t
  else s.ctlWrite n false laddr c (t.setWidth 64) ok

/-! ### Reads and writes behind the record -/

def minorOf (r : PageRec) (i : Nat) : BitVec 6 := field r.minor (6 * i) 6

/-- A masked write of `page` is reading its old line: later requests to the page wait behind it (R147, R176). -/
def Slice.blocked (x : Slice) (page : Nat) : Bool :=
  x.reads.any fun r => match r.purpose with
    | .merge q => pageOf q.hdr.addr = page
    | .plain q => pageOf q.hdr.addr = page && q.op ≠ .read
    | _ => false

/-- Count a sealed read served, with its partition's row counts (R180). -/
def State.countRead (s : State) (n d : Nat) (zero : Bool) : State :=
  let s := s.updSlice n fun x => { x with rd := x.rd + 1, zrd := if zero then x.zrd + 1 else x.zrd }
  let z := s.zst d
  (if zero then s.pcount d 2 else s).setZst d { z with rowRd := z.rowRd + 1, rowZrd := if zero then z.rowZrd + 1 else z.rowZrd }

/-- A write to the page is held that came to be held as number `k` or later. -/
def Slice.holdsWrite (x : Slice) (page k : Nat) : Bool :=
  x.knitHeld.any fun q => pageOf q.hdr.addr = page && q.op ≠ .query && (match q.hold with | some j => decide (k ≤ j) | none => true)

/-- RKNIT: a re-knit of the page is running or a write to it is held (R173). -/
def Slice.reKnits (x : Slice) (page : Nat) : Bool := x.knits.any (fun k => k.page = page) || x.holdsWrite page 0

/-- A later write to the page is held: its lines are being re-knitted, or requests to it are held already (R150). -/
def Slice.knitting (x : Slice) (page : Nat) : Bool := x.knits.any (fun k => k.page = page) || x.knitHeld.any fun q => pageOf q.hdr.addr = page

/-- Start a re-knit of a page for an overflowing write bound to key entry `key`: read every line whose ZMAP bit is 0 with the old counters
(R131, R149). -/
def State.startKnit (s : State) (n page : Nat) (key : KeyEntry) : State :=
  let r := s.pageRec n page
  let s := s.updSlice n fun x => { x with knits := x.knits ++ [{ page := page, key := key, newMajor := r.major + 1 }] }
  ((List.range 64).filter fun i => ¬ bit r.zmap i).foldl
    (fun s i => s.readSealed n (page * 64 + i) (.knit page i) r.major (minorOf r i)) s

/-- Hold a write behind the held ones of its page (R150). -/
def Slice.holdLast (x : Slice) (q : SliceReq) : Slice :=
  { x with knitHeld := x.knitHeld ++ [{ q with hold := some x.holds }], holds := x.holds + 1 }

/-- Hold a write at the front of its page's held ones: it was admitted before them (R150). -/
def Slice.holdFirst (x : Slice) (q : SliceReq) : Slice :=
  let p := x.knitHeld.span fun w => pageOf w.hdr.addr ≠ pageOf q.hdr.addr
  { x with knitHeld := p.1 ++ { q with hold := some x.holds } :: p.2, holds := x.holds + 1 }

/-- Apply a write of the resulting line `data` (R144, R145, R149, R152, R154); it clears DUMP_ARMED (R621). WEIGHT is set here, so that a
write that was held and never applied sets none (R132; DEDUCED from R151 and R163, log entry 45). -/
def State.applyWrite (s : State) (n : Nat) (q : SliceReq) (data : Line) : State :=
  let h := q.hdr
  let page := pageOf h.addr
  let i := lineOf h.addr
  let r := s.pageRec n page
  let w := r.weight || h.site = 31
  if data = 0 then
    (((s.pcount h.dom.toNat 3).putRec n page { r with zmap := putBit r.zmap i true, dumpArmed := false, weight := w }).updSlice n fun x =>
      { x with wr := x.wr + 1, zwr := x.zwr + 1 }).respond h .ok
  else if minorOf r i = 63 then
    if r.major = BitVec.allOnes 48 then (s.putRec n page { r with quarantine := true }).deny n h .refused 0x050A true
    else
      let free := decide ((s.slice n).knits.length < 4)
      let s := s.updSlice n fun x => x.holdFirst { q with op := .write data (BitVec.allOnes 64) false, slot := !free }
      if free then s.startKnit n page q.key else s
  else
    let m := minorOf r i + 1
    let s := s.putRec n page { r with minor := putField r.minor (6 * i) 6 m, zmap := putBit r.zmap i false, dumpArmed := false, weight := w }
    let laddr := laddrOf h.addr
    let c := lineCrypt q.key laddr r.major m h.dom.toNat data
    (s.updSlice n fun x => { x with wr := x.wr + 1 }).writeSealed n laddr c (lineTag q.key laddr r.major m h.dom.toNat c) (some h.txid)

/-- The line lies in an active ingest range and the requester is a chiplet or another hub-die initiator (R203). -/
def State.inIngest (s : State) (h : NocHdr) : Bool :=
  (h.site.toNat < 24 || h.site = 30) &&
  s.wg.ctxs.any fun e => e.2.rangeActive && e.2.dst ≤ pageOf h.addr && pageOf h.addr < e.2.dst + e.2.chunks

/-- Steps 8 to 10 of R131 on a partition request, and the request's service. -/
def State.serve (s : State) (n : Nat) (q : SliceReq) : State :=
  let h := q.hdr
  let page := pageOf h.addr
  let s := s.touch n page
  let r := s.pageRec n page
  let i := lineOf h.addr
  let isWrite : Bool := match q.op with | .write _ _ _ => true | _ => false
  if ¬ r.isSealed ∨ r.pid.toNat ≠ h.dom.toNat then s.deny n h .refused 0x0503 true
  else if r.kgen ≠ q.key.kgen then s.deny n h .refused 0x0504 true
  else if r.quarantine then s.deny n h .refused 0x0505 true
  else if isWrite ∧ h.epoch ≠ q.epoch then s.deny n h .staleEpoch 0x0506 true
  else if isWrite ∧ r.weight ∧ h.site ≠ 31 then s.deny n h .refused 0x050B true
  else if s.inIngest h then s.deny n h .refused 0x0501 false
  else match q.op with
    | .read =>
      let s := s.pcount h.dom.toNat 0
      if bit r.zmap i then (s.countRead n h.dom.toNat true).respond h .ok
      else
        match (s.slice n).knits.find? fun k => k.page = page with
        | some k => if bit k.done i then s.readSealed n (laddrOf h.addr) (.line q) k.newMajor 0
                    else s.readSealed n (laddrOf h.addr) (.line q) r.major (minorOf r i)
        | none => s.readSealed n (laddrOf h.addr) (.line q) r.major (minorOf r i)
    | .query =>
      -- writes that were admitted before the query and have come to be held while it waited are applied before it (R176)
      if q.hold.any fun k => (s.slice n).holdsWrite page k then s.updSlice n fun x => { x with knitHeld := x.knitHeld ++ [q] }
      else s.answerQuery n q
    | .write data mask masked =>
      if masked ∧ mask = 0 then s.respond h .ok
      else
      let s := s.pcount h.dom.toNat 1
      if (s.slice n).knitting page then s.updSlice n fun x => x.holdLast q
      else if masked ∧ mask ≠ BitVec.allOnes 64 then
        if bit r.zmap i then s.applyWrite n q (maskBytes 0 data mask.toNat)
        else s.readSealed n (laddrOf h.addr) (.merge q) r.major (minorOf r i)
      else s.applyWrite n q data

/-- Serve a plain-domain request unencrypted with tag 0 (R170, R175). -/
def State.servePlain (s : State) (n : Nat) (q : SliceReq) : State :=
  let h := q.hdr
  let s := s.updSlice n fun x => { x with plain := x.plain + 1 }
  match q.op with
  | .read => s.ctlRead n false (laddrOf h.addr) (.plain q)
  | .query => (s.updSlice n fun x => { x with zq := x.zq + 1 }).respond h .ok
  | .write data mask masked =>
    if masked ∧ mask = 0 then s.respond h .ok
    else if masked ∧ mask ≠ BitVec.allOnes 64 then s.ctlRead n false (laddrOf h.addr) (.plain q)
    else s.ctlWrite n false (laddrOf h.addr) data 0 (some h.txid)

/-- A request whose record is known: step 4 for the plain domain, steps 8 to 10 for partitions. -/
def State.withRecord (s : State) (n : Nat) (q : SliceReq) : State :=
  if q.hdr.dom = 65 then
    if s.guard.inWindow (pageOf q.hdr.addr) ∧ (s.pageRec n (pageOf q.hdr.addr)).isSealed then s.deny n q.hdr .refused 0x0503 false
    else if s.inIngest q.hdr then s.deny n q.hdr .refused 0x0501 false
    else s.servePlain n q
  else s.serve n q

/-- The record that the request needs is at hand: none for a plain page outside the window, the cached one for a partition, else the one
that its fetch brought (R129, R156). -/
def State.recordKnown (s : State) (n : Nat) (q : SliceReq) : Bool :=
  let page := pageOf q.hdr.addr
  q.fetched || (if q.hdr.dom = 65 then !s.guard.inWindow page else (s.slice n).cache.any fun e => e.page = page)

/-- Issue a page's record fetch while fewer than 32 are outstanding; requests share a fetch that is under way (R156, R718). -/
def State.startFetch (s : State) (n page : Nat) : State :=
  let x := s.slice n
  if x.fetches.contains page ∨ 32 ≤ x.fetches.length then s
  else s.setSlice n { x with fetches := x.fetches ++ [page], miss := x.miss + 1 }

/-- Serve the waiting requests of a page in order until one blocks the page, needs a fetch or none is left; `k` bounds them. -/
def State.drainPage (n page : Nat) : Nat → State → State
  | 0, s => s
  | k + 1, s =>
    let x := s.slice n
    if x.blocked page then s
    else match x.waiting.find? fun q => pageOf q.hdr.addr = page with
      | none => s
      | some q =>
        if s.recordKnown n q then State.drainPage n page k ((s.setSlice n { x with waiting := x.waiting.erase q }).withRecord n q)
        else s.startFetch n page

/-- Start the fetch of a request that waits for a free one of the 32, the oldest first (R156; the manual names no order: DESIGN CHOICE, log
entry 45). -/
def State.fetchNext (s : State) (n : Nat) : State :=
  let x := s.slice n
  match x.waiting.find? fun q => ¬ x.fetches.contains (pageOf q.hdr.addr) ∧ ¬ s.recordKnown n q ∧ ¬ x.blocked (pageOf q.hdr.addr) with
  | some q => s.startFetch n (pageOf q.hdr.addr)
  | none => s

/-- Pass an admitted request to its record: known, or behind a fetch, always behind earlier waiting requests of its page (R129, R156, R718). -/
def State.toRecord (s : State) (n : Nat) (q : SliceReq) : State :=
  let page := pageOf q.hdr.addr
  let x := s.slice n
  let wait := s.setSlice n { x with waiting := x.waiting ++ [if q.op = .query then { q with hold := some x.holds } else q] }
  if x.blocked page ∨ x.waiting.any (fun w => pageOf w.hdr.addr = page) then wait
  else if s.recordKnown n q then s.withRecord n q
  else wait.startFetch n page

/-- The slice's datapath or controller path is fenced (R634): it answers as with EN 0. -/
def State.sliceFenced (s : State) (n : Nat) : Bool :=
  (s.vent.unitRec (unitOf 1 n)).state = 3 || (s.vent.unitRec (unitOf 4 n)).state = 3 || (s.vent.unitRec (unitOf 1 n)).state = 2 ||
  (s.vent.unitRec (unitOf 4 n)).state = 2 || (s.vent.unitRec (unitOf 1 n)).state = 5 || (s.vent.unitRec (unitOf 4 n)).state = 5

/-- The site may act in domains 0 to 64 (R43). -/
def State.trusts (s : State) (site : BitVec 5) : Bool := site.toNat ≥ 24 || bit s.bnd.siteTrusted site.toNat

/-- No unit of the block takes the request: DOM in 66 to 127, OP in 0x6 to 0xF or SRC_SITE in 24 to 29 (R41). -/
def hdrBarred (h : NocHdr) : Bool := h.rsvdOp || decide (66 ≤ h.dom.toNat) || (decide (24 ≤ h.site.toNat) && decide (h.site.toNat ≤ 29))

/-- The block port refuses the request whatever it names (R41, R43). -/
def State.portRefuses (s : State) (h : NocHdr) : Bool := hdrBarred h || (decide (h.dom.toNat ≤ 64) && !s.trusts h.site)

/-- A post to an intake port at `off`: refused under R41 before the port judges it, without effect while R520 closes it. -/
def State.posted (s : State) (h : NocHdr) (off : Nat) (k : State → State) : State :=
  if hdrBarred h then s.respond h .refused
  else if s.reaches (.C h.site false) off then k s
  else s.respond h (if s.portRefuses h then .refused else .ok)

/-- Admission of a request at slice `n`: steps 1 to 7 of R131. -/
def State.admitLine (s : State) (n : Nat) (h : NocHdr) (op : LineOp) : State :=
  let x := s.slice n
  let d := h.dom.toNat
  if hdrBarred h then s.deny n h .refused 0x0501 false
  else if ¬ x.en ∨ s.sliceFenced n then s.deny n h .retry 0x050C true
  else if x.suspended then s.setSlice n { x with held := x.held ++ [{ hdr := h, op := op }] }
  else if d = 64 ∨ h.regOp then s.deny n h .refused 0x0501 false
  else if d = 65 then s.toRecord n { hdr := h, op := op }
  else
    let k := s.keyEntry d
    let st := (s.part d).state
    if ¬ s.trusts h.site ∨ ¬ k.valid ∨ ¬ (st = .keyed ∨ st = .running ∨ st = .frozen) then s.deny n h .refused 0x0501 false
    else if st = .frozen then s.deny n h .frozen 0x0508 true
    else if ¬ s.guard.inWindow (pageOf h.addr) then s.deny n h .refused 0x0502 true
    else s.toRecord n { hdr := h, op := op, key := k, epoch := (s.part d).epoch, knit := x.reKnits (pageOf h.addr) }

/-- A line request reaches a slice: it is work of the slice's units (R636), and the slice admits it or not. -/
def State.takeLine (s : State) (n : Nat) (h : NocHdr) (op : LineOp) : State := (s.worked (sliceWork n)).admitLine n h op

def execReadLine (slice : BitVec 6) (h : NocHdr) (s : State) : Host.Outcome State Fault Refusal := .next (s.takeLine slice.toNat h .read)
def execWriteLine (slice : BitVec 6) (h : NocHdr) (data : Line) (s : State) : Host.Outcome State Fault Refusal :=
  .next (s.takeLine slice.toNat h (.write data (BitVec.allOnes 64) false))
def execWriteMasked (slice : BitVec 6) (h : NocHdr) (data : Line) (mask : BitVec 64) (s : State) : Host.Outcome State Fault Refusal :=
  .next (s.takeLine slice.toNat h (.write data mask true))
def execZeroQuery (slice : BitVec 6) (h : NocHdr) (s : State) : Host.Outcome State Fault Refusal := .next (s.takeLine slice.toNat h .query)

/-- RECORD_ARRIVAL: the waiting requests of the page run (R131, R129, R156). -/
def recordArrival (s : State) (n page : Nat) : State :=
  let x := s.slice n
  if ¬ x.fetches.contains page then s
  else
    let s := s.setSlice n { x with
      fetches := x.fetches.erase page
      waiting := x.waiting.map fun q => if pageOf q.hdr.addr = page then { q with fetched := true } else q }
    let r := s.guard.record page
    let wants := x.waiting.any fun q => pageOf q.hdr.addr = page ∧ q.hdr.dom ≠ 65
    let s := if wants ∧ r.isSealed ∧ (s.keyEntry r.pid.toNat).valid ∧ ¬ (x.cache.any fun e => e.page = page) then s.cacheFill n page r else s
    (s.drainPage n page x.waiting.length).fetchNext n

def execRecordArrival (slice : BitVec 6) (page : BitVec 40) (s : State) : Host.Outcome State Fault Refusal :=
  .next (recordArrival s slice.toNat page.toNat)

/-- Apply the held requests of a page in their order, `k` of them, until one starts a re-knit, waits for one, or reads its old line (R149). -/
def State.releaseHeld (n page : Nat) : Nat → State → State
  | 0, s => s
  | k + 1, s =>
    let x := s.slice n
    if x.blocked page ∨ x.knits.any (fun c => c.page = page) then s
    else match x.knitHeld.find? fun q => pageOf q.hdr.addr = page with
      | none => s
      | some q =>
        if q.slot ∧ 4 ≤ x.knits.length then s
        else
        let s := s.setSlice n { x with knitHeld := x.knitHeld.erase q }
        State.releaseHeld n page k (match q.op with
          | .write data mask masked =>
            let r := s.pageRec n page
            if masked ∧ mask ≠ BitVec.allOnes 64 then
              if bit r.zmap (lineOf q.hdr.addr) then s.applyWrite n q (maskBytes 0 data mask.toNat)
              else s.readSealed n (laddrOf q.hdr.addr) (.merge q) r.major (minorOf r (lineOf q.hdr.addr))
            else s.applyWrite n q data
          | _ => s.answerQuery n q)

/-- A page goes on: its held requests, then the ones that wait for it. -/
def State.pageGoesOn (s : State) (n page : Nat) : State :=
  let s := State.releaseHeld n page (s.slice n).knitHeld.length s
  State.drainPage n page (s.slice n).waiting.length s

/-- Finish a controller read whose data and tag are known (R142, R146, R149, R160). -/
def State.finishRead (s : State) (n : Nat) (c : CtlRead) (data : Line) (tag : BitVec 56) : State :=
  match c.purpose with
  | .line q =>
    let d := q.hdr.dom.toNat
    if lineTag q.key c.addr c.major c.minor d data ≠ tag then
      (s.integrityFailure n (c.addr / 64) c.addr q.hdr.dom q.hdr.epoch q.hdr.site).respond q.hdr .memIntegrity
    else (s.countRead n d false).respond q.hdr .ok (lineCrypt q.key c.addr c.major c.minor d data)
  | .merge q =>
    let d := q.hdr.dom.toNat
    if lineTag q.key c.addr c.major c.minor d data ≠ tag then
      ((s.integrityFailure n (c.addr / 64) c.addr q.hdr.dom q.hdr.epoch q.hdr.site).respond q.hdr .memIntegrity).pageGoesOn n (c.addr / 64)
    else
      let old := lineCrypt q.key c.addr c.major c.minor d data
      let s := match q.op with
        | .write new mask _ => s.applyWrite n q (maskBytes old new mask.toNat)
        | _ => s
      s.pageGoesOn n (c.addr / 64)
  | .knit page i =>
    match (s.slice n).knits.find? fun k => k.page = page with
    | none => s
    | some k =>
      let d := (s.pageRec n page).pid
      if lineTag k.key c.addr c.major c.minor d.toNat data ≠ tag then
        let s := s.updSlice n fun x => { x with knits := x.knits.filter fun k => k.page ≠ page }
        let s := s.integrityFailure n page c.addr (d.setWidth 7) (s.part d.toNat).epoch 31
        s.flushHeld d.toNat [n]
      else
        let p := lineCrypt k.key c.addr c.major c.minor d.toNat data
        let e := lineCrypt k.key c.addr k.newMajor 0 d.toNat p
        (s.writeSealed n c.addr e (lineTag k.key c.addr k.newMajor 0 d.toNat e)).updSlice n fun x =>
          { x with knits := x.knits.map fun j => if j.page = page then { j with done := putBit j.done i true } else j }
  | .plain q =>
    match q.op with
    | .write new mask _ =>
      (s.ctlWrite n false c.addr (maskBytes data new mask.toNat) 0 (some q.hdr.txid)).pageGoesOn n (c.addr / 64)
    | _ => s.respond q.hdr .ok data
  | .macFill g =>
    s.updSlice n fun x => { x with
      macs :=
        let m := (x.macs.find? fun m => m.group = g).getD { group := g, tags := 0, valid := 0 }
        let full : MacLine := { m with valid := 0xFF, tags := (List.range 8).foldl (fun v j => if bit m.valid j then v else putField v (64 * j) 64 ((field data (64 * j) 56).setWidth 64)) m.tags }
        if x.macs.any fun m => m.group = g then x.macs.map fun m => if m.group = g then full else m else full :: x.macs }

/-- Reads of a group that a MAC line completes: their tag is the one the controller held (R715). -/
def State.finishGroup (n : Nat) (data : Line) : List CtlRead → State → State
  | [], s => s
  | c :: l, s =>
    let t : BitVec 56 := field data (64 * (c.addr % 8)) 56
    match c.data with
    | some d =>
      let s := s.updSlice n fun x => { x with reads := x.reads.filter fun r => r.id ≠ c.id }
      State.finishGroup n data l (s.finishRead n c d t)
    | none => State.finishGroup n data l (s.updSlice n fun x => { x with reads := x.reads.map fun r => if r.id = c.id then { r with tag := some t } else r })

/-- CONTROLLER_READ_RETURN: the identifier is free again, and the port goes on. -/
def controllerReturn (s : State) (n : Nat) (rid : BitVec 8) (data : Line) (side : W64) : State :=
  let x := s.slice n
  match x.reads.find? fun r => r.rid = some rid with
  | none => s
  | some c =>
    let gone := s.setSlice n { x with reads := x.reads.filter fun r => r.id ≠ c.id }
    let s := match c.purpose with
      | .macFill g =>
        let s := State.macEvict n 65 (gone.finishRead n c data 0)
        State.finishGroup n data ((s.slice n).reads.filter fun r => r.tag = none && r.addr / 8 = g &&
          (match r.purpose with | .line _ | .merge _ | .knit _ _ => true | _ => false)) s
      | .plain _ => gone.finishRead n c data 0
      | _ =>
        if carved n then
          match c.tag with
          | some t => gone.finishRead n c data t
          | none => s.setSlice n { x with reads := x.reads.map fun r => if r.id = c.id then { r with data := some data, rid := none } else r }
        else gone.finishRead n c data (field side 0 56)
    State.runPort n (s.slice n).port.length s

def execControllerReadReturn (slice : BitVec 6) (rid : BitVec 8) (data : Line) (side : W64) (s : State) : Host.Outcome State Fault Refusal :=
  .next (controllerReturn s slice.toNat rid data side)

/-- Overflowing writes that found four re-knits running start theirs, the first held first, while fewer run (R152; the manual names no order:
DESIGN CHOICE, log entry 45); `k` bounds them. -/
def State.startWaitingKnits (n : Nat) : Nat → State → State
  | 0, s => s
  | k + 1, s =>
    let x := s.slice n
    match x.knitHeld.find? fun q => q.slot with
    | some q =>
      if 4 ≤ x.knits.length then s
      else State.startWaitingKnits n k
        ((s.setSlice n { x with knitHeld := x.knitHeld.map fun w => if w = q then { w with slot := false } else w }).startKnit n (pageOf q.hdr.addr) q.key)
    | none => s

/-- RE_KNIT_COMMIT: every nonzero line has been rewritten (R149). A write that waits for one of the four re-knits goes on here alone: R152
holds it until one commits, so a re-knit that aborts starts none (DEDUCED, log entry 45). -/
def knitCommit (s : State) (n page : Nat) : State :=
  match (s.slice n).knits.find? fun k => k.page = page with
  | none => s
  | some k =>
    let r := s.pageRec n page
    if (k.done ||| r.zmap) ≠ BitVec.allOnes 64 then s
    else
      let s := s.putRec n page { r with major := k.newMajor, minor := 0 }
      let s := s.updSlice n fun x => { x with knits := x.knits.filter (fun k => k.page ≠ page), rknit := x.rknit + 1 }
      (State.startWaitingKnits n (s.slice n).knitHeld.length s).pageGoesOn n page

def execReKnitCommit (slice : BitVec 6) (page : BitVec 40) (s : State) : Host.Outcome State Fault Refusal :=
  .next (knitCommit s slice.toNat page.toNat)

/-- RE_KNIT_HOLD_TIMEOUT: a held write is answered RETRY and not applied (R151). -/
def execReKnitHoldTimeout (slice : BitVec 6) (txid : BitVec 12) (s : State) : Host.Outcome State Fault Refusal :=
  let x := s.slice slice.toNat
  match x.knitHeld.find? fun q => q.hdr.txid = txid && q.op ≠ .query with
  | none => .next s
  | some q => .next (((s.setSlice slice.toNat { x with knitHeld := x.knitHeld.erase q }).deny slice.toNat q.hdr .retry 0x0509 true).pageGoesOn slice.toNat
      (pageOf q.hdr.addr))

/-- SUSPEND_HOLD_TIMEOUT: the oldest held request is answered RETRY (R49). -/
def execSuspendHoldTimeout (slice : BitVec 6) (s : State) : Host.Outcome State Fault Refusal :=
  let x := s.slice slice.toNat
  match x.held with
  | [] => .next s
  | q :: l => .next ((s.setSlice slice.toNat { x with held := l }).deny slice.toNat q.hdr .retry 0x050C true)

/-- MEMTRN_DONE falls: the port closes (R48); after CO8, and so throughout a warm reset, the slice suspends and reports to Vent (R32, R49). -/
def execMemtrnDoneFall (slice : BitVec 6) (s : State) : Host.Outcome State Fault Refusal :=
  let n := slice.toNat
  let s1 := { s with bnd := { s.bnd with memtrn := putBit s.bnd.memtrn n false } }
  .next (if (8 < s.bnd.coStage.toNat ∨ s.bnd.warmRunning) ∧ bit s.bnd.memtrn n then
    (s1.updSlice n fun x => { x with suspended := true }).report 9 (unitOf 4 n) 0x050C
  else s1)

/-- MEMTRN_DONE rises: the port takes what waits for it, the suspension ends, held requests are issued in arrival order, the recovery is
reported (R48, R49). -/
def execMemtrnDoneRise (slice : BitVec 6) (s : State) : Host.Outcome State Fault Refusal :=
  let n := slice.toNat
  let s0 := { s with bnd := { s.bnd with memtrn := putBit s.bnd.memtrn n true } }
  let s1 := State.runPort n (s0.slice n).port.length s0
  let x := s1.slice n
  .next (if x.suspended then
    let s2 := s1.setSlice n { x with suspended := false, held := [] }
    (x.held.foldl (fun s q => s.admitLine n q.hdr q.op) s2).report 9 (unitOf 4 n) (Config.reportCode 9)
  else s1)

/-- Every snoop is a clean miss without data (R40). -/
def execSnoop (_port : BitVec 7) (_addr : Addr) (s : State) : Host.Outcome State Fault Refusal := .next (s.emit .snoopMiss)

/-! ### Window, sync, scrub -/

/-- GRD_PROT: the first write sets and locks the window, SIZE clipped to the coverage (R126). -/
def protWrite (s : State) (c : Cls) (v m : W64) : State :=
  if c ≠ .K ∨ s.guard.locked then s
  else
    let size : BitVec 9 := mrg s.guard.size 22 v m
    { s with guard := { s.guard with
        base := mrg s.guard.base 0 v m
        size := if Config.coverageGiB < size.toNat then BitVec.ofNat 9 Config.coverageGiB else size
        locked := true } }

def execGrdProtWrite (cls : Cls) (data : W64) (s : State) : Host.Outcome State Fault Refusal := .next (protWrite s cls data (BitVec.allOnes 64))

/-- GRD_SYNC: DOM and ALL are written at any time; REQ starts a sync unless one runs (R130). -/
def syncWrite (s : State) (c : Cls) (v m : W64) : State :=
  if c ≠ .K then s
  else
    let g := { s.guard with syncDom := mrg s.guard.syncDom 0 v m, syncAll := mrgB s.guard.syncAll 6 v m }
    { s with guard := if bit (v &&& m) 7 ∧ ¬ g.syncBusy then { g with syncBusy := true, syncRunDom := g.syncDom, syncRunAll := g.syncAll } else g }

def execGrdSyncReq (cls : Cls) (data : W64) (s : State) : Host.Outcome State Fault Refusal := .next (syncWrite s cls data (BitVec.allOnes 64))

/-- Write back the dirty cached records of the chosen partitions in every slice and invalidate all of theirs (R130). -/
def Guard.sync (g : Guard) (all : Bool) (d : BitVec 6) : Guard :=
  let mine (e : CacheRec) : Bool := all || e.pr.pid = d
  let g' := g.slices.foldl (fun g e => g.writeBack (e.2.cache.filter mine)) g
  { g' with slices := SMap.mapVals {} g.slices fun _ x => { x with cache := x.cache.filter fun e => ¬ mine e } }

def execGrdSyncDone (s : State) : Host.Outcome State Fault Refusal :=
  .next (if s.guard.syncBusy then
    let g := s.guard.sync s.guard.syncRunAll s.guard.syncRunDom
    { s with guard := { g with
        syncBusy := false
        syncedAll := g.syncedAll || g.syncRunAll
        synced := if g.syncRunAll then BitVec.allOnes 64 else putBit g.synced g.syncRunDom.toNat true } }
  else s)

/-- Window pages of a partition's regions: BASE and SIZE in units of 2 MiB, 512 pages each. -/
def State.regionPages (s : State) (d : Nat) : List Nat :=
  ((s.part d).regions.flatMap fun e => List.range' (e.2.base.toNat * 512) (e.2.size.toNat * 512)).filter s.guard.inWindow

/-- A scrub may start (R182). -/
def State.scrubAllowed (s : State) (all : Bool) (d : BitVec 6) : Bool :=
  if all then
    ((List.range 64).all fun e => (s.part e).state = .free || ((s.part e).state = .bindingOff && !(s.keyEntry e).valid)) &&
    (((List.range 64).all fun e => (s.part e).state = .free) || s.guard.syncedAll)
  else (s.part d.toNat).state = .bindingOff && !(s.keyEntry d.toNat).valid && bit s.guard.synced d.toNat

/-- GRD_SCRUB: a refused REQ sets ERR and changes nothing else (R182). -/
def scrubWrite (s : State) (c : Cls) (v m : W64) : State :=
  if c ≠ .K then s
  else
    let g := { s.guard with scrubErr := w1cB s.guard.scrubErr 10 v m }
    let g := if g.scrubBusy then g
      else { g with scrubDom := mrg g.scrubDom 0 v m, scrubAll := mrgB g.scrubAll 6 v m, scrubPhys := mrgB g.scrubPhys 7 v m }
    { s with guard :=
      if ¬ bit (v &&& m) 8 then g
      else if g.scrubBusy ∨ ¬ s.scrubAllowed g.scrubAll g.scrubDom then { s.guard with scrubErr := true }
      else { g with scrubBusy := true, scrubPhase := g.scrubPhys, scrubPages := 0 } }

def execGrdScrubReq (cls : Cls) (data : W64) (s : State) : Host.Outcome State Fault Refusal := .next (scrubWrite s cls data (BitVec.allOnes 64))

/-- Pages of the running scrub. -/
def State.scrubScope (s : State) : List Nat :=
  if s.guard.scrubAll then s.guard.windowPages else s.regionPages s.guard.scrubDom.toNat

/-- The pass of R185 over carve-out slices leaves no tag of the pages in a MAC-line cache. -/
def Slice.dropMacs (x : Slice) (pages : List Nat) : Slice := { x with macs := x.macs.filter fun m => ¬ pages.contains (m.group / 8) }
def Guard.dropMacs (g : Guard) (pages : List Nat) : Guard :=
  if Config.carveOut = 0 then g else { g with slices := SMap.mapVals {} g.slices fun _ x => x.dropMacs pages }

/-- The physical pass has written every line of the pages, and every MAC line of a carve-out slice, as zero; the metadata pass begins (R185).
It does not end while a slice that it writes through has MEMTRN_DONE low (R48). -/
def execScrubPhysPassEnd (s : State) : Host.Outcome State Fault Refusal :=
  .next (if s.guard.scrubBusy ∧ s.guard.scrubPhase ∧ (s.scrubScope.all fun p => bit s.bnd.memtrn (Config.sliceOf p)) then
    { s with out := s.out ++ s.scrubScope.map .ctlZero, guard := { s.guard.dropMacs s.scrubScope with scrubPhase := false, scrubPages := 0 } }
  else s)

/-- A record after the metadata pass: MAJOR and MINOR stay (R183). -/
def scrubbedRec (pid : BitVec 6) (r : PageRec) : PageRec :=
  { r with zmap := BitVec.allOnes 64, pid := pid, kgen := 0, isSealed := false, weight := false, dumpArmed := false, quarantine := false }

/-- The last pass ends (R183, R186, R241). -/
def scrubComplete (s : State) : State :=
  if ¬ s.guard.scrubBusy ∨ s.guard.scrubPhase then s
  else
    let g := s.guard
    let pages := s.scrubScope
    let pid := if g.scrubAll then 0 else g.scrubDom
    let hit (d : Nat) : Bool := g.scrubAll || d = g.scrubDom.toNat
    let s := { s with
      guard := { pages.foldl (fun (g : Guard) p => g.putRecord p (scrubbedRec pid (g.record p))) g with
        zst := g.zst.filter fun e => ¬ hit e.1
        scrubBusy := false
        scrubPages := BitVec.ofNat 32 pages.length }
      parts := SMap.mapVals ({} : Part) s.parts fun d (p : Part) =>
        if hit d ∧ p.state = PState.bindingOff ∧ (g.scrubPhys ∨ ¬ p.physReq) then { p with scrubbed := true } else p }
    s.log 0x05000080 0 (if g.scrubAll then 127 else g.scrubDom.setWidth 8) (pack [(0, b2n g.scrubAll), (1, b2n g.scrubPhys)])
      (BitVec.ofNat 64 pages.length)

def execScrubComplete (s : State) : Host.Outcome State Fault Refusal := .next (scrubComplete s)

/-! ### Registers -/

def pageRecOf (s : State) (page : Nat) : PageRec :=
  match s.guard.slices.findSome? fun e => e.2.cache.find? fun c => c.page = page with
  | some c => c.pr
  | none => s.guard.record page

/-- The 48-bit counters of a slice page, at offsets 0x040 to 0x098 in order. -/
def sliceCounters (x : Slice) : List (BitVec 48) :=
  [x.rd, x.wr, x.zrd, x.zwr, x.miss, x.rknit, x.stale, x.refused, x.retry, x.integ, x.plain, x.zq]

def guardRegs : List Reg :=
  [ { base := 0x0AFF000, allow := capKSHO, get := fun _ _ _ => pack [(0, Config.slices), (7, Config.calderaGiB), (10, Config.coverageGiB)] },   -- GRD_CFG
    { base := 0x0AFF008, allow := capKSHO, get := fun _ _ _ => Config.carveOut },                                                            -- GRD_ATTACH
    { base := 0x0AFF010, allow := capKSHO                                                                                                    -- GRD_PROT
      get := fun _ _ s => pack [(0, s.guard.base.toNat), (22, s.guard.size.toNat), (31, b2n s.guard.locked)]
      put := fun _ c v m s => protWrite s c v m },
    { base := 0x0AFF018, allow := capK                                                                                                       -- GRD_SYNC
      get := fun _ _ s => pack [(0, s.guard.syncDom.toNat), (6, b2n s.guard.syncAll), (8, b2n s.guard.syncBusy)]
      put := fun _ c v m s => syncWrite s c v m },
    { base := 0x0AFF020, allow := capKSO                                                                                                     -- GRD_SCRUB
      get := fun _ _ s =>
        let g := s.guard
        pack [(0, g.scrubDom.toNat), (6, b2n g.scrubAll), (7, b2n g.scrubPhys), (9, b2n g.scrubBusy), (10, b2n g.scrubErr), (11, b2n g.scrubPhase), (16, g.scrubPages.toNat)]
      put := fun _ c v m s => scrubWrite s c v m },
    { base := 0x0AFF100, stride := 8, count := 64, allow := capKSO                                                                           -- GRD_PSTATE
      get := fun d _ s =>
        let k := s.keyEntry d
        let n := (s.guard.slices.map fun e => (e.2.knits.filter fun c => (s.pageRec e.1 c.page).pid.toNat = d).length).sum
        pack [(0, b2n k.valid), (1, b2n ((s.part d).state = .frozen)), (2, (s.part d).epoch.toNat), (6, k.kgen.toNat), (12, min n 7)] },
    { base := 0x0AFF400, stride := 16, count := 64, allow := capKS                                                                           -- GRD_ZST
      get := fun d _ s => let z := s.zst d; pack [(0, z.zlines.toNat), (36, z.fracRes.toNat), (44, z.fracRd.toNat)] },
    { base := 0x0AFF408, stride := 16, count := 64, allow := capKS, get := fun d _ s => pack [(0, (s.zst d).lines.toNat)] },
    { base := 0x0A00000, count := Config.slices, allow := capKSO                                                                             -- GRD_CTL
      get := fun n _ s => let x := s.slice n; pack [(0, b2n x.en), (1, b2n (carved n)), (2, b2n ((s.vent.unitRec (unitOf 2 (8 * n + 5))).state = 0)),
                                                   (3, b2n ((s.vent.unitRec (unitOf 3 (16 * n + 8))).state = 0))]
      put := fun n c v m s => if c = .K then s.updSlice n fun x => { x with en := mrgB x.en 0 v m && (x.en || (s.sliceEnabled n && !s.planeClosed)) } else s },
    { base := 0x0A00008, count := Config.slices, allow := capKSO                                                                             -- GRD_STAT
      get := fun n _ s =>
        let x := s.slice n
        pack [(0, b2n (bit s.bnd.memtrn n)), (1, b2n x.suspended), (2, x.knits.length), (5, x.cache.length), (15, x.fetches.length), (21, min x.macs.length 64)] },
    { base := 0x0A000C0, count := Config.slices, allow := capKSO                                                                             -- GRD_ERR_LOG
      get := fun n _ s =>
        let x := s.slice n
        pack [(0, x.errLine.toNat), (46, x.errDom.toNat), (53, x.errEpoch.toNat), (57, x.errSite.toNat), (62, b2n x.errValid), (63, b2n x.errOverflow)]
      put := fun n c v m s =>
        if c = .K then s.updSlice n fun x => { x with errValid := w1cB x.errValid 62 v m, errOverflow := w1cB x.errOverflow 63 v m } else s },
    -- CODE shows the detailed code to every class of the caption: the codes that R166 hides are hidden from callers (DESIGN CHOICE, log entry 45)
    { base := 0x0A000C8, count := Config.slices, allow := capKSO
      get := fun n _ s => let x := s.slice n; pack [(0, x.errCode.toNat), (16, x.errTime.toNat)] } ]
  ++ (List.range 12).map fun i =>
    { base := 0x0A00040 + 8 * i, count := Config.slices, allow := capKSO, get := fun n _ s => (((sliceCounters (s.slice n)).getD i 0).setWidth 64) }

end Sys2Proof.Machine
end

