-- ==== Sys2Proof/Machine/Skein.lean ====
section
/-! DEFINITION. Skein: slots, attributes, the KEY functions, derivations, the entropy source and the DRBG instances (R264 to R298, R713, R714). -/
namespace Sys2Proof.Machine

/-! ### Slots -/

def Skein.slot (k : Skein) (i : Nat) : SkSlot := SMap.get {} k.slots i
def Skein.setSlot (k : Skein) (i : Nat) (x : SkSlot) : Skein := { k with slots := SMap.set {} k.slots i x }
def State.setSkn (s : State) (k : Skein) : State := { s with skn := k }

/-- Bytes of material that LEN gives (R269). -/
def lenBytes (l : BitVec 2) : Nat := 32 + 16 * l.toNat
/-- A slot's material as bytes. -/
def SkSlot.bytes (x : SkSlot) : List Byte := leBytes (lenBytes x.len) x.mat
/-- A slot's first 256 bits. -/
def SkSlot.key (x : SkSlot) : Key256 := field x.mat 0 256

/-- SKN_META.LOCKED (R266). -/
def Skein.locked (k : Skein) (i : Nat) : Bool :=
  let x := k.slot i
  i < 24 || (if i < 64 then x.written else x.valid)

/-- Slots owned by partition `d` that hold a key. -/
def Skein.owned (k : Skein) (d : Nat) : Bool := k.slots.any fun e => e.2.valid && e.2.owner.toNat = d
def Skein.filled (k : Skein) : Nat := (k.slots.filter fun e => e.2.valid).length

/-- Engine mask bits (R270), as positions in ENGINES. -/
def engDrv : Nat := 0
def engDig : Nat := 1
def engPke : Nat := 2
def engWrap : Nat := 3
def engSlice : Nat := 4
def engWgate : Nat := 5
def engDump : Nat := 6
def engLink : Nat := 7
def engIde : Nat := 8

/-- ENGINES bits that a usage allows (R270). -/
def usageEngines (u : BitVec 2) : BitVec 9 :=
  match u.toNat with
  | 0 | 1 => ofBits 9 [engDig, engIde]
  | 2 => ofBits 9 [engWrap]
  | _ => ofBits 9 [engDrv, engDig, engPke, engSlice, engWgate, engDump, engLink]

/-- An attribute word breaks R269. -/
def attrBad (a : BitVec 32) : Bool :=
  field a 21 11 ≠ 0 || field a 18 2 = 3 || (field a 0 2 = 2 && field a 18 2 ≠ 0) || 64 < (field a 11 7).toNat ||
  (field a 2 9 &&& ~~~(usageEngines (field a 0 2))) ≠ 0

/-- A slot filled with material under an attribute word. -/
def SkSlot.fill (x : SkSlot) (a : BitVec 32) (origin : BitVec 3) (mat : List Byte) : SkSlot :=
  { x with mat := ofLeBytes 512 mat, valid := true, written := true, usage := field a 0 2, engines := field a 2 9, owner := field a 11 7,
           len := field a 18 2, exportable := bit a 20, origin := origin }

/-- The target of a slot write (R266): its refusal, if any. -/
def Skein.targetRange (_ : Skein) (t : Nat) : Option Status := if t < 24 then some 0x0201 else none
def Skein.targetLocked (k : Skein) (t : Nat) : Option Status := if k.locked t then some 0x0202 else none

/-- Empty and owner checks of a named slot (R713 step 6). -/
def Skein.named (k : Skein) (i : Nat) (dom : Dom) : Option Status :=
  let x := k.slot i
  if ¬ x.valid ∨ x.erasing then some 0x0203 else if x.owner ≠ dom then some 0x0204 else none

/-- The whole of R713 step 6 for a slot used as a key. -/
def Skein.usable (k : Skein) (i : Nat) (dom : Dom) (usage : BitVec 2) (eng : Nat) : Option Status :=
  match k.named i dom with
  | some st => some st
  | none => if (k.slot i).usage ≠ usage then some 0x0205 else if ¬ bit (k.slot i).engines eng then some 0x0206 else none

/-- The first failing check. -/
def firstFail (l : List (Option Status)) : Option Status := l.findSome? id

/-- Codes of class 0x02 hidden from callers other than Keeper (R298). -/
def keyHidden : List Status := [0x0202, 0x0203, 0x0204, 0x0205, 0x0206]

/-! ### DRBG -/

def Skein.drbg (k : Skein) (i : Nat) : Drbg := if i = 0 then k.drbg0 else k.drbg1
def Skein.setDrbg (k : Skein) (i : Nat) (d : Drbg) : Skein := if i = 0 then { k with drbg0 := d } else { k with drbg1 := d }

/-- The instance can serve a request: instantiated, and the source not failed (R294, R297). -/
def Skein.drbgReady (k : Skein) (i : Nat) : Bool := (k.drbg i).ready && k.esState = 2

/-- A request to instance `i`: `n` bytes and the instance after it (R295, R296). The samples of a reseed are free (log entry 12). -/
def State.drbgServe (s : State) (i n : Nat) (resist : Bool) : List Byte × Drbg := (s.skn.drbg i).request s.bnd.timebase resist (s.draw 512) n

/-- The bytes that a request returns. -/
def State.randomBytes (s : State) (n : Nat) (i : Nat := 0) (resist : Bool := false) : List Byte := (s.drbgServe i n resist).1
/-- `s` after that request; a reseed is work of the entropy source (R636). -/
def State.drbgUsed (s : State) (n : Nat) (i : Nat := 0) (resist : Bool := false) : State :=
  let t := if resist ∨ (s.skn.drbg i).stale s.bnd.timebase then s.worked (· = unitOf 11 0) else s
  { t with freeCount := s.freeCount + 1, skn := s.skn.setDrbg i (s.drbgServe i n resist).2 }

/-- Instantiate each instance that is not ready, from fresh samples (R295, R297). -/
def State.instantiateDrbgs (s : State) : State :=
  if s.skn.esState ≠ 2 then s
  else
    let one (i j : Nat) : Drbg :=
      if (s.skn.drbg i).ready then s.skn.drbg i else Drbg.start i s.bnd.timebase (s.drawAt 512 j) (s.drawAt 256 (j + 1))
    (s.drawn 4).setSkn { s.skn with drbg0 := one 0 0, drbg1 := one 1 2 }

/-- The start-up tests pass (R293). -/
def execEntropyStartupDone (s : State) : Host.Outcome State Fault Refusal :=
  .next (if s.bnd.porN ∧ s.skn.esState = 1 then (s.setSkn { s.skn with esState := 2 }).instantiateDrbgs else s)

/-- A failed health test (R294). -/
def State.entropyFails (s : State) (adaptive : Bool) : State :=
  let latched := 2 ≤ s.skn.esFails.toNat
  let s := s.setSkn { s.skn with esState := if latched then 4 else 3, esLast := adaptive, esFails := satAdd s.skn.esFails 1 }
  let s := s.log 0x02000080 (unitOf 11 0)
  let s := if latched then s.log 0x02000081 (unitOf 11 0) else s
  s.report 13 (unitOf 11 0) (Config.reportCode 13)

/-- ENTROPY_TEST_FAIL: raw samples run through both tests up to the one that fails (R292, R294). -/
def execEntropyTestFail (samples : List Bool) (s : State) : Host.Outcome State Fault Refusal :=
  .next (if s.skn.esState = 1 ∨ s.skn.esState = 2 then
    let r := s.skn.health.samples samples
    let s := s.setSkn { s.skn with health := r.1 }
    match r.2 with
    | some adaptive => s.entropyFails adaptive
    | none => s
  else s)

/-- ES_CTL.RESTART: the start-up tests run again from fresh samples (R294). -/
def esRestart (s : State) (c : Cls) : State := if c = .K ∧ s.skn.esState = 3 then s.setSkn { s.skn with esState := 1, health := {} } else s
def execEsRestart (cls : Cls) (s : State) : Host.Outcome State Fault Refusal := .next (esRestart s cls)

/-! ### Derivation -/

/-- KMAC256 with S = "RDS2" and X = length ‖ label ‖ B ‖ context (R283). -/
def derive (key : List Byte) (label : String) (b context : List Byte) (bytes : Nat) : List Byte :=
  kmac256 key (BitVec.ofNat 8 label.length :: ascii label ++ b ++ context) bytes (ascii "RDS2")

/-- A 256-bit key from a derivation. -/
def deriveKey (key : List Byte) (label : String) (context : List Byte) : Key256 := ofLeBytes 256 (derive key label [] context 32)

/-- The label that a KEY_DERIVE code names (R284). -/
def deriveLabel (code : Nat) : Option String :=
  match code with | 1 => some "kem" | 2 => some "job" | 3 => some "ledger" | 4 => some "cfg" | _ => none

/-- Erase a slot that Keeper had written, where it still holds its key (R280). -/
def State.slotErase (s : State) (i : Nat) : State :=
  if ¬ (s.skn.slot i).valid ∨ (s.skn.slot i).erasing then s else
  s.setSkn (s.skn.setSlot i { gen := (s.skn.slot i).gen + 1, written := decide (i < 64) })

/-! ### Ledger and configuration keys (R438, R439) -/

/-- The slot of the key derived with these, where it still holds it. -/
def State.storeKey (s : State) (label : Nat) (ident : List Byte) : Option Nat :=
  (s.fl.keys.find? fun k => k.label = label && k.ident = ident && (s.skn.slot k.slot).valid && (s.skn.slot k.slot).gen = k.gen).map (·.slot)

/-- Record the key that slot `t` now holds. -/
def State.noteStoreKey (s : State) (label : Nat) (ident : List Byte) (t : Nat) : State :=
  { s with fl := { s.fl with keys := s.fl.keys ++ [{ label := label, ident := ident, slot := t, gen := (s.skn.slot t).gen }] } }

/-- Erase the keys that `p` chooses. -/
def State.eraseStoreKeys (s : State) (p : StoreKey → Bool) : State :=
  let s := (s.fl.keys.filter p).foldl (fun s k => if (s.skn.slot k.slot).gen = k.gen then s.slotErase k.slot else s) s
  { s with fl := { s.fl with keys := s.fl.keys.filter fun k => !p k } }

/-! ### The KEY functions -/

def Desc.attr (d : Desc) : BitVec 32 := Desc.argField d 32 32
def Desc.target (d : Desc) : Nat := (Desc.argField d 0 8).toNat
def Desc.slotA (d : Desc) : Nat := (Desc.argField d 8 8).toNat
def Desc.slotB (d : Desc) : Nat := (Desc.argField d 16 8).toNat

/-- The SRAM form of an operand for a Keeper queue, with room for `n` bytes (R276); the form is judged for an empty operand too. -/
def sramForm (q : Nat) (v : W64) (n : Nat) : Option Status :=
  if ¬ bit v 63 ∨ qClass q ≠ .keeper ∨ 524288 < (field v 0 19).toNat + n then some 0x020B else none

def sramAddr (v : W64) : Nat := (field v 0 19).toNat
def State.sramRead (s : State) (v : W64) (n : Nat) : List Byte := Mem.read 0 s.skn.keeperSram (sramAddr v) n
def State.sramWrite (s : State) (v : W64) (bs : List Byte) : State :=
  s.setSkn { s.skn with keeperSram := Mem.write 0 s.skn.keeperSram (sramAddr v) bs }

/-- It is the command's turn: KEY functions run one at a time in dispatch order (R268), and a derivation waits while the derivation core takes
no new work (R634, R636). -/
def keyTurn (s : State) (f : Flight) : Bool :=
  match s.cmd.flights.find? fun g => (Desc.opcode g.desc).toNat / 16 = 1 with
  | some g => g.tag = f.tag && !g.started && (s.deriveUp || Desc.opcode g.desc ≠ 0x12)
  | none => false

/-- Complete a KEY function, hiding codes from a host queue. -/
def State.keyDone (s : State) (f : Flight) (st : Status) (result : Option W64 := none) : State := s.complete f (hideFor f.queue keyHidden st) result

/-- Fill the target and complete with its GEN. -/
def State.keyFill (s : State) (f : Flight) (origin : BitVec 3) (mat : List Byte) : State :=
  let t := Desc.target f.desc
  let x := (s.skn.slot t).fill (Desc.attr f.desc) origin mat
  let reads := Desc.opcode f.desc = 0x10 ∨ Desc.opcode f.desc = 0x12 ∨ Desc.opcode f.desc = 0x13
  (s.setSkn (s.skn.setSlot t x)).keyDone { f with seen := if reads then Desc.length f.desc else 0 } 0 (x.gen.setWidth 64)

/-- Target and attribute checks that the filling functions share (R713 steps 1, 4, 5, 7). -/
def attrCheck (d : Desc) : Option Status := if attrBad (Desc.attr d) then some 0x0207 else none
def ownerCheck (d : Desc) : Option Status := if field (Desc.attr d) 11 7 ≠ Desc.dom d then some 0x0204 else none
def lengthIs (d : Desc) (n : Nat) : Option Status := if (Desc.length d).toNat ≠ n then some 0x020C else none
def attrLen (d : Desc) : Nat := lenBytes (field (Desc.attr d) 18 2)

def keyWrite (f : Flight) (s : State) : State :=
  if ¬ keyTurn s f then s else
  let d := f.desc; let t := Desc.target d
  match firstFail [attrCheck d, sramForm f.queue (Desc.src0 d) (Desc.length d).toNat, lengthIs d (attrLen d), s.skn.targetRange t, s.skn.targetLocked t, ownerCheck d] with
  | some st => s.keyDone f st
  | none => s.keyFill f 2 (s.sramRead (Desc.src0 d) (attrLen d))

def keyGenerate (f : Flight) (s : State) : State :=
  if ¬ keyTurn s f then s else
  let d := f.desc; let t := Desc.target d
  match firstFail [attrCheck d, s.skn.targetRange t, s.skn.targetLocked t, ownerCheck d, if s.skn.drbgReady 0 then none else some 0x020A] with
  | some st => s.keyDone f st
  | none => (s.drbgUsed (attrLen d) 0 true).keyFill f 3 (s.randomBytes (attrLen d) 0 true)

def keyDerive (f : Flight) (s : State) : State :=
  if ¬ keyTurn s f then s else
  let d := f.desc; let t := Desc.target d; let a := Desc.slotA d; let b := Desc.slotB d
  let code := (Desc.argField d 25 7).toNat
  let useB := bit (Desc.arg d) 24
  let n := (Desc.length d).toNat
  let attrs : Option Status :=
    if attrBad (Desc.attr d) ∨ code = 0 ∨ 4 < code ∨ useB ≠ decide (code = 1) ∨ (code = 1 ∧ field (Desc.attr d) 0 2 ≠ 2) ∨
       (code = 2 ∧ field (Desc.attr d) 18 2 ≠ 0) then some 0x0207 else none
  let ranges : Option Status :=
    if t < 24 ∨ (if code = 3 ∨ code = 4 then a ≠ 3 else a < 24) ∨ (code = 1 ∧ b < 24) then some 0x0201 else none
  match firstFail [attrs, sramForm f.queue (Desc.src0 d) n, if 256 < n then some 0x020C else none, ranges, s.skn.targetLocked t,
      s.skn.usable a (Desc.dom d) 3 engDrv, if useB then s.skn.usable b (Desc.dom d) 3 engDrv else none, ownerCheck d] with
  | some st => s.keyDone f st
  | none =>
    let ident := s.sramRead (Desc.src0 d) n
    let s := (s.worked (· = unitOf 10 0)).keyFill f 4 (derive (s.skn.slot a).bytes ((deriveLabel code).getD "") (if useB then (s.skn.slot b).bytes else []) ident (attrLen d))
    if 3 ≤ code then s.noteStoreKey code ident t else s

def Desc.aadLen (d : Desc) : Nat := (Desc.argField d 64 10).toNat
/-- The form of SRC1, judged like every other operand's where there are no additional data too (R276). -/
def aadForm (q : Nat) (d : Desc) : Option Status := sramForm q (Desc.src1 d) (Desc.aadLen d)

def keyUnwrap (f : Flight) (s : State) : State :=
  if ¬ keyTurn s f then s else
  let d := f.desc; let t := Desc.target d; let k := Desc.slotA d; let n := (Desc.length d).toNat
  match firstFail [attrCheck d, sramForm f.queue (Desc.src0 d) n, aadForm f.queue d,
      if n ≠ 28 + attrLen d ∨ 512 < Desc.aadLen d then some 0x020C else none, s.skn.targetRange t, s.skn.targetLocked t,
      s.skn.usable k (Desc.dom d) 2 engWrap, ownerCheck d] with
  | some st => s.keyDone f st
  | none =>
    let blob := s.sramRead (Desc.src0 d) n
    match gcmOpen (s.skn.slot k).key (blob.take 12) (s.sramRead (Desc.src1 d) (Desc.aadLen d)) ((blob.drop 12).take (attrLen d))
        (ofLeBytes 128 (blob.drop (12 + attrLen d))) with
    | none => s.keyDone { f with seen := Desc.length d } 0x0208
    | some m => s.keyFill f 5 m

def keyWrap (f : Flight) (s : State) : State :=
  if ¬ keyTurn s f then s else
  let d := f.desc; let t := Desc.target d; let k := Desc.slotA d
  let x := s.skn.slot t
  let n := lenBytes x.len
  match firstFail [aadForm f.queue d, sramForm f.queue (Desc.dst d) (28 + n),
      if 512 < Desc.aadLen d then some 0x020C else none, s.skn.named t (Desc.dom d), s.skn.usable k (Desc.dom d) 2 engWrap,
      if t < 24 ∨ ¬ x.exportable then some 0x0209 else none, if s.skn.drbgReady 0 then none else some 0x020A] with
  | some st => s.keyDone f st
  | none =>
    let iv := s.randomBytes 12
    let e := gcmSeal (s.skn.slot k).key iv (s.sramRead (Desc.src1 d) (Desc.aadLen d)) x.bytes
    ((s.drbgUsed 12).sramWrite (Desc.dst d) (iv ++ e.1 ++ leBytes 16 e.2)).keyDone f 0 (BitVec.ofNat 64 (28 + n))

/-- KEY_ERASE of a slot that holds a key sets ERASING; the end of the erase is KEY_ERASE_FINISH (R280). Every operation reads its slots in one
row, the public-key engine when it takes an operation up, so none is still reading when the erase ends. -/
def keyErase (f : Flight) (s : State) : State :=
  if ¬ keyTurn s f then s else
  let t := Desc.target f.desc
  let x := s.skn.slot t
  if t < 24 then s.keyDone f 0x0201
  else if ¬ x.valid then s.keyDone f 0 (x.gen.setWidth 64)
  else if x.owner ≠ Desc.dom f.desc then s.keyDone f 0x0204
  else { s with skn := s.skn.setSlot t { x with erasing := true }, cmd := s.cmd.setFlight { f with started := true } }

/-- KEY_ERASE_FINISH: the readers of the slot have finished (R280). -/
def keyEraseFinish (s : State) (t : Nat) : State :=
  let x := s.skn.slot t
  if ¬ x.erasing then s
  else
    let x' : SkSlot := { gen := x.gen + 1, written := decide (t < 64) }
    let s := s.setSkn (s.skn.setSlot t x')
    match s.cmd.flights.find? fun f => Desc.opcode f.desc = 0x15 ∧ Desc.target f.desc = t ∧ f.started with
    | some f => s.keyDone f 0 (x'.gen.setWidth 64)
    | none => s

/-- KEY_LOAD_IDE: the key index names sub-stream, direction, key set and stream slot (R674); TX takes ENCRYPT_ONLY, RX DECRYPT_ONLY. -/
def keyLoadIde (f : Flight) (s : State) : State :=
  if ¬ keyTurn s f then s else
  let d := f.desc; let t := Desc.target d
  let idx := Desc.argField d 8 8
  let tx := bit idx 2
  match s.skn.usable t (Desc.dom d) (if tx then 0 else 1) engIde with
  | some st => s.keyDone f st
  | none =>
    (s.emit (.ideKey (idx.toNat / 16) (bit idx 3) (b2n tx) (idx.toNat % 4) (s.skn.slot t).bytes s.host.ideIv)).keyDone f 0

/-- Issue the next write of a KEY_RANDOM, or complete it when no byte is left (R714). -/
def keyRandomNext (s : State) (r : KeyRandom) : State :=
  match s.cmd.flight r.tag with
  | none => s
  | some f =>
    if r.bytes.isEmpty then ({ s with skn := { s.skn with random := none } }).keyDone f 0 (BitVec.ofNat 64 r.written)
    else
      let off := r.addr % 64
      let n := min (64 - off) r.bytes.length
      let data : Line := (ofLeBytes 512 (r.bytes.take n)) <<< (8 * off)
      let mask : BitVec 64 := BitVec.ofNat 64 ((2 ^ n - 1) * 2 ^ off)
      ({ s with skn := { s.skn with random := some r } }).request (.cmd r.tag) (if n = 64 then 1 else 2) (BitVec.ofNat 52 r.addr) 65 data mask

def keyRandom (f : Flight) (s : State) : State :=
  if ¬ keyTurn s f then s else
  let d := f.desc; let n := (Desc.length d).toNat
  let inst := if qClass f.queue = .keeper then 0 else 1
  let source : Option Status := if bit (Desc.dst d) 63 then sramForm f.queue (Desc.dst d) n else none
  match firstFail [source, if n = 0 ∨ 4096 < n then some 0x020C else none, if s.skn.drbgReady inst then none else some 0x020A] with
  | some st => s.keyDone f st
  | none =>
    let bs := s.randomBytes n inst
    let s := s.drbgUsed n inst
    if bit (Desc.dst d) 63 then (s.sramWrite (Desc.dst d) bs).keyDone f 0 (BitVec.ofNat 64 n)
    else
      let s := { s with cmd := s.cmd.setFlight { f with started := true } }
      keyRandomNext s { tag := f.tag, bytes := bs, addr := (field (Desc.dst d) 0 52).toNat, written := 0, retries := 0 }

/-- A response to a KEY_RANDOM write (R714). -/
def keyRandomResp (s : State) (r : KeyRandom) (resp : Resp) (code : Status) : State :=
  let n := min (64 - r.addr % 64) r.bytes.length
  let stop (st : Status) : State :=
    match s.cmd.flight r.tag with
    | some f => ({ s with skn := { s.skn with random := none } }).complete f (hideFor f.queue guardHidden st) (BitVec.ofNat 64 r.written)
    | none => s
  match resp with
  | .ok => keyRandomNext s { r with bytes := r.bytes.drop n, addr := r.addr + n, written := r.written + n, retries := 0 }
  | .retry => if r.retries < 16 then keyRandomNext s { r with retries := r.retries + 1 } else stop 0x050C
  | _ => stop (respCode resp code)

def execKeyWrite (tag : Tag) (s : State) : Host.Outcome State Fault Refusal := .next (s.withFlight tag 0x10 keyWrite)
def execKeyGenerate (tag : Tag) (s : State) : Host.Outcome State Fault Refusal := .next (s.withFlight tag 0x11 keyGenerate)
def execKeyDerive (tag : Tag) (s : State) : Host.Outcome State Fault Refusal := .next (s.withFlight tag 0x12 keyDerive)
def execKeyUnwrap (tag : Tag) (s : State) : Host.Outcome State Fault Refusal := .next (s.withFlight tag 0x13 keyUnwrap)
def execKeyWrap (tag : Tag) (s : State) : Host.Outcome State Fault Refusal := .next (s.withFlight tag 0x14 keyWrap)
def execKeyErase (tag : Tag) (s : State) : Host.Outcome State Fault Refusal := .next (s.withFlight tag 0x15 keyErase)
def execKeyEraseFinish (slot : BitVec 8) (s : State) : Host.Outcome State Fault Refusal := .next (keyEraseFinish s slot.toNat)
def execKeyLoadIde (tag : Tag) (s : State) : Host.Outcome State Fault Refusal := .next (s.withFlight tag 0x16 keyLoadIde)
def execKeyRandom (tag : Tag) (s : State) : Host.Outcome State Fault Refusal := .next (s.withFlight tag 0x17 keyRandom)

/-! ### Alias derivations -/

/-- A slot filled by hardware (R273). -/
def hwSlot (gen : BitVec 16) (eng : BitVec 9) (len : BitVec 2) (mat : List Byte) : SkSlot :=
  { mat := ofLeBytes 512 mat, valid := true, usage := 3, engines := eng, owner := 64, len := len, origin := 1, gen := gen }

/-- The Alias level, from slot 0 and SKN_MEAS (R284, R288), under the condition of R267. -/
def State.aliasDerive (s : State) : State :=
  let k := s.skn
  if ¬ (k.slot 0).valid ∨ s.lc.dbgSince then s
  else
    let ctx := leBytes 48 k.keeperDig ++ leBytes 48 k.stewardDig ++ leBytes 48 k.rowDig ++ leBytes 2 k.keeperSvn ++ leBytes 2 k.stewardSvn ++
      leBytes 2 k.rowSvn ++ [BitVec.ofNat 8 (b2n s.bnd.isolated)]
    let cdi := derive (k.slot 0).bytes "alias" [] ctx 64
    let k := k.setSlot 16 (hwSlot (k.slot 16).gen 0 2 cdi)
    let k := k.setSlot 17 (hwSlot (k.slot 17).gen (ofBits 9 [engPke]) 2 (derive cdi "alias-ecdsa" [] [] 64))
    let k := k.setSlot 18 (hwSlot (k.slot 18).gen (ofBits 9 [engPke]) 0 (derive cdi "alias-mldsa" [] [] 32))
    s.setSkn { k with aliasDone := true }

/-- Setting COMMIT locks SKN_MEAS and starts the Alias derivations (R288). -/
def measCommit (s : State) (c : Cls) : State :=
  if c ≠ .K ∨ s.skn.commit then s else (s.setSkn { s.skn with commit := true }).aliasDerive

def execSknMeasCommit (cls : Cls) (s : State) : Host.Outcome State Fault Refusal := .next (measCommit s cls)

/-! ### Registers -/

def Skein.measWord (k : Skein) : BitVec 1216 :=
  k.keeperDig.setWidth 1216 ||| (k.stewardDig.setWidth 1216 <<< 384) ||| (k.rowDig.setWidth 1216 <<< 768) ||| (k.keeperSvn.setWidth 1216 <<< 1152) |||
  (k.stewardSvn.setWidth 1216 <<< 1168) ||| (k.rowSvn.setWidth 1216 <<< 1184) ||| ((BitVec.ofBool k.commit).setWidth 1216 <<< 1200)

/-- Class K writes SKN_MEAS until COMMIT, in as many accesses as it needs (R288). -/
def measPut (s : State) (c : Cls) (o : Nat) (bs : List Byte) : State :=
  if c ≠ .K ∨ s.skn.commit then s
  else
    let w := (bs.zipIdx.foldl (fun v b => putField v (8 * (o + b.2)) 8 b.1) s.skn.measWord)
    let k := { s.skn with keeperDig := field w 0 384, stewardDig := field w 384 384, rowDig := field w 768 384, keeperSvn := field w 1152 16,
                          stewardSvn := field w 1168 16, rowSvn := field w 1184 16 }
    if bit w 1200 then measCommit (s.setSkn k) c else s.setSkn k

def sknWindows : List Window :=
  [ { base := 0x0500100, span := 0x98, allow := capKSHO                                                                -- SKN_MEAS
      get := fun _ o n _ s => peek s.skn.measWord o n
      put := fun _ o c bs s => measPut s c o bs } ]
where
  peek (w : BitVec 1216) (o n : Nat) : List Byte := (List.range n).map fun i => field w (8 * (o + i)) 8

def sknRegs : List Reg :=
  [ { base := 0x0500000, allow := capKSHO                                                                              -- SKN_STAT
      get := fun _ _ s =>
        let k := s.skn
        pack [(0, b2n k.devidDone), (1, b2n k.aliasDone), (2, b2n k.secretDenied), (3, b2n (s.cmd.flights.any fun g => (Desc.opcode g.desc).toNat / 16 = 1 && g.started)), (4, k.filled)] },
    { base := 0x0501000, stride := 8, count := 256, allow := capKSO                                                    -- SKN_META
      get := fun i _ s =>
        let x := s.skn.slot i
        pack [(0, b2n x.valid), (1, b2n (s.skn.locked i)), (2, x.usage.toNat), (4, x.engines.toNat), (13, x.owner.toNat), (20, x.len.toNat),
              (22, b2n x.exportable), (23, x.origin.toNat), (26, b2n x.erasing), (32, x.gen.toNat)] },
    { base := 0x0500200, allow := capK, get := fun _ _ _ => 0                                                           -- ES_CTL
      put := fun _ c v m s => if bit (v &&& m) 0 then esRestart s c else s },
    { base := 0x0500208, allow := capKSHO                                                                              -- ES_STAT
      get := fun _ _ s => pack [(0, s.skn.esState.toNat), (3, b2n s.skn.esLast), (4, s.skn.esFails.toNat)] },
    { base := 0x0500210, stride := 8, count := 2, allow := capKSHO                                                     -- DRBG_STAT
      get := fun i _ s => let d := s.skn.drbg i; pack [(0, b2n d.ready), (1, d.reqs.toNat), (32, d.lastReseed.toNat / 2 ^ 20 % 2 ^ 32)] } ]

end Sys2Proof.Machine
end

