-- ==== Sys2Proof/Machine/Digest.lean ====
section
/-! DEFINITION. The digest engine: contexts, functions, cores and comparators (R299 to R332). -/
namespace Sys2Proof.Machine

/-! ### Algorithms (R299, R300) -/

/-- Block or rate in bytes. -/
def digBlock (a : Nat) : Nat := [64, 128, 128, 136, 104, 72, 168, 136, 64, 128, 128, 168, 136].getD a 1
/-- Output bytes of a fixed-length algorithm, 0 for the others. -/
def digFixed (a : Nat) : Nat := [32, 48, 64, 32, 48, 64, 0, 0, 32, 48, 64, 0, 0].getD a 0
def digKeyed (a : Nat) : Bool := 8 ≤ a && a ≤ 12
def digKmac (a : Nat) : Bool := a = 11 || a = 12
/-- The largest byte count (R311). -/
def digLimit (a : Nat) : Nat := if a = 0 ∨ a = 8 then 2 ^ 61 - 1 else if a ≤ 2 ∨ a = 9 ∨ a = 10 then 2 ^ 125 - 1 else 2 ^ 128 - 1

/-- HMAC (FIPS 198-1) over a hash with the given block size; the key never exceeds it (R300). -/
def hmac (h : List Byte → List Byte) (block : Nat) (key m : List Byte) : List Byte :=
  let k := key ++ List.replicate (block - key.length) 0
  h (k.map (· ^^^ 0x5C) ++ h (k.map (· ^^^ 0x36) ++ m))

/-- The output of `n` bytes. -/
def digOutput (a : Nat) (key custom m : List Byte) (n : Nat) : List Byte :=
  match a with
  | 0 => sha256 m | 1 => sha384 m | 2 => sha512 m
  | 3 => sha3_256 m | 4 => sha3_384 m | 5 => sha3_512 m
  | 6 => shake128 m n | 7 => shake256 m n
  | 8 => hmac sha256 64 key m | 9 => hmac sha384 128 key m | 10 => hmac sha512 128 key m
  | 11 => kmac128 key m n custom
  | _ => kmac256 key m n custom

/-- Blocks that padding and output add to a message of `count` bytes (R313, and the chapter's throughput notes). -/
def digTail (a count out : Nat) : Nat :=
  let b := digBlock a
  let r := count % b
  if a ≤ 2 ∨ (8 ≤ a ∧ a ≤ 10) then
    let len := if a = 0 ∨ a = 8 then 8 else 16
    (if r + 1 + len ≤ b then 1 else 2) + (if 8 ≤ a then 1 else 0)
  else
    let extra := if digKmac a then (rightEncode (8 * out)).length else 0
    (if r + extra + 1 ≤ b then 1 else 2) + (out + b - 1) / b - 1

/-- Blocks that forming the starting state takes: two for HMAC; for KMAC its encoded name and customisation, and its encoded key. -/
def digHead (a : Nat) (key custom : List Byte) : Nat :=
  if 8 ≤ a ∧ a ≤ 10 then 2 else if digKmac a then (kmacHead (digBlock a) custom key).length / digBlock a else 0

/-! ### Accessors -/

def State.digCtx (s : State) (c : Nat) : DigCtx := SMap.get {} s.dig.ctxs c
def State.setDigCtx (s : State) (c : Nat) (x : DigCtx) : State := { s with dig := { s.dig with ctxs := SMap.set {} s.dig.ctxs c x } }
def State.digCore (s : State) (i : Nat) : DigCore := SMap.get {} s.dig.cores i
def State.setDigCore (s : State) (i : Nat) (x : DigCore) : State := { s with dig := { s.dig with cores := SMap.set {} s.dig.cores i x } }

/-- QCLASS of a queue class. -/
def QClass.dig : QClass → BitVec 2
  | .keeper => 0 | .steward => 1 | .host => 2 | .part => 3

/-- Codes hidden from callers other than Keeper (R331, R298, R166). -/
def digHidden : List Status := 0x0302 :: keyHidden ++ guardHidden

/-- A core may serve contexts: it is in service (R307, R309). -/
def State.digCoreUp (s : State) (i : Nat) : Bool := (s.vent.unitRec (unitOf 8 i)).state = 0

/-- A context is ready and no core serves it. -/
def State.digReady (s : State) (c : Nat) : Bool := 0 < (s.digCtx c).pend && !((List.range 5).any fun i => (s.digCore i).ctx = some c)

/-- The next ready context after `last`, in round-robin order (R308). -/
def State.digNext (s : State) (last : Nat) : Option Nat := ((List.range 32).map fun i => (last + 1 + i) % 32).find? s.digReady

/-- Idle cores take ready contexts. -/
def State.digFeed (s : State) : State :=
  (List.range 5).foldl (fun s i =>
    let k := s.digCore i
    if k.ctx.isSome ∨ ¬ s.digCoreUp i then s
    else match s.digNext k.last with
      | some c => s.setDigCore i { k with ctx := some c, run := 0 }
      | none => s) s

/-- A context no longer needs its core. -/
def State.digRelease (s : State) (c : Nat) : State :=
  (List.range 5).foldl (fun s i => let k := s.digCore i; if k.ctx = some c then s.setDigCore i { ctx := none, run := 0, last := c } else s) s

/-- Complete a function of the engine; the context it named, if any, is free for the next one. -/
def State.digDone (s : State) (f : Flight) (st : Status) (result : Option W64 := none) : State :=
  let c := (Desc.argField f.desc 0 5).toNat
  let x := s.digCtx c
  let s := if Desc.opcode f.desc ≠ 0x20 ∧ x.func = some f.tag then s.setDigCtx c { x with func := none, inbox := [], left := 0, pend := 0, flip := 0 } else s
  (s.ownEnd f.tag (st = 0)).complete (((s.cmd.flight f.tag)).getD f) (hideFor f.queue digHidden st) result

/-! ### Operands (R326 to R328) -/

/-- The refusal of an operand form of `n` bytes. -/
def digForm (q : Nat) (dom : Dom) (v : W64) (n : Nat) (write : Bool) : Option Status :=
  if n = 0 then none
  else if bit v 63 then
    match qClass q with
    | .keeper => if (field v 0 20).toNat + n ≤ 524288 then none else some 0x0307
    | .steward => if (field v 0 20).toNat + n ≤ 1048576 then none else some 0x0307
    | _ => some 0x0307
  else if dom = 64 ∨ (write ∧ dom ≠ 65) then some 0x0307 else none

/-- Bytes of the SRAM that an operand with bit 63 names. -/
def State.coreRead (s : State) (q : Nat) (v : W64) (n : Nat) : List Byte :=
  Mem.read 0 (if qClass q = .steward then s.skn.stewardSram else s.skn.keeperSram) (field v 0 20).toNat n
def State.coreWrite (s : State) (q : Nat) (v : W64) (bs : List Byte) : State :=
  if qClass q = .steward then s.setSkn { s.skn with stewardSram := Mem.write 0 s.skn.stewardSram (field v 0 20).toNat bs }
  else s.setSkn { s.skn with keeperSram := Mem.write 0 s.skn.keeperSram (field v 0 20).toNat bs }

def Desc.digCtx (d : Desc) : Nat := (Desc.argField d 0 5).toNat

/-- Functions that name context `c` and were dispatched before it opened, or after a close of it, complete with DIG_CONTEXT (R304, R306). -/
def State.digRefuse (s : State) (c : Nat) (fs : List Flight) : State :=
  (fs.filter fun g => 0x21 ≤ (Desc.opcode g.desc).toNat ∧ (Desc.opcode g.desc).toNat ≤ 0x24 ∧ Desc.digCtx g.desc = c).foldl (fun s g => s.digDone g 0x0302) s

/-! ### DIG_OPEN (R302, R303, R324) -/

/-- The lowest free context that a queue class may use. -/
def State.digFree (s : State) (k : QClass) : Option Nat := (List.range' (if k = .keeper then 0 else 4) (if k = .keeper then 32 else 28)).find? fun c => (s.digCtx c).state = 0

/-- An open dispatched before `f` waits for a context that it may use now: waiting opens go first (R303). -/
def State.digQueued (s : State) (f : Flight) : Bool :=
  (s.cmd.flights.takeWhile fun g => g.tag ≠ f.tag).any fun g => Desc.opcode g.desc = 0x20 ∧ g.started ∧ (s.digFree (qClass g.queue)).isSome

/-- Contexts owned by a domain. -/
def State.digOwned (s : State) (d : Dom) : Nat := ((List.range 32).filter fun c => (s.digCtx c).state ≠ 0 ∧ (s.digCtx c).owner = d).length

/-- The key slot of a DIG_OPEN (R324). -/
def digKeyCheck (s : State) (d : Desc) : Option Status :=
  let k := (Desc.argField d 8 8).toNat
  if ¬ bit (Desc.arg d) 16 then none
  else match s.skn.named k (Desc.dom d) with
    | some st => some st
    | none =>
      if (s.skn.slot k).usage = 2 then some 0x0205
      else if ¬ bit (s.skn.slot k).engines engDig then some 0x0206 else none

def digOpen (f : Flight) (s : State) : State :=
  let d := f.desc
  let a := (Desc.argField d 0 4).toNat
  let n := (Desc.length d).toNat
  let keyed := bit (Desc.arg d) 16
  let mem := 0 < n ∧ ¬ bit (Desc.src0 d) 63
  match firstFail [
    if 12 < a ∨ keyed ≠ digKeyed a then some 0x0301 else none,
    if 256 < n ∨ (0 < n ∧ ¬ digKmac a) then some 0x0308 else none,
    digForm f.queue (Desc.dom d) (Desc.src0 d) n false,
    if (Desc.dom d).toNat < 64 ∧ 4 ≤ s.digOwned (Desc.dom d) then some 0x0303 else none,
    digKeyCheck s d] with
  | some st => s.digDone f st
  | none =>
    let reads := s.ownOf (.cmd f.tag)
    if mem ∧ reads.isEmpty then s.requestSpan (.cmd f.tag) (Desc.dom d) (field (Desc.src0 d) 0 52).toNat n
    else if mem ∧ ¬ s.ownDone (.cmd f.tag) then s
    else match if s.digQueued f then none else s.digFree (qClass f.queue) with
      | none => { s with cmd := s.cmd.setFlight { f with started := true } }
      | some c =>
        let k := s.skn.slot (Desc.argField d 8 8).toNat
        let custom := if n = 0 then [] else if mem then spanBytes reads (field (Desc.src0 d) 0 52).toNat n else s.coreRead f.queue (Desc.src0 d) n
        let key := if keyed then k.bytes else []
        let x : DigCtx := { state := 1, alg := BitVec.ofNat 4 a, owner := Desc.dom d, qclass := (qClass f.queue).dig, keyed := keyed,
                            usage := if keyed then k.usage else 0, key := key, custom := custom }
        let s := (s.digRefuse c (s.cmd.flights.filter fun g => ¬ (Desc.opcode g.desc = 0x24 ∧ qClass g.queue = .keeper))).setDigCtx c x
        let s := { s with dig := { s.dig with cntBlocks := s.dig.cntBlocks + BitVec.ofNat 48 (digHead a key custom) } }
        ((s.pcount (Desc.dom d).toNat 9 (digHead a key custom)).engineWork f.tag (digHead a key custom)).digDone f 0 (BitVec.ofNat 64 c)

/-- DIG_OPEN_GRANT: the first waiting open, in dispatch order, that may use a free context receives it. -/
def digOpenGrant (s : State) : State :=
  match s.cmd.flights.find? fun f => Desc.opcode f.desc = 0x20 ∧ f.started ∧ (s.digFree (qClass f.queue)).isSome with
  | some f => digOpen f s
  | none => s

/-! ### The functions that name a context -/

/-- Functions on one context run one at a time in dispatch order (R305). -/
def digTurn (s : State) (f : Flight) : Bool :=
  let names (g : Flight) : Bool :=
    0x21 ≤ (Desc.opcode g.desc).toNat && (Desc.opcode g.desc).toNat ≤ 0x24 && Desc.digCtx g.desc = Desc.digCtx f.desc
  (match s.cmd.flights.find? names with | some g => g.tag = f.tag | none => false) && (s.digCtx (Desc.digCtx f.desc)).func = none

/-- R304. -/
def digNamed (s : State) (f : Flight) : Option Status :=
  let x := s.digCtx (Desc.digCtx f.desc)
  if x.state = 0 ∨ x.owner ≠ Desc.dom f.desc ∨ x.qclass ≠ (qClass f.queue).dig then some 0x0302 else none

/-- The count and message that an update extends (R314). -/
def DigCtx.base (x : DigCtx) : DigCtx := if x.state = 2 then { x with state := 1, msg := [], count := 0 } else x

/-- Full blocks that `n` more bytes complete behind the first `m` bytes received. -/
def DigCtx.newBlocks (x : DigCtx) (m n : Nat) : Nat :=
  let c := x.base.count.toNat + m
  (c + n) / digBlock x.alg.toNat - c / digBlock x.alg.toNat

/-- An update ends when every byte has come and every full block is absorbed. -/
def State.digUpdateEnd (s : State) (c : Nat) (f : Flight) : State :=
  let x := s.digCtx c
  if x.left ≠ 0 ∨ x.pend ≠ 0 then s
  else
    let y := x.base
    let n := y.count + BitVec.ofNat 128 (Desc.length f.desc).toNat
    let s := s.sawBytes f.tag (Desc.length f.desc).toNat
    (s.setDigCtx c { y with msg := y.msg ++ x.inbox, count := n }).digDone f 0 (field n 0 64)

/-- Read the next line of a memory source. -/
def State.digReadNext (s : State) (c : Nat) (f : Flight) : State :=
  let x := s.digCtx c
  if x.left = 0 then s else s.request (.cmd f.tag) 0 (BitVec.ofNat 52 (x.next / 64 * 64)) (Desc.dom f.desc)

def digUpdate (f : Flight) (s : State) : State :=
  if ¬ digTurn s f then s else
  let d := f.desc
  let c := Desc.digCtx d
  let x := s.digCtx c
  let n := (Desc.length d).toNat
  match firstFail [digForm f.queue (Desc.dom d) (Desc.src0 d) n false, digNamed s f,
      if digLimit x.alg.toNat < x.base.count.toNat + n then some 0x0306 else none] with
  | some st => s.digDone f st
  | none =>
    if 0 < n ∧ ¬ bit (Desc.src0 d) 63 then
      (s.setDigCtx c { x with func := some f.tag, inbox := [], left := n, next := (field (Desc.src0 d) 0 52).toNat, pend := 0 }).digReadNext c f
    else
      let bs := if n = 0 then [] else s.coreRead f.queue (Desc.src0 d) n
      ((s.setDigCtx c { x with func := some f.tag, inbox := bs, left := 0, pend := x.newBlocks 0 n }).digUpdateEnd c f).digFeed

/-- A line of an update's memory source has come. -/
def State.digData (s : State) (c : Nat) (f : Flight) (data : Line) : State :=
  let x := s.digCtx c
  let o := x.next % 64
  let n := min (64 - o) x.left
  let bs := (leBytes 64 data).drop o |>.take n
  let s := s.sawBytes f.tag (x.inbox.length + n)
  let s := s.setDigCtx c { x with inbox := x.inbox ++ bs, left := x.left - n, next := x.next + n, pend := x.pend + x.newBlocks x.inbox.length n }
  ((s.digReadNext c f).digUpdateEnd c f).digFeed

/-- Output bytes of a finish or compare. -/
def digLen (x : DigCtx) (asked : Nat) : Nat := if digFixed x.alg.toNat = 0 then asked else digFixed x.alg.toNat

/-- The checks of DIG_FINISH (R301, R304, R315 to R318, R325). -/
def digFinishCheck (s : State) (f : Flight) : Option Status :=
  let d := f.desc
  let x := s.digCtx (Desc.digCtx d)
  let asked := (Desc.argField d 64 13).toNat
  let slot := bit (Desc.arg d) 16
  let dst := bit (Desc.arg d) 17
  let fixed := digFixed x.alg.toNat
  let out := digLen x asked
  let t := Desc.slotA d
  firstFail [
    if (Desc.length d).toNat ≠ 0 then some 0x0308 else none,
    if dst then digForm f.queue (Desc.dom d) (Desc.dst d) (max out 1) true else none,
    digNamed s f,
    if x.state = 2 then some 0x0304 else none,
    if (if fixed = 0 then asked = 0 ∨ 4096 < asked else asked ≠ 0 ∧ asked ≠ fixed) then some 0x0305 else none,
    if (slot ∧ dst) ∨ (64 < out ∧ ¬ dst) ∨ (slot ∧ qClass f.queue ≠ .keeper) then some 0x0305 else none,
    if x.keyed ∧ (x.usage = 1 ∨ (x.usage = 0 ∧ slot) ∨ (x.usage = 3 ∧ ¬ slot)) then some 0x0205 else none,
    if slot ∧ attrBad (Desc.attr d) then some 0x0207 else none,
    if slot ∧ out ≠ attrLen d then some 0x0305 else none,
    if slot then s.skn.targetRange t else none,
    if slot then s.skn.targetLocked t else none]

def digFinish (f : Flight) (s : State) : State :=
  if ¬ digTurn s f then s else
  let c := Desc.digCtx f.desc
  let x := s.digCtx c
  match digFinishCheck s f with
  | some st => s.digDone f st
  | none =>
    let out := digLen x (Desc.argField f.desc 64 13).toNat
    (s.setDigCtx c { x with func := some f.tag, inbox := [], left := 0, pend := digTail x.alg.toNat x.count.toNat out }).digFeed

/-- The output of the finish `f` on a context. -/
def DigCtx.output (x : DigCtx) (f : Flight) : List Byte := digOutput x.alg.toNat x.key x.custom x.msg (digLen x (Desc.argField f.desc 64 13).toNat)

/-- A finish that ends OK: the context enters FINISHED with the output it may show (R317, R318). -/
def State.digFinished (s : State) (c : Nat) (f : Flight) (res : W64) : State :=
  let x := s.digCtx c
  let o := x.output f
  (s.setDigCtx c { x with
    state := 2, outLen := BitVec.ofNat 13 o.length, result := if bit (Desc.arg f.desc) 16 then 0 else ofLeBytes 512 (o.take 64) }).digDone f 0 res

/-- A finish has absorbed its padding: deliver the output (R317, R318). Plain writes come first, and the finish commits nothing before
the last of them is answered (R97, R329). -/
def State.digDeliver (s : State) (c : Nat) (f : Flight) : State :=
  let d := f.desc
  let x := s.digCtx c
  let o := x.output f
  let res : W64 := ofLeBytes 64 (o.take 8)
  if bit (Desc.arg d) 16 then
    let t := Desc.slotA d
    if s.skn.locked t then s.digDone f 0x0202
    else
      let y := (s.skn.slot t).fill (Desc.attr d) 6 o
      (s.setSkn (s.skn.setSlot t y)).digFinished c f (y.gen.setWidth 64)
  else if bit (Desc.arg d) 17 then
    if bit (Desc.dst d) 63 then (s.coreWrite f.queue (Desc.dst d) o).digFinished c f res
    else (s.setDigCtx c { x with left := 1 }).plainOut f.tag (field (Desc.dst d) 0 52).toNat o
  else s.digFinished c f res

/-- The checks of DIG_COMPARE. -/
def digCompareCheck (s : State) (f : Flight) : Option Status :=
  let d := f.desc
  let x := s.digCtx (Desc.digCtx d)
  let n := (Desc.length d).toNat
  firstFail [
    if n < 4 ∨ 64 < n then some 0x0308 else none,
    digForm f.queue (Desc.dom d) (Desc.src1 d) n false,
    digNamed s f,
    if x.state = 2 then some 0x0304 else none,
    if x.keyed ∧ x.usage = 3 then some 0x0205 else none]

def digCompare (f : Flight) (s : State) : State :=
  if ¬ digTurn s f then s else
  let d := f.desc
  let c := Desc.digCtx d
  let x := s.digCtx c
  let n := (Desc.length d).toNat
  match digCompareCheck s f with
  | some st => s.digDone f st
  | none =>
    let tail := digTail x.alg.toNat x.count.toNat (digLen x n)
    if bit (Desc.src1 d) 63 then
      (s.setDigCtx c { x with func := some f.tag, inbox := s.coreRead f.queue (Desc.src1 d) n, left := 0, pend := tail }).digFeed
    else
      ((s.setDigCtx c { x with func := some f.tag, inbox := [], left := 1, pend := tail }).requestSpan (.cmd f.tag) (Desc.dom d)
        (field (Desc.src1 d) 0 52).toNat n).digFeed

/-- The comparison (R319 to R323): the first comparator decides MATCH, the second MATCH_N; bit 0 of the context's `flip` makes the first
err, bit 1 the second. `core` absorbed the last block. -/
def State.digJudge (s : State) (c : Nat) (f : Flight) (core : Nat) : State :=
  let x := s.digCtx c
  if x.left ≠ 0 ∨ x.pend ≠ 0 then s
  else
    let n := (Desc.length f.desc).toNat
    let o := digOutput x.alg.toNat x.key x.custom x.msg (digLen x n)
    let same := decide (o.take n = x.inbox)
    let first := same != x.flip.getLsbD 0
    let second := same != x.flip.getLsbD 1
    let m : BitVec 16 := if first then 0x3C96 else 0
    let mn : BitVec 16 := if second then 0xC369 else 0xFFFF
    let fault := first != second
    let s := s.setDigCtx c { x with state := 2, outLen := BitVec.ofNat 13 (digLen x n), result := 0, cmpMatch := m, cmpMatchN := mn }
    let s := { s with dig := { s.dig with
      cntMismatch := if ¬ first ∧ ¬ second then s.dig.cntMismatch + 1 else s.dig.cntMismatch
      cntFault := if fault then s.dig.cntFault + 1 else s.dig.cntFault } }
    let s := s.sawBytes f.tag n
    let s := if fault then s.report 4 (unitOf 8 core) 0x0309 x.owner else s
    s.digDone f (if fault then 0x0309 else 0) (pack [(0, m.toNat), (16, mn.toNat)])

/-- Zero a context (R306). -/
def State.digClear (s : State) (c : Nat) : State := (s.setDigCtx c {}).digRelease c

/-- DIG_CLOSE: a Keeper queue may name any context (R304, R306). -/
def digClose (f : Flight) (s : State) : State :=
  if ¬ digTurn s f then s else
  let c := Desc.digCtx f.desc
  if qClass f.queue ≠ .keeper ∧ (digNamed s f).isSome then s.digDone f 0x0302
  else
    let later := (s.cmd.flights.dropWhile fun g => g.tag ≠ f.tag).filter fun g => g.tag ≠ f.tag
    ((s.digClear c).digDone f 0).digRefuse c later

/-- The function in progress on context `c` goes on after a block or an answer. -/
def State.digGo (s : State) (c core : Nat) : State :=
  let x := s.digCtx c
  match x.func with
  | none => s
  | some t =>
    match s.cmd.flight t with
    | none => s
    | some f =>
      if Desc.opcode f.desc = 0x21 then s.digUpdateEnd c f
      else if Desc.opcode f.desc = 0x22 then (if x.left = 0 then s.digDeliver c f else s)
      else s.digJudge c f core

/-- DIG_BLOCK_ABSORBED: a core ends a block (R307, R308). -/
def digBlockAbsorbed (s : State) (i : Nat) (flip : BitVec 2) : State :=
  let k := s.digCore i
  match k.ctx with
  | none => s
  | some c =>
    let x := s.digCtx c
    if x.pend = 0 ∨ (16 ≤ k.run ∧ (s.digNext c).isSome) then s
    else
      let s := (({ s with dig := { s.dig with cntBlocks := s.dig.cntBlocks + 1 } }).pcount x.owner.toNat 9).worked (· = unitOf 8 i)
      let s := match x.func with | some t => s.engineWork t | none => s
      let s := (s.setDigCtx c { x with pend := x.pend - 1 }).setDigCore i { k with run := k.run + 1 }
      if x.pend = 1 then ((((s.setDigCtx c { x with pend := 0, last := i, flip := flip }).digRelease c).digGo c i)).digFeed else s

/-- DIGEST_CORE_SWITCH (R308). -/
def digCoreSwitch (s : State) (i : Nat) : State :=
  let k := s.digCore i
  match k.ctx with
  | none => s
  | some c =>
    if k.run < 16 then s
    else match s.digNext c with
      | some n => s.setDigCore i { ctx := some n, run := 0, last := c }
      | none => s

/-- An access of a digest function has been answered (R328). -/
def digAnswer (s : State) (f : Flight) (r : OwnReq) (resp : Resp) (data : Line) : State :=
  match resp with
  | .ok =>
    if Desc.opcode f.desc = 0x20 then (if s.ownDone (.cmd f.tag) then digOpen f s else s)
    else
      let c := Desc.digCtx f.desc
      let x := s.digCtx c
      if x.func ≠ some f.tag then s
      else if Desc.opcode f.desc = 0x21 then { s with own := s.own.erase r }.digData c f data
      else if ¬ s.ownDone (.cmd f.tag) then s
      else if Desc.opcode f.desc = 0x22 then
        s.digFinished c f (ofLeBytes 64 ((x.output f).take 8))
      else
        let n := (Desc.length f.desc).toNat
        (s.setDigCtx c { x with inbox := spanBytes (s.ownOf (.cmd f.tag)) (field (Desc.src1 f.desc) 0 52).toNat n, left := 0 }).digJudge c f x.last
  | _ =>
    let c := Desc.digCtx f.desc
    let s := if Desc.opcode f.desc = 0x20 then s else s.digRelease c
    (s.digDone f (respCode resp r.code)).digFeed

/-- Release the contexts that `p` chooses; functions in progress on the others lose what they had received (R312, R329, R330). -/
def State.digReset (s : State) (p : DigCtx → Bool) (all : Bool) : State :=
  (List.range 32).foldl (fun s c =>
    let x := s.digCtx c
    if x.state = 0 then s
    else if p x then s.digClear c
    else if all then (s.setDigCtx c { x with func := none, inbox := [], left := 0, pend := 0, flip := 0 }).digRelease c else s) s |>.digFeed

def execDigOpen (tag : Tag) (s : State) : Host.Outcome State Fault Refusal := .next (s.withFlight tag 0x20 digOpen)
def execDigOpenGrant (s : State) : Host.Outcome State Fault Refusal := .next (digOpenGrant s)
def execDigUpdate (tag : Tag) (s : State) : Host.Outcome State Fault Refusal := .next (s.withFlight tag 0x21 digUpdate)
def execDigFinish (tag : Tag) (s : State) : Host.Outcome State Fault Refusal := .next (s.withFlight tag 0x22 digFinish)
def execDigCompare (tag : Tag) (s : State) : Host.Outcome State Fault Refusal := .next (s.withFlight tag 0x23 digCompare)
def execDigClose (tag : Tag) (s : State) : Host.Outcome State Fault Refusal := .next (s.withFlight tag 0x24 digClose)
def execDigestCoreSwitch (core : BitVec 3) (s : State) : Host.Outcome State Fault Refusal := .next (digCoreSwitch s core.toNat)
def execDigBlockAbsorbed (core : BitVec 3) (flip : BitVec 2) (s : State) : Host.Outcome State Fault Refusal := .next (digBlockAbsorbed s core.toNat flip)

/-! ### Registers -/

/-- R332: Keeper, or the opener class in the owner domain. -/
def digSees (x : DigCtx) : Cls → Bool
  | .K => true
  | .S => x.qclass = 1
  | .H => x.qclass = 2
  | .P d => x.qclass = 3 && x.owner.toNat = d.toNat
  | _ => false

/-- The register words of a context page. -/
def DigCtx.word (x : DigCtx) : Nat → W64
  | 0 => pack [(0, x.state.toNat), (2, b2n x.func.isSome), (3, x.alg.toNat), (7, x.owner.toNat), (14, x.qclass.toNat), (16, b2n x.keyed), (17, x.usage.toNat), (19, x.outLen.toNat)]
  | 1 => field x.count 0 64
  | 2 => field x.count 64 64
  | 3 => pack [(0, x.cmpMatch.toNat), (16, x.cmpMatchN.toNat)]
  | i => if 8 ≤ i ∧ i < 16 then field x.result (64 * (i - 8)) 64 else 0

def digRegs : List Reg :=
  [ { base := 0x0580000, allow := capKSHO                                                          -- DIG_CFG
      get := fun _ _ s =>
        pack [(0, s.vent.count 8 4), (3, b2n (s.digCoreUp 4)), (4, 32)] },
    { base := 0x0580008, allow := capKSHO                                                          -- DIG_STAT
      get := fun _ _ s =>
        let free := ((List.range 32).filter fun c => (s.digCtx c).state = 0).length
        let wait := (s.cmd.flights.filter fun f => Desc.opcode f.desc = 0x20 ∧ f.started).length
        pack [(0, free), (6, wait), (15, ((List.range 5).filter fun i => (s.digCore i).ctx.isSome).length)] },
    { base := 0x0580010, allow := capKSO, get := fun _ _ s => s.dig.cntBlocks.setWidth 64 },
    { base := 0x0580018, allow := capKSO, get := fun _ _ s => s.dig.cntMismatch.setWidth 64 },
    { base := 0x0580020, allow := capKSO, get := fun _ _ s => s.dig.cntFault.setWidth 64 } ]

def digWindows : List Window :=
  [ { base := 0x0581000, span := 0x80, count := 32, allow := fun c k s => digSees (s.digCtx c) k
      get := fun c o n _ s => (List.range n).map fun i => field ((s.digCtx c).word ((o + i) / 8)) (8 * ((o + i) % 8)) 8 } ]

end Sys2Proof.Machine
end

