-- ==== Sys2Proof/Machine/Functions.lean ====
section
/-! DEFINITION. The functions of the command families: opcode, the ARG bits that the function's table names, and the queue classes
that may use it besides Keeper's (R88, R90). -/
namespace Sys2Proof.Machine

/-- A row of a family's function table. -/
structure Fn where
  opcode : BitVec 8
  arg : W128                  -- ARG bits named by the table
  steward : Bool := false
  host : Bool := false
  part : Bool := false

/-- ARG bits `lo` to `hi`. -/
def argBits (hi lo : Nat) : W128 := BitVec.ofNat 128 (2 ^ (hi + 1) - 2 ^ lo)

def functions : List Fn :=
  [ { opcode := 0x60, arg := argBits 47 0, steward := true, host := true, part := true },
    { opcode := 0x61, arg := argBits 59 0, steward := true, host := true, part := true },
    { opcode := 0x62, arg := argBits 56 0, steward := true, host := true, part := true },
    { opcode := 0x63, arg := 0, steward := true, host := true, part := true },
    -- KEY (R275)
    { opcode := 0x10, arg := argBits 7 0 ||| argBits 63 32 }, { opcode := 0x11, arg := argBits 7 0 ||| argBits 63 32 },
    { opcode := 0x12, arg := argBits 63 0 }, { opcode := 0x13, arg := argBits 15 0 ||| argBits 73 32 },
    { opcode := 0x14, arg := argBits 15 0 ||| argBits 73 64 }, { opcode := 0x15, arg := argBits 7 0 },
    { opcode := 0x16, arg := argBits 15 0 }, { opcode := 0x17, arg := 0, host := true },
    -- DIGEST (R301)
    { opcode := 0x20, arg := argBits 3 0 ||| argBits 16 8, steward := true, host := true, part := true },
    { opcode := 0x21, arg := argBits 4 0, steward := true, host := true, part := true },
    { opcode := 0x22, arg := argBits 4 0 ||| argBits 17 8 ||| argBits 63 32 ||| argBits 76 64, steward := true, host := true, part := true },
    { opcode := 0x23, arg := argBits 4 0, steward := true, host := true, part := true },
    { opcode := 0x24, arg := argBits 4 0, steward := true, host := true, part := true },
    -- WGATE (R195)
    { opcode := 0x40, arg := argBits 3 0, host := true }, { opcode := 0x41, arg := argBits 15 0, host := true }
    ,
    -- PKE (R342, R343)
    { opcode := 0x30, arg := argBits 3 0 ||| argBits 15 8 }, { opcode := 0x31, arg := argBits 3 0 ||| argBits 20 19 ||| argBits 127 64, steward := true, host := true },
    { opcode := 0x32, arg := argBits 3 0 ||| argBits 15 8 }, { opcode := 0x33, arg := argBits 3 0 ||| argBits 18 16 },
    { opcode := 0x34, arg := argBits 3 0 ||| argBits 15 8 ||| argBits 63 32 },
    { opcode := 0x35, arg := argBits 3 0 ||| argBits 18 8 ||| argBits 63 32 }, { opcode := 0x36, arg := argBits 3 0 ||| argBits 18 8 ||| argBits 63 32 },
    { opcode := 0x37, arg := argBits 18 16 }, { opcode := 0x38, arg := argBits 8 0 }
    ,
    -- PART (R219)
    { opcode := 0x50, arg := 0, steward := true }, { opcode := 0x51, arg := argBits 31 0 }, { opcode := 0x52, arg := 0, steward := true, host := true },
    { opcode := 0x53, arg := 0, steward := true, host := true }, { opcode := 0x54, arg := 0 }, { opcode := 0x55, arg := 0 },
    { opcode := 0x56, arg := 0, steward := true, host := true }, { opcode := 0x57, arg := argBits 0 0, steward := true, host := true }, { opcode := 0x58, arg := 0 },
    -- LINK (R254)
    { opcode := 0x90, arg := argBits 47 0 }, { opcode := 0x91, arg := argBits 23 0 ||| argBits 47 40 }, { opcode := 0x92, arg := argBits 23 0 },
    { opcode := 0x93, arg := argBits 23 0, steward := true },
    -- TEST (R646)
    { opcode := 0xA0, arg := argBits 15 0, steward := true }, { opcode := 0xA1, arg := argBits 15 0, steward := true }, { opcode := 0xA2, arg := argBits 15 0 }
    ,
    -- DUMP (R618) and TELEM (R615)
    { opcode := 0x70, arg := argBits 4 0 ||| argBits 95 32, steward := true, host := true }, { opcode := 0x71, arg := argBits 95 32, part := true },
    { opcode := 0x72, arg := argBits 3 0, steward := true, host := true },
    { opcode := 0x80, arg := 0, steward := true, host := true, part := true }, { opcode := 0x81, arg := argBits 1 0, steward := true, host := true, part := true },
    { opcode := 0x82, arg := argBits 0 0, steward := true }
  ]

/-- The row of an opcode, if family and function are defined. -/
def fnOf (op : BitVec 8) : Option Fn := functions.find? fun f => f.opcode = op

/-- May the queue class use the function (R90)? -/
def Fn.permits (f : Fn) : QClass → Bool
  | .keeper => true | .steward => f.steward | .host => f.host | .part => f.part

end Sys2Proof.Machine
end

