-- ==== Sys2Proof/Machine/Links.lean ====
section
/-! DEFINITION. The link guard: frame protection, receive checks, replay windows, jobs, fault injection (R244 to R263). -/
namespace Sys2Proof.Machine

def State.lane (s : State) (l : Nat) : Lane := SMap.get {} s.lnk.lanes l
def State.setLane (s : State) (l : Nat) (x : Lane) : State := { s with lnk := { s.lnk with lanes := SMap.set {} s.lnk.lanes l x } }
def State.updLane (s : State) (l : Nat) (f : Lane → Lane) : State := s.setLane l (f (s.lane l))

/-- The entry of an active job. -/
def State.jobEntry (s : State) (j : BitVec 24) : Option (Nat × Job) :=
  s.lnk.jobs.findSome? fun e => match e.2 with | some x => if x.job = j then some (e.1, x) else none | none => none
def State.setJob (s : State) (i : Nat) (x : Option Job) : State := { s with lnk := { s.lnk with jobs := SMap.set none s.lnk.jobs i x } }

/-- The lane passes frames: enabled and not fenced (LNK_CTL.EN, R634). -/
def State.laneUp (s : State) (l : Nat) : Bool :=
  l < Config.lanes && (s.lane l).en && (s.vent.unitRec (unitOf 7 l)).state = 0

/-- The job may pass frames on the lane (R247, R250 check 2). -/
def State.jobPasses (s : State) (l : Nat) (x : Job) : Bool :=
  (s.lane l).owner.toNat = x.dom.toNat && (s.part x.dom.toNat).state = .running

/-! ### Frame protection (R244, R245) -/

/-- The IV: header bytes 4 to 11, then 0 to 3. -/
def linkIv (header : List Byte) : List Byte := (header.drop 4).take 8 ++ header.take 4

/-- The job security header. -/
def linkHeader (x : Job) : List Byte :=
  leBytes 3 x.job ++ [x.kgen] ++ leBytes 6 (BitVec.ofNat 48 x.pn) ++ leBytes 2 x.rank ++ [1, 0] ++ List.replicate 10 0

/-- The protected form of a frame whose first `n` bytes stay clear. -/
def protect (x : Job) (n : Nat) (frame : List Byte) : List Byte :=
  let clear := frame.take n
  let hd := linkHeader x
  let e := gcmSeal x.key (linkIv hd) (clear ++ hd) (frame.drop n)
  clear ++ hd ++ e.1 ++ leBytes 16 e.2

/-! ### Fault injection (R259, R260) -/

/-- One step of the Galois LFSR. -/
def lfsrStep (v : BitVec 32) : BitVec 32 := if bit v 0 then (v >>> 1) ^^^ 0x80200003 else v >>> 1
/-- A draw: 32 steps. -/
def lfsrDraw (v : BitVec 32) : BitVec 32 := (List.range 32).foldl (fun v _ => lfsrStep v) v
/-- What a generator is loaded with. -/
def lfsrSeed (seed : BitVec 32) (l : Nat) : BitVec 32 :=
  let v := (if seed = 0 then 1 else seed) ^^^ BitVec.ofNat 32 l
  if v = 0 then 1 else v

/-- Five draws and the state after them. -/
def lfsrFive (v : BitVec 32) : List (BitVec 32) :=
  let d0 := lfsrDraw v; let d1 := lfsrDraw d0; let d2 := lfsrDraw d1; let d3 := lfsrDraw d2
  [d0, d1, d2, d3, lfsrDraw d3]

def Lane.injects (x : Lane) : Bool := x.drop ≠ 0 || x.corrupt ≠ 0 || x.rate ≠ 0 || x.depth ≠ 0

/-- Flip bit `p` of the bytes after the clear prefix. -/
def flipBit (n p : Nat) (f : List Byte) : List Byte := f.modify (n + p / 8) fun b => b ^^^ (1 <<< (p % 8))

/-- Count a protected frame of the job that the security header names, and record it when LINK_EN is 1 and the low LINK_SHIFT bits of its
counter are zero (R592, R611). -/
def State.linkSeen (s : State) (l : Nat) (rx : Bool) (sec : List Byte) (bytes : Nat) : State :=
  let s := match s.jobEntry (ofLeBytes 24 (sec.take 3)) with
    | some (_, j) => s.pcount j.dom.toNat (if rx then 7 else 6)
    | none => s
  let shift := min s.fum.linkShift.toNat 20
  if s.fum.linkEn ∧ s.fum.ringEn ∧ number48 sec % 2 ^ shift = 0 then
    (s.drawn 1).sample (ringRecord (ringHeader s.bnd.timebase 3 0xFF 0 (s.draw 16) 0xFF 0 ++ sec.take 12 ++
      [BitVec.ofNat 8 l, BitVec.ofNat 8 (b2n rx)] ++ leBytes 2 (BitVec.ofNat 16 bytes)))
  else s
where
  /-- PN[47:0]. -/
  number48 (sec : List Byte) : Nat := (ofLeBytes 48 ((sec.drop 4).take 6)).toNat

/-- Pass a frame to the MAC and count it; `sec` is the security header of a protected one. -/
def State.laneSend (s : State) (l : Nat) (sec : Option (List Byte)) (f : List Byte) : State :=
  let s := s.updLane l fun x => if sec.isSome then { x with txProt := x.txProt + 1 } else { x with txPlain := x.txPlain + 1 }
  (match sec with | some h => s.linkSeen l false h f.length | none => s).emit (.frameTx l f)

/-- Held frames come one later frame nearer to their turn. -/
def HeldFrame.nearer (q : HeldFrame) : HeldFrame := { q with later := q.later - 1 }

/-- Send the held frames whose turn has come, the one held first before the others, at most `n` of them. Each was sent later than those held
before it, and so counts for them in its turn (R259). -/
def State.laneRelease (l : Nat) : Nat → State → State
  | 0, s => s
  | n + 1, s =>
    let x := s.lane l
    match x.held.findIdx? fun q => q.later = 0 with
    | none => s
    | some i =>
      let s := s.setLane l { x with held := (x.held.take i).map HeldFrame.nearer ++ x.held.drop (i + 1) }
      State.laneRelease l n (match x.held[i]? with | some q => s.laneSend l (some q.sec) q.bytes | none => s)

/-- Send a frame, which counts for every held one, then the held frames whose turn has come. -/
def State.laneOut (s : State) (l : Nat) (sec : Option (List Byte)) (f : List Byte) : State :=
  State.laneRelease l 64 ((s.laneSend l sec f).updLane l fun x => { x with held := x.held.map HeldFrame.nearer })

/-- A protected frame of a lane with injection (R259). A lane that holds 64 frames sends the frame instead of holding it. -/
def State.inject (s : State) (l : Nat) (sec : List Byte) (f : List Byte) : State :=
  let x := s.lane l
  let d := lfsrFive x.lfsr
  let lo (i : Nat) : Nat := (d.getD i 0).toNat % 65536
  let n := x.clearLen.toNat
  let s := s.setLane l { x with lfsr := d.getD 4 0 }
  if lo 0 < x.drop.toNat then s.updLane l fun x => { x with fiDrop := x.fiDrop + 1 }
  else if lo 1 < x.corrupt.toNat then
    (s.updLane l fun x => { x with fiCorrupt := x.fiCorrupt + 1 }).laneOut l (some sec) (flipBit n ((d.getD 2 0).toNat * (8 * (f.length - n)) / 2 ^ 32) f)
  else if x.depth ≠ 0 ∧ lo 3 < x.rate.toNat ∧ x.held.length < 64 then
    s.updLane l fun x => { x with fiReorder := x.fiReorder + 1,
                                  held := x.held ++ [{ later := 1 + lo 4 * x.depth.toNat / 65536, sec := sec, bytes := f }] }
  else s.laneOut l (some sec) f

/-! ### Transmit and receive -/

/-- LINK_TX_FRAME (R247, R248, R259). -/
def linkTx (s : State) (l : Nat) (prot : Bool) (job : BitVec 24) (frame : List Byte) : State :=
  if ¬ s.laneUp l then s
  else
  let s := s.worked (· = unitOf 7 l)
  if ¬ prot then s.laneOut l none frame
  else
    let drop := s.updLane l fun x => { x with txDrop := x.txDrop + 1 }
    match s.jobEntry job with
    | none => drop
    | some (i, x) =>
      if ¬ s.jobPasses l x ∨ 2 ^ 48 ≤ x.pn then drop
      else
        let f := protect x (s.lane l).clearLen.toNat frame
        let warn := x.pn + 1 = 2 ^ 47 ∧ ¬ x.warned
        let s := s.setJob i (some { x with pn := x.pn + 1, warned := x.warned || decide warn })
        let s := if warn then s.log 0x07000080 (unitOf 7 l) (x.dom.setWidth 8) else s
        if (s.lane l).injects then s.inject l (linkHeader x) f else s.laneOut l (some (linkHeader x)) f

/-- The replay rule of R252: the entry after the frame, or none when it is refused. -/
def StreamEnt.accept (e : StreamEnt) (kgen : BitVec 8) (c : BitVec 48) : Option StreamEnt :=
  if kgen.toNat < e.gen.toNat then none
  else if e.gen.toNat < kgen.toNat then some { e with gen := kgen, top := c, window := 1 }
  else if e.top.toNat < c.toNat then some { e with top := c, window := (e.window <<< min 1024 (c.toNat - e.top.toNat)) ||| 1 }
  else if c.toNat + 1024 ≤ e.top.toNat ∨ bit e.window (e.top.toNat - c.toNat) then none
  else some { e with window := putBit e.window (e.top.toNat - c.toNat) true }

/-- Streams that a partition's jobs hold. -/
def State.streamsOf (s : State) (d : BitVec 6) : Nat :=
  (s.lnk.streams.filter fun e => match s.jobEntry e.job with | some (_, x) => x.dom = d | none => false).length

/-- LINK_RX_FRAME (R250 to R252). A frame too short for header and tag fails check 1. -/
def linkRx (s : State) (l : Nat) (f : List Byte) : State :=
  if ¬ s.laneUp l then s
  else
    let s := s.worked (· = unitOf 7 l)
    let x := s.lane l
    let n := x.clearLen.toNat
    if (f.drop (n - 2)).take 2 ≠ beBytes 2 x.etype then (s.setLane l { x with rxPlain := x.rxPlain + 1 }).emit (.frameRx l none f)
    else
      let auth := s.setLane l { x with rxAuth := x.rxAuth + 1 }
      let hd := (f.drop n).take 24
      let body := f.drop (n + 24)
      if f.length < n + 40 ∨ (hd.drop 12) ≠ [1, 0] ++ List.replicate 10 0 then auth
      else
        let job : BitVec 24 := ofLeBytes 24 (hd.take 3)
        match s.jobEntry job with
        | none => s.setLane l { x with rxNojob := x.rxNojob + 1 }
        | some (_, j) =>
          if ¬ s.jobPasses l j then s.setLane l { x with rxNojob := x.rxNojob + 1 }
          else
            let kgen := hd.getD 3 0
            let key := if kgen = j.kgen then some j.key else if 0 < j.kgen.toNat ∧ kgen = j.kgen - 1 then j.prev else none
            match key with
            | none => auth
            | some k =>
              let ct := body.take (body.length - 16)
              match gcmOpen k (linkIv hd) (f.take n ++ hd) ct (ofLeBytes 128 (body.drop (body.length - 16))) with
              | none => auth
              | some pt =>
                let rank : BitVec 16 := ofLeBytes 16 ((hd.drop 10).take 2)
                let c : BitVec 48 := ofLeBytes 48 ((hd.drop 4).take 6)
                let ok (s : State) (streams : List StreamEnt) : State :=
                  (({ s with lnk := { s.lnk with streams := streams } }.updLane l fun x => { x with rxOk := x.rxOk + 1 }).linkSeen l true hd f.length).emit (.frameRx l (some job) (f.take n ++ pt))
                match s.lnk.streams.find? fun e => e.job = job ∧ e.rank = rank with
                | some e =>
                  match e.accept kgen c with
                  | none => s.setLane l { x with rxReplay := x.rxReplay + 1 }
                  | some e' => ok s (s.lnk.streams.map fun q => if q = e then e' else q)
                | none =>
                  if 16384 ≤ s.lnk.streams.length ∨ (s.part j.dom.toNat).streams.toNat ≤ s.streamsOf j.dom then
                    let s' := s.setLane l { x with rxStream := x.rxStream + 1 }
                    let s' := { s' with lnk := { s'.lnk with refusedRow := some s.row } }
                    if s.lnk.refusedRow = some s.row then s' else s'.log 0x07000083 (unitOf 7 l) (j.dom.setWidth 8)
                  else ok s (s.lnk.streams ++ [{ job := job, rank := rank, gen := kgen, top := c, window := 1 }])

/-- REORDER_FLUSH: a lane idle for 1 us sends every frame it holds (R259). -/
def reorderFlush (s : State) (l : Nat) : State :=
  let x := s.lane l
  x.held.foldl (fun s q => s.laneSend l (some q.sec) q.bytes) (s.setLane l { x with held := [] })

def execLinkTxFrame (lane : BitVec 6) (prot : Bool) (job : BitVec 24) (frame : List Byte) (s : State) : Host.Outcome State Fault Refusal :=
  .next (linkTx s lane.toNat prot job frame)
def execLinkRxFrame (lane : BitVec 6) (frame : List Byte) (s : State) : Host.Outcome State Fault Refusal := .next (linkRx s lane.toNat frame)
def execReorderFlush (lane : BitVec 6) (s : State) : Host.Outcome State Fault Refusal := .next (reorderFlush s lane.toNat)

/-! ### Jobs (R254 to R256) -/

def Desc.job (d : Desc) : BitVec 24 := Desc.argField d 0 24
def Desc.jobSlot (d : Desc) : Nat := (Desc.argField d 40 8).toNat

/-- Job entries that no job uses. -/
def State.jobFree (s : State) : List Nat := (List.range 4096).filter fun i => SMap.get none s.lnk.jobs i = none

/-- The partition is in KEYED or RUNNING. -/
def State.linkState (s : State) (d : Dom) : Bool :=
  match s.domState d with | some .keyed | some .running => true | _ => false

/-- The job of the descriptor, when it is active and belongs to DOM. -/
def State.jobOf (s : State) (d : Desc) : Option (Nat × Job) :=
  match s.jobEntry (Desc.job d) with
  | some (i, x) => if x.dom.toNat = (Desc.dom d).toNat then some (i, x) else none
  | none => none

/-- The lane key of a generation (R284 "lnk"). -/
def jobKey (k : Skein) (slot : Nat) (job : BitVec 24) (kgen : BitVec 8) : Key256 := deriveKey (k.slot slot).bytes "lnk" (leBytes 3 job ++ [kgen])

/-- The checks of LINK_JOB (R254, R255, R274). -/
def linkJobCheck (s : State) (d : Desc) : Option Status :=
  if ¬ s.linkState (Desc.dom d) then some 0x0701
  else if (s.jobEntry (Desc.job d)).isSome then some 0x0721
  else if s.jobFree.isEmpty then some 0x0723
  else s.skn.usable (Desc.jobSlot d) (Desc.dom d) 3 engLink

/-- The rekeys of a job whose shadow entries wait for the seam: each will take the generation after the one before it (R256). -/
def State.rekeys (s : State) (job : BitVec 24) : Nat :=
  (s.cmd.flights.filter fun g => Desc.opcode g.desc = 0x91 && Desc.job g.desc = job && s.skn.shadows.any fun x => x.tag = g.tag).length

/-- The checks of LINK_REKEY. -/
def linkRekeyCheck (s : State) (d : Desc) : Option Status :=
  if ¬ s.linkState (Desc.dom d) then some 0x0701
  else match s.jobOf d with
    | none => some 0x0722
    | some (_, x) => if 255 ≤ x.kgen.toNat + s.rekeys (Desc.job d) then some 0x0724 else s.skn.usable (Desc.jobSlot d) (Desc.dom d) 3 engLink

/-- Derive into a shadow entry and wait for the seam (R289, R290). -/
def State.shadowJob (s : State) (f : Flight) (kgen : BitVec 8) : State :=
  { s.worked (· = unitOf 10 0) with
    skn := { s.skn with shadows := s.skn.shadows ++ [{ tag := f.tag, jobKey := jobKey s.skn (Desc.jobSlot f.desc) (Desc.job f.desc) kgen }] }
    cmd := s.cmd.setFlight { f with started := true } }

def linkJob (f : Flight) (s : State) : State :=
  if f.started then s
  else match linkJobCheck s f.desc with
    | some st => s.complete f st
    | none => s.shadowJob f 0

def linkRekey (f : Flight) (s : State) : State :=
  if f.started then s
  else match linkRekeyCheck s f.desc, s.jobOf f.desc with
    | some st, _ => s.complete f st
    | none, some (_, x) => s.shadowJob f (x.kgen + 1 + BitVec.ofNat 8 (s.rekeys (Desc.job f.desc)))
    | none, none => s

/-- End the jobs that `p` chooses and free their streams. -/
def State.endJobs (s : State) (p : Job → Bool) : State :=
  let gone := s.lnk.jobs.filterMap fun e => match e.2 with | some x => if p x then some x.job else none | none => none
  { s with lnk := { s.lnk with
      jobs := s.lnk.jobs.filter fun e => match e.2 with | some x => ¬ p x | none => true
      streams := s.lnk.streams.filter fun e => ¬ gone.contains e.job } }

def linkEnd (f : Flight) (s : State) : State :=
  match s.jobOf f.desc with
  | none => s.complete f 0x0722
  | some (_, x) =>
    let n := (s.lnk.streams.filter fun e => e.job = x.job).length
    (s.endJobs fun y => y.job = x.job).complete f 0 (BitVec.ofNat 64 n)

def linkProbe (f : Flight) (s : State) : State :=
  match s.jobOf f.desc with
  | none => s.complete f 0x0722
  | some (_, x) => s.complete f 0 (pack [(0, x.kgen.toNat), (8, b2n x.prev.isSome), (16, x.pn % 2 ^ 48)])

/-- The seam of a LINK_JOB or LINK_REKEY: its shadow entry becomes live in every lane (R13, R256, R289). -/
def State.linkSeam (s : State) (f : Flight) : State :=
  match s.skn.shadows.find? fun x => x.tag = f.tag with
  | none => s
  | some sh =>
    let s := { s with skn := { s.skn with shadows := s.skn.shadows.filter fun x => x.tag ≠ f.tag } }
    let d := f.desc
    if Desc.opcode d = 0x90 then
      if (s.jobEntry (Desc.job d)).isSome then s.complete f 0x0721
      else match s.jobFree with
        | [] => s.complete f 0x0723
        | l =>
          let i := l.getD ((s.draw 16).toNat % l.length) 0
          ((s.drawn 1).setJob i (some { job := Desc.job d, dom := field (Desc.dom d) 0 6, rank := Desc.argField d 24 16, key := sh.jobKey })).complete f 0 (BitVec.ofNat 64 i)
    else match s.jobOf d with
      | none => s.complete f 0x0722
      | some (i, x) =>
        if x.kgen = 255 then s.complete f 0x0724
        else (s.setJob i (some { x with kgen := x.kgen + 1, prev := some x.key, key := sh.jobKey, pn := 0, warned := false })).complete f 0 ((x.kgen + 1).setWidth 64)

def execLinkJob (tag : Tag) (s : State) : Host.Outcome State Fault Refusal := .next (s.withFlight tag 0x90 linkJob)
def execLinkRekey (tag : Tag) (s : State) : Host.Outcome State Fault Refusal := .next (s.withFlight tag 0x91 linkRekey)
def execLinkEnd (tag : Tag) (s : State) : Host.Outcome State Fault Refusal := .next (s.withFlight tag 0x92 linkEnd)
def execLinkProbe (tag : Tag) (s : State) : Host.Outcome State Fault Refusal := .next (s.withFlight tag 0x93 linkProbe)

/-! ### Fault mode and registers -/

/-- Load the generator of a lane. -/
def State.loadLfsr (s : State) (l : Nat) : State := s.updLane l fun x => { x with lfsr := lfsrSeed s.lnk.fiSeed l }

/-- FI_MODE written by class `c` (R257, R260). -/
def fiMode (s : State) (c : Cls) (on : Bool) : State :=
  if c ≠ .K ∨ s.lnk.fiMode = on then s
  else
    let s := { s with lnk := { s.lnk with fiMode := on, fiEpoch := s.lnk.fiEpoch + 1 } }
    let s := (List.range Config.lanes).foldl (fun s l =>
      if on then s.loadLfsr l else s.updLane l fun x => { x with drop := 0, corrupt := 0, rate := 0, depth := 0 }) s
    s.log 0x07000082

/-- LNK_GCTL. -/
def State.lnkGctl (s : State) : W64 := pack [(0, b2n s.lnk.fiMode), (16, s.lnk.fiEpoch.toNat), (32, s.lnk.fiSeed.toNat)]

/-- LNK_FI of a lane written by class `c` (R258, R260). -/
def lnkFi (s : State) (c : Cls) (l : Nat) (v m : W64) : State :=
  if (c = .K ∨ c = .S) ∧ s.lnk.fiMode ∧ l < Config.lanes then
    (s.updLane l fun x => { x with drop := mrg x.drop 0 v m, corrupt := mrg x.corrupt 16 v m, rate := mrg x.rate 32 v m, depth := mrg x.depth 48 v m }).loadLfsr l
  else s

def execFiModeWrite (cls : Cls) (mode : Bool) (s : State) : Host.Outcome State Fault Refusal := .next (fiMode s cls mode)
def execLnkFiWrite (cls : Cls) (lane : BitVec 6) (data : W64) (s : State) : Host.Outcome State Fault Refusal :=
  .next (lnkFi s cls lane.toNat data (BitVec.allOnes 64))

/-- The lane counters at 0x040 to 0x098 in order. -/
def Lane.counters (x : Lane) : List (BitVec 48) :=
  [x.txProt, x.txPlain, x.txDrop, x.rxOk, x.rxPlain, x.rxAuth, x.rxNojob, x.rxStream, x.rxReplay, x.fiDrop, x.fiCorrupt, x.fiReorder]

/-- CLEAR_LEN takes even values 14 to 62; a write of another value leaves the field (log entry 23). -/
def clearLenPut (old new : BitVec 6) : BitVec 6 := if 14 ≤ new.toNat ∧ new.toNat % 2 = 0 then new else old

def linkRegs : List Reg :=
  [ { base := 0x0BFF000, allow := capKSHO                                                                               -- LNK_GCFG
      get := fun _ _ s => pack [(0, Config.lanes), (7, (s.lnk.jobs.filter fun e => e.2.isSome).length), (20, 16384 - s.lnk.streams.length)] },
    { base := 0x0BFF008, allow := capKSHO                                                                               -- LNK_GCTL
      get := fun _ _ s => s.lnkGctl
      put := fun _ c v m s =>
        if c ≠ .K then s
        else fiMode { s with lnk := { s.lnk with fiSeed := mrg s.lnk.fiSeed 32 v m } } c (mrgB s.lnk.fiMode 0 v m) },
    { base := 0x0B00000, count := Config.lanes, allow := capKSHO                                                        -- LNK_CTL
      get := fun l _ s => let x := s.lane l; pack [(0, b2n x.en), (1, x.owner.toNat), (8, x.clearLen.toNat), (14, x.etype.toNat)]
      put := fun l c v m s =>
        if c ≠ .K then s
        else s.updLane l fun x => { x with en := mrgB x.en 0 v m && (x.en || (s.laneEnabled l && !s.planeClosed)), clearLen := clearLenPut x.clearLen (mrg x.clearLen 8 v m), etype := mrg x.etype 14 v m } },
    { base := 0x0B00008, count := Config.lanes, allow := capKSHO                                                        -- LNK_FI
      get := fun l _ s => let x := s.lane l; pack [(0, x.drop.toNat), (16, x.corrupt.toNat), (32, x.rate.toNat), (48, x.depth.toNat)]
      put := fun l c v m s => lnkFi s c l v m } ]
  ++ (List.range 12).map fun i =>
    { base := 0x0B00040 + 8 * i, count := Config.lanes, allow := capKSO, get := fun l _ s => ((s.lane l).counters.getD i 0).setWidth 64 }

end Sys2Proof.Machine
end

