-- ==== Sys2Proof/Machine/Mailboxes.lean ====
section
/-! DEFINITION. Mailboxes (R107 to R113, R717). -/
namespace Sys2Proof.Machine

/-- `c` is the client of mailbox `m` (R107). -/
def mbClient (x : Mailbox) (m : Nat) : Cls → Bool
  | .P d => m < 64 && d.toNat = m
  | .H => 64 ≤ m && m < 72
  | .C n _ => 72 ≤ m && m < 76 && bit x.siteMask n.toNat
  | .S => m = 76 || m = 77
  | _ => false

/-- `c` is the firmware side of mailbox `m` (R107). -/
def mbFirmware (m : Nat) : Cls → Bool
  | .K => m < 68 || m = 76 || m = 77 || m = 79
  | .S => (68 ≤ m && m < 76) || m = 78
  | _ => false

/-- The sender of a direction: the client sends up, the firmware side sends down. -/
def mbSender (x : Mailbox) (m : Nat) (down : Bool) (c : Cls) : Bool := if down then mbFirmware m c else mbClient x m c
/-- The receiver of a direction. -/
def mbReceiver (x : Mailbox) (m : Nat) (down : Bool) (c : Cls) : Bool := if down then mbClient x m c else mbFirmware m c

/-- Ring doorbells 0 to 30 (R109, R110). -/
def MbDir.ring (d : MbDir) (bits : BitVec 32) : MbDir := { d with db := d.db ||| (bits &&& 0x7FFFFFFF) }

/-- Close a message (R110 to R112). -/
def MbDir.send (d : MbDir) (len : BitVec 9) : MbDir :=
  if d.full then { d with overrun := true }
  else if len.toNat = 0 ∨ 256 < len.toNat ∨ len.toNat < d.highWater.toNat then { d with length := len, result := 3, buf := 0, highWater := 0 }
  else if d.highWater.toNat < len.toNat then { d with length := len, result := 2, buf := 0, highWater := 0 }
  else { d with length := len, full := true, result := 1, highWater := 0, db := d.db ||| 0x80000000 }

/-- The receiver releases a full buffer (R112). -/
def MbDir.done (d : MbDir) : MbDir := if d.full then { d with full := false, buf := 0, empty := true } else d

/-- The sender writes bytes at offset `o` (R112). -/
def MbDir.write (d : MbDir) (o : Nat) (bs : List Byte) : MbDir :=
  if d.full then { d with overrun := true }
  else { d with
    buf := bs.zipIdx.foldl (fun v b => putField v (8 * (o + b.2)) 8 b.1) d.buf
    highWater := if d.highWater.toNat < o + bs.length then BitVec.ofNat 9 (o + bs.length) else d.highWater }

/-- Apply `f` to one direction of a mailbox; a message that it completes arrives now. -/
def State.mbUpd (s : State) (m : Nat) (down : Bool) (f : MbDir → MbDir) : State :=
  let x := s.cmd.mailbox m
  let d := f (x.dir down)
  { s with cmd := s.cmd.setMailbox m (x.setDir down (if d.full ∧ ¬ (x.dir down).full then { d with sentAt := s.bnd.timebase } else d)) }

/-- A sender's operation on an enabled mailbox; any other requester, and a mailbox with EN 0, changes nothing (R107, R717). -/
def State.mbSend (s : State) (c : Cls) (m : Nat) (down : Bool) (f : MbDir → MbDir) : State :=
  let x := s.cmd.mailbox m
  if mbSender x m down c ∧ x.en ∧ m < 80 then s.mbUpd m down f else s

/-- The page of a mailbox. -/
def mbPage (mb : BitVec 7) : Nat := 0x0100000 + 4096 * mb.toNat

def execDbSet (cls : Cls) (mb : BitVec 7) (down : Bool) (bits : BitVec 32) (s : State) : Host.Outcome State Fault Refusal :=
  .next (s.gated cls (mbPage mb) fun s => s.mbSend cls mb.toNat down fun d => d.ring bits)

/-! ### BAR0 accesses (R652, R671) -/

/-- A mailbox buffer, a descriptor slot or a completion ring (R652). -/
def bulkArea (off : Nat) : Bool :=
  (0x0100000 ≤ off && off < 0x0150000 && off % 4096 < 0x200) || (0x0400000 ≤ off && off < 0x0448000 && 0x400 ≤ off % 4096 && off % 4096 < 0xC00)

/-- A BAR0 access has a size and an alignment that R652 allows. -/
def barOk (off n : Nat) : Bool :=
  ((n = 4 || n = 8) && off % n = 0) || (bulkArea off && 1 ≤ n && n ≤ 64 && n % 4 = 0 && off % 4 = 0 && off / 64 = (off + n - 1) / 64)

/-- The host path is frozen to this offset (R671). -/
def State.contained (s : State) (c : Cls) (off : Nat) : Bool := c = .H && s.host.frozen && !(off < 0x2000 || (0x0E00000 ≤ off && off < 0x0E00008))

/-- Count a BAR0 access that breaks R652. -/
def State.malformed (s : State) : State := { s with host := { s.host with malformed := satAdd s.host.malformed 1 } }

def execMbBufferWrite (cls : Cls) (mb : BitVec 7) (down : Bool) (off : BitVec 8) (size : BitVec 7) (data : Line) (s : State) :
    Host.Outcome State Fault Refusal :=
  let at_ := mbPage mb + 256 * b2n down + off.toNat
  .next (if cls = .H ∧ ¬ s.contained cls at_ ∧ ¬ barOk at_ size.toNat then s.malformed
    else s.gated cls (mbPage mb) fun s => s.mbSend cls mb.toNat down fun d => d.write off.toNat (leBytes (min (min size.toNat 64) (256 - off.toNat)) data))

def execSend (cls : Cls) (mb : BitVec 7) (down : Bool) (len : BitVec 9) (s : State) : Host.Outcome State Fault Refusal :=
  .next (s.gated cls (mbPage mb) fun s => s.mbSend cls mb.toNat down fun d => d.send len)

def execDone (cls : Cls) (mb : BitVec 7) (down : Bool) (s : State) : Host.Outcome State Fault Refusal :=
  let x := s.cmd.mailbox mb.toNat
  .next (s.gated cls (mbPage mb) fun s => if mbReceiver x mb.toNat down cls ∧ x.en ∧ mb.toNat < 80 then s.mbUpd mb.toNat down MbDir.done else s)

/-- Consecutive row ticks at which LIVE of a direction has been 0 (R113). -/
def mbDeadTicks (s : State) (d : MbDir) : Nat :=
  if d.live then 0 else s.row - max (d.deadFrom.toNat / 1000) (s.cmd.mbSince.toNat / 1000)

def execMbLiveTimeout (mb : BitVec 7) (down : Bool) (s : State) : Host.Outcome State Fault Refusal :=
  let d := (s.cmd.mailbox mb.toNat).dir down
  .next (if mb.toNat < 80 ∧ d.timeoutRows.toNat + 1 ≤ mbDeadTicks s d
         then s.mbUpd mb.toNat down fun d => { d with timeout := true } else s)

/-! ### Registers of the mailbox pages -/

/-- The page of mailbox `m` is reached only by its two sides (R107). -/
def mbAllows (s : State) (m : Nat) (c : Cls) : Bool := let x := s.cmd.mailbox m; mbClient x m c || mbFirmware m c

/-- The registers of one direction at `base` (0x210 up, 0x250 down). The sender's side clears OVERRUN, TIMEOUT and EMPTY and writes their
enables: the table names no side for them, and each is the sender's own (log entry 46). A write that clears OVERRUN and sends is applied in
that order. -/
def mbDirRegs (down : Bool) (base : Nat) : List Reg :=
  [ { base := 0x0100000 + base, count := 80, allow := fun m c s => mbAllows s m c                   -- DB
      get := fun m _ s => pack [(0, ((s.cmd.mailbox m).dir down).db.toNat)]
      put := fun m c v k s =>
        if mbReceiver (s.cmd.mailbox m) m down c then s.mbUpd m down fun d => { d with db := w1c d.db 0 v k } else s },
    { base := 0x0100000 + base + 8, count := 80, allow := fun m c s => mbAllows s m c               -- DB_SET
      get := fun _ _ _ => 0
      put := fun m c v k s => s.mbSend c m down fun d => d.ring (field (v &&& k) 0 32) },
    { base := 0x0100000 + base + 0x10, count := 80, allow := fun m c s => mbAllows s m c            -- DB_MASK
      get := fun m _ s => pack [(0, ((s.cmd.mailbox m).dir down).dbMask.toNat)]
      put := fun m c v k s =>
        if mbReceiver (s.cmd.mailbox m) m down c then s.mbUpd m down fun d => { d with dbMask := mrg d.dbMask 0 v k } else s },
    { base := 0x0100000 + base + 0x18, count := 80, allow := fun m c s => mbAllows s m c            -- LENGTH, SEND, DONE and flags
      get := fun m _ s =>
        let d := (s.cmd.mailbox m).dir down
        pack [(0, d.length.toNat), (10, b2n d.full), (12, d.result.toNat), (14, b2n d.overrun), (16, d.highWater.toNat)]
      put := fun m c v k s =>
        let x := s.cmd.mailbox m
        if mbSender x m down c then
          let s := s.mbUpd m down fun d => { d with overrun := w1cB d.overrun 14 v k }
          s.mbUpd m down fun d => if bit (v &&& k) 9 ∧ x.en then d.send (mrg d.length 0 v k) else { d with length := mrg d.length 0 v k }
        else if mbReceiver x m down c ∧ bit (v &&& k) 11 ∧ x.en then s.mbUpd m down MbDir.done
        else s },
    { base := 0x0100000 + base + 0x20, count := 80, allow := fun m c s => mbAllows s m c              -- TIMEOUT_ROWS, LIVE and flags
      get := fun m _ s =>
        let d := (s.cmd.mailbox m).dir down
        pack [(0, d.timeoutRows.toNat), (16, b2n d.live), (17, b2n d.timeout), (18, b2n d.empty), (19, b2n d.timeoutEn), (20, b2n d.emptyEn)]
      put := fun m c v k s =>
        let x := s.cmd.mailbox m
        let t := s.bnd.timebase
        let s := if c = .K then s.mbUpd m down fun d => { d with timeoutRows := mrg d.timeoutRows 0 v k } else s
        if mbReceiver x m down c then
          s.mbUpd m down fun d => { d with live := mrgB d.live 16 v k, deadFrom := if d.live ∧ ¬ mrgB d.live 16 v k then t else d.deadFrom }
        else if mbSender x m down c then
          s.mbUpd m down fun d => { d with timeout := w1cB d.timeout 17 v k, empty := w1cB d.empty 18 v k,
                                           timeoutEn := mrgB d.timeoutEn 19 v k, emptyEn := mrgB d.emptyEn 20 v k }
        else s } ]

def mbRegs : List Reg :=
  [ { base := 0x0100200, count := 80, allow := capKS                                                -- MB_CTL
      get := fun m _ s => let x := s.cmd.mailbox m; pack [(0, x.siteMask.toNat), (24, b2n x.en)]
      put := fun m c v k s =>
        let x := s.cmd.mailbox m
        if c = .K then { s with cmd := s.cmd.setMailbox m { x with siteMask := mrg x.siteMask 0 v k, en := mrgB x.en 24 v k } } else s } ]
  ++ mbDirRegs false 0x210 ++ mbDirRegs true 0x250

/-- The up buffer at 0x000 and the down buffer at 0x100 of each page (R108, R112). -/
def mbWindow (down : Bool) (base : Nat) : Window :=
  { base := 0x0100000 + base, span := 0x100, count := 80, allow := fun m c s => mbAllows s m c
    get := fun m o n c s =>
      let x := s.cmd.mailbox m
      let d := x.dir down
      if mbSender x m down c ∨ d.full then (List.range n).map fun i => field d.buf (8 * (o + i)) 8 else List.replicate n 0
    put := fun m o c bs s => s.mbSend c m down fun d => d.write o bs }

def mbWindows : List Window := [mbWindow false 0, mbWindow true 0x100]

end Sys2Proof.Machine
end

