-- ==== Sys2Proof/Machine/Otp.lean ====
section
/-! DEFINITION. The OTP array: words and codes, the sense, programs and re-burns, the OTP commands (R367 to R401). -/
namespace Sys2Proof.Machine

/-! ### Words and codes -/

/-- Columns of the data bits in the (40,32) Hsiao code (R368). -/
def eccColumns : List (BitVec 8) :=
  [0x07, 0x0B, 0x0D, 0x0E, 0x13, 0x15, 0x16, 0x19] ++ [0x1A, 0x1C, 0x23, 0x25, 0x26, 0x29, 0x2A, 0x2C] ++
  [0x31, 0x32, 0x34, 0x38, 0x43, 0x45, 0x46, 0x49] ++ [0x4A, 0x4C, 0x51, 0x52, 0x54, 0x58, 0x61, 0x62]

/-- Check bits of a data word (R368). -/
def eccCheck (d : BitVec 32) : BitVec 8 := eccColumns.zipIdx.foldl (fun c x => if bit d x.2 then c ^^^ x.1 else c) 0

/-- The codeword of a data word. -/
def eccEncode (d : BitVec 32) : BitVec 40 := d.setWidth 40 ||| ((eccCheck d).setWidth 40 <<< 32)

/-- What decoding gives: the value, and whether one error was corrected; none when uncorrectable (R369). -/
def eccDecode (w : BitVec 40) : Option (BitVec 32 × Bool) :=
  let d := field w 0 32
  let syn := eccCheck d ^^^ field w 32 8
  if syn = 0 then some (d, false)
  else if popCount syn = 1 then some (d, true)
  else match eccColumns.idxOf? syn with
    | some j => some (d ^^^ (1 <<< j), true)
    | none => none

/-- The bitwise majority of three words (R370). -/
def majority {w : Nat} (a b c : BitVec w) : BitVec w := (a &&& b) ||| (a &&& c) ||| (b &&& c)

/-! ### Partition map (R372) -/

/-- An ECC partition: its code, first word and lock word; the digest word stands before the lock word. -/
structure EccPart where
  code : Nat
  base : Nat
  lock : Nat

def eccParts : List EccPart :=
  [⟨1, 0x000, 0x007⟩, ⟨2, 0x008, 0x017⟩, ⟨3, 0x018, 0x037⟩, ⟨4, 0x038, 0x04F⟩, ⟨5, 0x050, 0x06F⟩, ⟨6, 0x070, 0x0AF⟩, ⟨7, 0x0B0, 0x4AF⟩]

/-- The ECC partition that holds a word. -/
def eccPartOf (a : Nat) : Option EccPart := eccParts.find? fun p => p.base ≤ a ∧ a ≤ p.lock

/-- Data words of a partition. -/
def EccPart.data (p : EccPart) : List Nat := List.range' p.base (p.lock - 1 - p.base)

/-- An incremental partition's code, base and number of logical words. -/
def incParts : List (Nat × Nat × Nat) := [(8, 0x4B0, 4), (9, 0x4BC, 4), (10, 0x4C8, 32)]

/-- The incremental partition whose copy 0 range holds `a`. -/
def incOf (a : Nat) : Option (Nat × Nat × Nat) := incParts.find? fun p => p.2.1 ≤ a ∧ a < p.2.1 + p.2.2

/-- The partition code of a programmable word (R391 check 1). -/
def otpCodeOf (a : Nat) : Option Nat :=
  match eccPartOf a with
  | some p => some p.code
  | none => (incOf a).map (·.1)

def Otp.word (o : Otp) (a : Nat) : OtpWord := SMap.get {} o.words a
/-- The three copies of the incremental word at copy 0 address `a`. -/
def Otp.copies (o : Otp) (a n : Nat) : OtpWord × OtpWord × OtpWord := (o.word a, o.word (a + n), o.word (a + 2 * n))
/-- An incremental word at NORMAL. -/
def Otp.inc (o : Otp) (a n : Nat) : BitVec 32 :=
  let c := o.copies a n
  field (majority c.1.nrm c.2.1.nrm c.2.2.nrm) 0 32

/-- Logical word `j` of LIFE_CYCLE, TICKETS and COUNTERS. -/
def Otp.lifeCycle (o : Otp) (j : Nat) : BitVec 32 := o.inc (0x4B0 + j) 4
def Otp.tickets (o : Otp) (j : Nat) : BitVec 32 := o.inc (0x4BC + j) 4
def Otp.counterWord (o : Otp) (j : Nat) : BitVec 32 := o.inc (0x4C8 + j) 32

/-- The value of a thermometer counter: 1 plus the index of its highest 1 bit, 0 without one (R373). -/
def thermometer {w : Nat} (v : BitVec w) : Nat := if v = 0 then 0 else Nat.log2 v.toNat + 1

/-- Counter `n` of COUNTERS: 256 bits over eight words (R372). -/
def Otp.counter (o : Otp) (n : Nat) : Nat :=
  thermometer (ofLeBytes 256 ((List.range 8).flatMap fun i => leBytes 4 (o.counterWord (8 * n + i))))

/-! ### Sense -/

/-- An ECC word at NORMAL. -/
def Otp.decode (o : Otp) (a : Nat) : Option (BitVec 32 × Bool) := eccDecode (o.word a).nrm

/-- Digest of R374 over decoded data words; none when one does not decode. -/
def Otp.digest (o : Otp) (p : EccPart) : Option (BitVec 32) :=
  match p.data.mapM fun a => o.decode a with
  | none => none
  | some l => some (ofLeBytes 32 ((sha384 (BitVec.ofNat 8 p.code :: l.flatMap fun v => leBytes 4 v.1)).take 4))

/-- The state of an ECC partition (R375): 0 OPEN, 1 LOCKED, 2 INCOMPLETE_LOCKED. -/
def Otp.partState (o : Otp) (p : EccPart) : Nat :=
  match o.decode p.lock with
  | none => 2
  | some (v, c) =>
    if v = 0 ∧ ¬ c then 0
    else if v ≠ 1 then 2
    else match o.digest p, o.decode (p.lock - 1) with
      | some g, some (d, _) => if g = d then 1 else 2
      | _, _ => 2

/-- The sensed state of partition `code`. -/
def Otp.pst (o : Otp) (code : Nat) : Nat := (field o.pstate (2 * (code - 1)) 2).toNat
/-- The content of an ECC word while its partition is LOCKED, else 0 (R376). -/
def Otp.val (o : Otp) (a : Nat) : BitVec 32 :=
  match eccPartOf a with
  | some p => if o.pst p.code = 1 then SMap.get 0 o.vals a else 0
  | none => 0
/-- `n` bytes from word `a` on (R372). -/
def Otp.bytes (o : Otp) (a n : Nat) : List Byte := ((List.range ((n + 3) / 4)).flatMap fun i => leBytes 4 (o.val (a + i))).take n

/-- Marks of an ECC word: weak, leaky, uncorrectable (R381); REPAIR is read at NORMAL only (R379). -/
def Otp.eccMarks (o : Otp) (repair : Bool) (a : Nat) : Bool × Bool × Bool :=
  let w := o.word a
  let leaky := !repair && decide (~~~w.nrm &&& w.low ≠ 0)
  match eccDecode w.nrm with
  | none => (false, false, true)
  | some (_, true) => (true, leaky, false)
  | some (_, false) => (!repair && decide (w.nrm &&& ~~~w.hi ≠ 0), leaky, false)

/-- Marks of an incremental word and the copies that disagree with the majority (R382, R383). -/
def Otp.incMarks (o : Otp) (a n : Nat) : Bool × Bool × BitVec 3 :=
  let c := o.copies a n
  let l : List OtpWord := [c.1, c.2.1, c.2.2]
  let m := (o.inc a n).setWidth 40
  let lo32 : BitVec 40 := 0xFFFFFFFF
  let bad (w : OtpWord) : Bool := (((w.hi ^^^ m) ||| (w.nrm ^^^ m) ||| (w.low ^^^ m)) &&& lo32) ≠ 0
  (l.any fun w => decide (m &&& ~~~(w.hi &&& w.nrm &&& w.low) ≠ 0), l.any fun w => decide ((w.hi ||| w.nrm ||| w.low) &&& ~~~m &&& lo32 ≠ 0),
    ofBits 3 ((List.range 3).filter fun i => bad (l.getD i {})))

/-- Set the mark of word `a`. -/
def mark (m : BitVec 2048) (a : Nat) (b : Bool) : BitVec 2048 := putBit m a b

/-- Record the marks of a word and log them (R383). -/
def State.otpMark (s : State) (a : Nat) (weak leaky uncorr : Bool) (copies : BitVec 3) : State :=
  let p0 : W64 := pack [(0, a), (11, copies.toNat)]
  let s := { s with otp := { s.otp with weak := mark s.otp.weak a weak, leaky := mark s.otp.leaky a leaky, uncorr := mark s.otp.uncorr a uncorr } }
  let s := if weak then s.log 0x08000080 (p0 := p0) else s
  let s := if leaky then s.log 0x08000081 (p0 := p0) else s
  if uncorr then s.log 0x08000082 (p0 := p0) else s

/-- The incremental words with a bit set anywhere, by copy 0 address. -/
def Otp.incWords (o : Otp) : List (Nat × Nat) :=
  incParts.flatMap fun p => ((List.range p.2.2).map fun j => (p.2.1 + j, p.2.2)).filter fun x =>
    let c := o.copies x.1 x.2; ¬ (c.1 = {} ∧ c.2.1 = {} ∧ c.2.2 = {})

/-- Sense the incremental partitions: their marks afresh (R382, R384). -/
def State.otpSenseInc (s : State) : State :=
  let clear (m : BitVec 2048) : BitVec 2048 := m &&& ((BitVec.allOnes 0x4B0).setWidth 2048)
  let s := { s with otp := { s.otp with weak := clear s.otp.weak, leaky := clear s.otp.leaky } }
  s.otp.incWords.foldl (fun s x => let m := s.otp.incMarks x.1 x.2; s.otpMark x.1 m.1 m.2.1 false m.2.2) s

/-- The feature values in force (R387, R388, R376). -/
def Otp.features (o : Otp) : Otp :=
  if o.pst 2 = 1 then
    let w (a : Nat) : BitVec 32 := o.val a
    let d (a : Nat) : W64 := (w a).setWidth 64 ||| ((w (a + 1)).setWidth 64 <<< 32)
    { o with fmax := field (w 0x008) 0 6, variant := field (w 0x008) 8 8, defaulted := false, powerCap := if field (w 0x009) 0 16 = 0 then 600 else field (w 0x009) 0 16,
             partEn := d 0x00A, sliceEn := d 0x00C &&& BitVec.ofNat 64 (2 ^ Config.slices - 1), laneEn := d 0x00E &&& BitVec.ofNat 64 (2 ^ Config.lanes - 1) }
  else { o with fmax := 31, variant := 0, defaulted := true, powerCap := 600, partEn := 1, sliceEn := BitVec.ofNat 64 (2 ^ Config.slices - 1), laneEn := 0 }

/-- PLANE_MODE as sensed: isolated unless the field holds 0b0110 in a LOCKED FEATURE partition (R17, R387). -/
def Otp.isolated (o : Otp) : Bool := !(o.pst 2 = 1 && field (o.val 0x008) 16 4 = 6)

/-- The cold sense of CO1 (R379 to R383). -/
def State.otpSense (s : State) : State :=
  let o := s.otp
  let listed := o.words.filterMap fun e => if e.1 < 0x4B0 then some e.1 else none
  let vals := listed.foldl (fun m a => match o.decode a with | some (v, _) => SMap.set 0 m a v | none => m) []
  let pstate := eccParts.foldl (fun (v : BitVec 14) p => putField v (2 * (p.code - 1)) 2 (BitVec.ofNat 2 (o.partState p))) 0
  let o := ({ o with vals := vals, pstate := pstate, lockSince := 0, weak := 0, leaky := 0, uncorr := 0 } : Otp).features
  let s := { s with otp := o, bnd := { s.bnd with isolated := o.isolated } }
  let s := listed.foldl (fun s a => let m := s.otp.eccMarks (decide (0x0B0 ≤ a)) a; s.otpMark a m.1 m.2.1 m.2.2 0) s
  let s := s.otpSenseInc
  let s := eccParts.foldl (fun s p => if s.otp.pst p.code = 2 then s.log 0x08000083 else s) s
  { s with otp := { s.otp with sensed := true, unprov := decide (s.otp.pst 5 = 2) } }

/-- A TRIM word in use: the partition's content while it is LOCKED, else the ROM's default (R372, R376). -/
def Otp.trim (o : Otp) (a : Nat) : BitVec 32 := if o.pst 6 = 1 then o.val a else Config.romTrim a

/-- The stream of R386: the data words of REPAIR, and 32,704 zero bits unless the partition is LOCKED. -/
def Otp.repairStream (o : Otp) : List (BitVec 32) := (List.range 1022).map fun i => o.val (0x0B0 + i)

/-- OTP_WIRED as CO2 drives it (R385). -/
def Otp.wired (o : Otp) : BitVec 128 := ofLeBytes 128 (o.bytes 0 16)

/-! ### Programs -/

/-- A word after pulses on target bits `t`. -/
def OtpWord.burn (w : OtpWord) (t : BitVec 40) (b : CopyBurn) : OtpWord :=
  let hi := w.hi ||| (b.hi &&& t)
  let nrm := w.nrm ||| (b.nrm &&& t) ||| hi
  { hi := hi, nrm := nrm, low := w.low ||| b.low ||| nrm }

/-- Every target bit reads 1 at MARGIN_HIGH (R392). -/
def OtpWord.verified (w : OtpWord) (t : BitVec 40) : Bool := t &&& ~~~w.hi = 0

/-- Burn a word of the array. -/
def Otp.burnWord (o : Otp) (a : Nat) (t : BitVec 40) (b : CopyBurn) : Otp := { o with words := SMap.set {} o.words a ((o.word a).burn t b) }

/-- The copies of a run: physical word, targets and outcome. -/
def OtpRun.parts (r : OtpRun) (b : Burn) : List (Nat × BitVec 40 × CopyBurn) :=
  match incOf r.addr with
  | some (_, _, n) => [(r.addr, r.t0, b.c0), (r.addr + n, r.t1, b.c1), (r.addr + 2 * n, r.t2, b.c2)]
  | none => [(r.addr, r.t0, b.c0)]

/-- Apply the outcome of a run to the array. -/
def Otp.burnRun (o : Otp) (r : OtpRun) (b : Burn) : Otp := (r.parts b).foldl (fun o x => o.burnWord x.1 x.2.1 x.2.2) o

/-- Copies that did not verify. -/
def Otp.failedCopies (o : Otp) (r : OtpRun) (b : Burn) : BitVec 3 :=
  ofBits 3 (((r.parts b).zipIdx.filter fun x => ¬ (o.word x.1.1).verified x.1.2.1).map (·.2))

/-- Pulses of a run: none when every target already verifies, four when it fails, else what the outcome says (R392). -/
def Otp.pulseCount (before after : Otp) (r : OtpRun) (b : Burn) : Nat :=
  if before.failedCopies r b = 0 then 0 else if after.failedCopies r b ≠ 0 then 4 else max 1 (min 4 b.pulses.toNat)

/-- A bit that counts as leaky after a verify at word `a`: not a target and 1 at MARGIN_LOW (R393); bits [39:32] of an incremental
copy are ignored (R370). -/
def OtpWord.leakyAfter (w : OtpWord) (a : Nat) (t : BitVec 40) : Bool :=
  (w.low &&& ~~~t &&& (if (eccPartOf a).isSome then BitVec.allOnes 40 else 0xFFFFFFFF)) ≠ 0

/-- End a run: array, OTP_STAT and time (R392, R393); in a warm reset the outcome is logged (R399). Answers whether it verified. -/
def State.otpEnd (s : State) (r : OtpRun) (b : Burn) : Bool × State :=
  let o := s.otp
  let o' := o.burnRun r b
  let fail := o'.failedCopies r b
  let n := o.pulseCount o' r b
  let leaky := (r.parts b).any fun x => (o'.word x.1).leakyAfter x.1 x.2.1
  let s := s.at (r.start.toNat + 80 + 20160 * n)
  let inc := (incOf r.addr).isSome
  let o' := { o' with running := none, pulses := BitVec.ofNat 3 n, leakyStat := leaky, copyFail := if inc then fail else 0 }
  let o' := if r.reburn ∧ fail = 0 then { o' with weak := mark o'.weak r.addr false } else o'
  let s := { s with otp := o' }
  (decide (fail = 0), if s.bnd.warmRunning then s.log 0x08000085 (p0 := BitVec.ofNat 64 r.addr) (p1 := (if fail = 0 then 0 else 0x0808 : W64)) else s)

/-- Program commands allowed in the life-cycle state (R396, R408). -/
def otpAllowed (s : State) (code : Nat) : Bool :=
  let st := s.lc.state.toNat
  match code with
  | 1 | 4 | 6 => (st = 1 || st = 2) && s.lc.session
  | 7 => st = 1 && s.lc.session
  | 2 => (st = 2 && s.lc.session) || st = 3
  | 3 | 5 => st = 3
  | 10 => st = 3 || st = 4
  | _ => false

/-- Target bits of a program of `data` at `a` (R392). -/
def programTargets (a : Nat) (data : BitVec 32) : BitVec 40 × BitVec 40 × BitVec 40 :=
  match incOf a with
  | some _ => (data.setWidth 40, data.setWidth 40, data.setWidth 40)
  | none => (eccEncode data, 0, 0)

/-- Bits that a re-burn pulses; none for an uncorrectable word (R394). -/
def Otp.reburnTargets (o : Otp) (a : Nat) : Option (BitVec 40 × BitVec 40 × BitVec 40) :=
  match incOf a with
  | some (_, _, n) => let m := (o.inc a n).setWidth 40; some (m, m, m)
  | none => (o.decode a).map fun v => ((o.word a).nrm &&& eccEncode v.1, 0, 0)

/-- Complete an OTP command without an operation. -/
def State.otpStatus (s : State) (st : Status) : State := { s with otp := { s.otp with status := st } }

/-- Start a program or re-burn. -/
def State.otpStart (s : State) (user : OtpUser) (a : Nat) (reburn : Bool) (t : BitVec 40 × BitVec 40 × BitVec 40) : State :=
  { s with otp := { s.otp with running := some { user := user, addr := a, reburn := reburn, t0 := t.1, t1 := t.2.1, t2 := t.2.2, start := s.bnd.timebase } } }

/-- The refusals that PROGRAM and REBURN share: supply, warning, transition (R391 checks 5 to 7). -/
def otpCommon (s : State) : Option Status :=
  if ¬ s.bnd.vppOk then some 0x0806 else if s.bnd.pwrWarn then some 0x0807 else if s.lc.trBusy then some 0x080B else none

/-- The checks of a PROGRAM (R391); SCRAP and INVALID refuse every one with OTP_DENIED (R408). -/
def otpProgramCheck (s : State) (a : Nat) (data : BitVec 32) : Option Status :=
  if 6 ≤ s.lc.state.toNat then some 0x0803
  else match otpCodeOf a with
  | none => some 0x0802
  | some code =>
    if ¬ otpAllowed s code then some 0x0803
    else if code ≤ 7 ∧ (s.otp.pst code ≠ 0 ∨ bit s.otp.lockSince (code - 1)) then some 0x0804
    else if code ≤ 7 ∧ (s.otp.word a).nrm ≠ 0 ∧ (s.otp.decode a).map (·.1) ≠ some data then some 0x0805
    else otpCommon s

/-- OTP_PROGRAM: a word that already decodes to the data is re-burnt instead (R391). -/
def otpProgram (s : State) (a : Nat) : State :=
  match otpProgramCheck s a s.otp.wdata with
  | some st => s.otpStatus st
  | none =>
    let again := (eccPartOf a).isSome ∧ (s.otp.word a).nrm ≠ 0
    let locks := (eccPartOf a).any fun p => p.lock = a
    let s := if locks then { s with otp := { s.otp with lockSince := putBit s.otp.lockSince ((otpCodeOf a).getD 1 - 1) true } } else s
    if again then s.otpStart .command a true ((s.otp.reburnTargets a).getD (0, 0, 0))
    else s.otpStart .command a false (programTargets a s.otp.wdata)

/-- OTP_REBURN (R394, R408): the place of its own two refusals among the checks is that of R391's checks 2 and 4 (log entry 19). -/
def otpReburn (s : State) (a : Nat) : State :=
  match otpCodeOf a with
  | none => s.otpStatus 0x0802
  | some _ =>
    if s.lc.state.toNat = 0 ∨ 6 ≤ s.lc.state.toNat then s.otpStatus 0x0803
    else match s.otp.reburnTargets a with
      | none => s.otpStatus 0x0809
      | some t => match otpCommon s with
        | some st => s.otpStatus st
        | none => s.otpStart .command a true t

/-- OTP_OP_COMPLETE: the program or re-burn of an OTP command ends after its verifies (R392, R393, R399). -/
def otpOpComplete (s : State) (b : Burn) : State :=
  match s.otp.running with
  | some r =>
    if r.user ≠ .command then s
    else
      let e := s.otpEnd r b
      let st : Status := if e.1 then 0 else 0x0808
      e.2.otpStatus st
  | none => s

/-- The word as it reads at a reference; the reserved reference gives a free value. -/
def readAt (s : State) (margin : BitVec 2) (w : OtpWord) (i : Nat) : BitVec 40 :=
  match margin.toNat with | 0 => w.nrm | 1 => w.low | 2 => w.hi | _ => s.drawAt 40 i

/-- OTP_READ (R397). -/
def otpRead (s : State) (a : Nat) (margin : BitVec 2) : State :=
  if 0x050 ≤ a ∧ a ≤ 0x06E then
    { s with otp := { s.otp with rdata := 0, rdec := 0, corrected := false, rUncorr := false, copyDiff := false, status := 0x080A } }
  else
    let raw := readAt s margin (s.otp.word a) 0
    let s' := { s with freeCount := s.freeCount + 4 }
    match incOf a with
    | some (_, _, n) =>
      let c := s.otp.copies a n
      let b := readAt s margin c.2.1 1; let d := readAt s margin c.2.2 2
      { s' with otp := { s.otp with rdata := raw, rdec := field (majority raw b d) 0 32, corrected := false, rUncorr := false,
                                    copyDiff := decide (field raw 0 32 ≠ field b 0 32 ∨ field raw 0 32 ≠ field d 0 32), status := 0 } }
    | none =>
      match eccDecode raw with
      | some (v, c) => { s' with otp := { s.otp with rdata := raw, rdec := v, corrected := c, rUncorr := false, copyDiff := false, status := 0 } }
      | none => { s' with otp := { s.otp with rdata := raw, rdec := s.drawAt 32 3, corrected := false, rUncorr := true, copyDiff := false, status := 0 } }

/-- OTP_CHECK (R398). -/
def otpCheck (s : State) (a : Nat) : State :=
  match eccPartOf a with
  | none => s.otpStatus 0x0802
  | some p =>
    let clean (a : Nat) : Bool := match s.otp.decode a with | some (_, false) => true | _ => false
    let dw := p.lock - 1
    { s with otp := { s.otp with
        checkClean := (p.data ++ [dw]).all clean
        checkMatch := clean dw && (match s.otp.digest p with | some g => (s.otp.decode dw).map (·.1) = some g | none => false)
        status := 0 } }

/-- A write of OTP_CMD with GO (R390). Only Keeper issues OTP commands. -/
def otpGo (s : State) (op : Nat) (margin : BitVec 2) (a : Nat) : State :=
  if s.otp.running.isSome then s
  else match op with
    | 0 => s.otpStatus 0
    | 1 => otpRead s a margin
    | 2 => otpProgram s a
    | 3 => otpReburn s a
    | 4 => otpCheck s a
    | _ => s.otpStatus 0x0801

/-- OTP_CMD written by class `c`: the fields are kept, GO starts the operation. -/
def otpCommand (s : State) (c : Cls) (op : BitVec 3) (margin : BitVec 2) (a : BitVec 11) (go : Bool) : State :=
  if c ≠ .K then s
  else
    let s := { s with otp := { s.otp with op := op, margin := margin, addr := a } }
    if go then otpGo s op.toNat margin a.toNat else s

def execOtpRead (cls : Cls) (margin : BitVec 2) (addr : BitVec 11) (s : State) : Host.Outcome State Fault Refusal :=
  .next (otpCommand s cls 1 margin addr true)
def execOtpProgram (cls : Cls) (addr : BitVec 11) (s : State) : Host.Outcome State Fault Refusal := .next (otpCommand s cls 2 s.otp.margin addr true)
def execOtpReburn (cls : Cls) (addr : BitVec 11) (s : State) : Host.Outcome State Fault Refusal := .next (otpCommand s cls 3 s.otp.margin addr true)
def execOtpCheck (cls : Cls) (addr : BitVec 11) (s : State) : Host.Outcome State Fault Refusal := .next (otpCommand s cls 4 s.otp.margin addr true)

/-- A cold reset cuts a program: what its targets then read is open (R400). -/
def State.otpCut (s : State) : State :=
  match s.otp.running with
  | none => s
  | some r =>
    let c (i : Nat) : CopyBurn := { hi := s.drawAt 40 i &&& s.drawAt 40 (i + 3), nrm := s.drawAt 40 (i + 3), low := 0 }
    { s with freeCount := s.freeCount + 6, otp := { s.otp.burnRun r { c0 := c 0, c1 := c 1, c2 := c 2 } with running := none } }

/-! ### Registers -/

/-- The lowest marked address, 0 without one. -/
def Otp.firstMarked (o : Otp) : Nat := ((List.range 2048).find? fun i => bit o.weak i || bit o.leaky i || bit o.uncorr i).getD 0

/-- OTP_FEAT (R389). -/
def State.otpFeat (s : State) : W64 :=
  pack [(0, s.otp.fmax.toNat), (6, s.otp.variant.toNat), (14, b2n s.bnd.isolated), (15, b2n s.otp.defaulted), (16, s.otp.powerCap.toNat)]

def otpRegs : List Reg :=
  [ { base := 0x0700000, allow := capK                                                                                  -- OTP_CMD
      get := fun _ _ s => pack [(0, s.otp.op.toNat), (3, s.otp.margin.toNat), (8, s.otp.addr.toNat)]
      put := fun _ c v m s => otpCommand s c (mrg s.otp.op 0 v m) (mrg s.otp.margin 3 v m) (mrg s.otp.addr 8 v m) (bit (v &&& m) 19) },
    { base := 0x0700008, allow := capK                                                                                  -- OTP_WDATA
      get := fun _ _ s => s.otp.wdata.setWidth 64
      put := fun _ _ v m s => { s with otp := { s.otp with wdata := mrg s.otp.wdata 0 v m } } },
    { base := 0x0700010, allow := capK, get := fun _ _ s => s.otp.rdata.setWidth 64 },                                  -- OTP_RDATA
    { base := 0x0700018, allow := capK                                                                                  -- OTP_RDEC
      get := fun _ _ s => pack [(0, s.otp.rdec.toNat), (32, b2n s.otp.corrected), (33, b2n s.otp.rUncorr), (34, b2n s.otp.copyDiff)] },
    { base := 0x0700020, allow := capKSO                                                                                -- OTP_STAT
      get := fun _ _ s =>
        let o := s.otp
        pack [(0, b2n o.running.isSome), (1, b2n o.sensed), (2, b2n o.unprov), (3, b2n s.bnd.vppOk), (4, o.pulses.toNat), (7, o.copyFail.toNat),
              (10, b2n o.leakyStat), (11, b2n o.checkClean), (12, b2n o.checkMatch), (16, o.status.toNat)] },
    { base := 0x0700028, allow := capKSHO                                                                               -- OTP_PSTATE
      get := fun _ _ s => pack [(0, s.otp.pstate.toNat), (14, s.otp.lockSince.toNat)] },
    { base := 0x0700030, allow := capKSO                                                                                -- OTP_WEAK
      get := fun _ _ s => pack [(0, popCount s.otp.weak), (12, popCount s.otp.leaky), (24, popCount s.otp.uncorr), (36, s.otp.firstMarked)] },
    { base := 0x0700040, allow := capKSHO                                                                               -- OTP_FEAT
      get := fun _ _ s => s.otpFeat },
    { base := 0x0700048, allow := capKSHO, get := fun _ _ s => s.otp.partEn },                                          -- PART_EN
    { base := 0x0700050, allow := capKSHO, get := fun _ _ s => s.otp.sliceEn },                                         -- SLICE_EN
    { base := 0x0700058, allow := capKSHO, get := fun _ _ s => s.otp.laneEn } ]                                         -- LANE_EN

def otpWindows : List Window :=
  [ { base := 0x0700100, span := 0x100, allow := capKSO, get := fun _ o n _ s => (List.range n).map fun i => field s.otp.weak (8 * (o + i)) 8 } ]

end Sys2Proof.Machine
end

