-- ==== Sys2Proof/Machine/LifeCycle.lean ====
section
/-! DEFINITION. The life-cycle controller: states and what they permit, test sessions, transitions, debug grants (R402 to R430). -/
namespace Sys2Proof.Machine

/-! ### States -/

/-- The four words of each state, by code (R402); any other value is INVALID, code 7. -/
def lcWords : List (List (BitVec 32)) :=
  [[0, 0, 0, 0], [0x00005A3C, 0, 0, 0], [0xC3A55A3C, 0, 0, 0], [0xC3A55A3C, 0x000096E1, 0, 0]] ++
  [[0xC3A55A3C, 0x1E6996E1, 0, 0], [0xC3A55A3C, 0x1E6996E1, 0x0000A55A, 0], List.replicate 4 0xFFFFFFFF]

def lcDecode (w : List (BitVec 32)) : Nat := (lcWords.idxOf? w).getD 7

/-- The state that OTP now holds. -/
def Otp.lcCode (o : Otp) : BitVec 4 := BitVec.ofNat 4 (lcDecode ((List.range 4).map o.lifeCycle))

/-- TEST_GATE[3:0] of a state with its session and grant scope (R405). -/
def lcGates (st : Nat) (session : Bool) (grant : BitVec 2) : BitVec 4 :=
  match st with
  | 0 | 5 => 0xF
  | 1 | 2 => if session then 0xF else 0
  | 4 => grant.setWidth 4 <<< 2
  | _ => 0

/-- Unsigned code may run in the state (R405). -/
def lcUnsigned (st : Nat) (session : Bool) : Bool := st = 0 || ((st = 1 || st = 2) && session)

/-- Both of the state in force and, after a completed transition, the new state permit unsigned code (R405, R420). -/
def State.unsignedOk (s : State) : Bool :=
  lcUnsigned s.lc.state.toNat s.lc.session && (!s.lc.transSince || lcUnsigned s.lc.otpState.toNat s.lc.session)

/-- The state permits secret use (R405). -/
def State.secretOk (s : State) : Bool := s.lc.state = 3 || s.lc.state = 4

/-- TEST_GATE as R405, R420 and R70 give it. -/
def State.gateValue (s : State) : BitVec 4 :=
  if ¬ s.otp.sensed ∨ (s.bnd.warmRunning ∧ s.bnd.coStage = 1) then 0
  else
    let g := lcGates s.lc.state.toNat s.lc.session (if s.lc.dbgOpen then s.lc.dbgScope else 0)
    if s.lc.transSince then g &&& lcGates s.lc.otpState.toNat s.lc.session 0 else g

/-- Drive the TEST_GATE outputs. -/
def State.driveGates (s : State) : State := { s with bnd := { s.bnd with testGate := s.gateValue } }

/-- The fields that every sense takes from OTP (R403, R384). -/
def State.lcResense (s : State) : State :=
  { s with lc := { s.lc with otpState := s.otp.lcCode, ticketsUsed := BitVec.ofNat 5 (thermometer (field (s.otp.tickets 0) 0 16)),
                             unlocks := BitVec.ofNat 7 (thermometer (s.otp.tickets 2 ++ s.otp.tickets 1)) } }

/-- The life-cycle part of the cold sense (R403, R421). -/
def State.lcSense (s : State) : State :=
  let s := s.lcResense
  let s := { s with lc := { s.lc with state := s.lc.otpState } }
  let s := if s.lc.state = 7 then s.log 0x09000086 else s
  s.driveGates

/-- Every partition is FREE and no slot of domains 0 to 63 holds a key (R414, R425). -/
def State.noTenant (s : State) : Bool :=
  (s.parts.all fun e => e.2.state = .free) && !(s.skn.slots.any fun e => e.2.valid && e.2.owner.toNat < 64)

/-! ### Test sessions -/

def State.setLc (s : State) (l : Lc) : State := { s with lc := l }
def State.sessStatus (s : State) (st : Status) : State := s.setLc { s.lc with sessStatus := st }

/-- Class `c` may write LC_SESSION and LC_TRANS_CTL: the instrument in BLANK, WAFER_TEST and PACKAGE_TEST only (R410). -/
def State.lcWrites (s : State) : Cls → Bool
  | .K | .H | .O => true
  | .I => s.otp.sensed && decide (s.lc.state.toNat ≤ 2)
  | _ => false

/-- LC_SESSION_OPEN: OPEN written by class `c` (R408, R411, R412). -/
def lcSessionOpen (s : State) (c : Cls) : State :=
  let st := s.lc.state.toNat
  if ¬ s.lcWrites c then s
  else if 6 ≤ st then s.sessStatus 0x0902
  else if c = .O then s.sessStatus 0x0901
  else if ¬ (st = 1 ∨ st = 2) then s.sessStatus 0x0902
  else if s.lc.session then s.sessStatus 0
  else if 16 ≤ s.lc.ticketsUsed.toNat then s.sessStatus 0x0910
  else if s.otp.running.isSome ∨ s.lc.trBusy then s.sessStatus 0x0904
  else if ¬ s.bnd.vppOk then s.sessStatus 0x090C
  else if s.bnd.pwrWarn then s.sessStatus 0x090D
  else
    (s.setLc { s.lc with sessBusy := true }).otpStart .ticket 0x4BC false (programTargets 0x4BC (1 <<< s.lc.ticketsUsed.toNat))

/-- LC_TICKET_VERIFIED: the ticket program ends; the session opens when it verified (R411, R412). -/
def lcTicketVerified (s : State) (b : Burn) : State :=
  match s.otp.running with
  | some r =>
    if r.user ≠ .ticket then s
    else
      let ticket := s.lc.ticketsUsed
      let e := s.otpEnd r b
      let s := e.2.setLc { e.2.lc with sessBusy := false }
      if e.1 then
        let s := { s with co := { s.co with holdAgain := s.co.testHold } }
        ((s.setLc { s.lc with session := true, sessStatus := 0, ticketsUsed := ticket + 1 }).log 0x09000082 (p0 := ticket.setWidth 64)).driveGates
      else s.sessStatus 0x090E
  | none => s

/-! ### Transitions -/

/-- A challenge of the purpose is live (R423). -/
def State.chalLive (s : State) (purpose : Nat) : Bool :=
  match s.lc.chal with
  | some c => (field c.record 48 8).toNat = purpose && decide (s.now < c.time.toNat + 600000000000)
  | none => false

/-- The requesters of R414 by state in force. -/
def lcRequester (c : Cls) (st : Nat) : Bool :=
  match c with
  | .K => true
  | .H | .I => decide (st ≤ 2)
  | _ => false

/-- The pairs of R414. -/
def lcPair (st target : Nat) : Bool := (st ≤ 4 && target = st + 1) || (st ≤ 5 && target = 6)

/-- The conditions of a pair (R414, R416): the status of the first that fails. -/
def lcConditions (s : State) (target : Nat) : Option Status :=
  match s.lc.state.toNat, target with
  | 1, 2 | 2, 3 => if s.lc.session then none else some 0x0906
  | 3, 4 => if [1, 2, 3, 4, 5].all fun p => s.otp.pst p = 1 then none else some 0x0907
  | 4, 5 =>
    if 8 ≤ s.lc.tokenFails.toNat then some 0x090B
    else if ¬ s.noTenant then some 0x0908
    else if ¬ s.chalLive 2 then some 0x0909
    else if s.otp.pst 5 = 1 ∧ s.lc.token = ofLeBytes 256 (s.otp.bytes 0x060 32) then none
    else some 0x090A
  | _, _ => none

/-- A LIFE_CYCLE or TICKETS word is marked WEAK. -/
def Otp.lcWeak (o : Otp) : Bool := ([0x4B0, 0x4B1, 0x4B2, 0x4B3] ++ [0x4BC, 0x4BD, 0x4BE, 0x4BF]).any fun a => bit o.weak a

/-- The checks of R415. -/
def lcGoCheck (s : State) (c : Cls) (target : Nat) : Option Status :=
  let st := s.lc.state.toNat
  if 6 ≤ st then some 0x0902
  else if ¬ lcRequester c st then some 0x0901
  else if ¬ lcPair st target then some 0x0902
  else if s.lc.transSince then some 0x0903
  else if s.lc.dbgOpen ∧ target ≠ 6 then some 0x0913
  else if s.otp.running.isSome ∨ s.lc.sessBusy ∨ s.lc.trBusy then some 0x0904
  else if s.otp.lcWeak then some 0x0905
  else match lcConditions s target with
    | some x => some x
    | none => if ¬ s.bnd.vppOk then some 0x090C else if s.bnd.pwrWarn then some 0x090D else none

/-- LC_TRANS_GO: TARGET and GO written by class `c` (R415 to R417). -/
def lcTransGo (s : State) (c : Cls) (target : BitVec 4) : State :=
  if ¬ s.lcWrites c then s
  else
    let r := lcGoCheck s c target.toNat
    let s := s.setLc { s.lc with target := if c = .O then s.lc.target else target, token := 0 }
    match r with
    | some st =>
      let s := s.setLc { s.lc with trStatus := st }
      if st = 0x090A then (s.setLc { s.lc with tokenFails := s.lc.tokenFails + 1 }).log 0x09000085 else s
    | none =>
      (s.setLc { s.lc with trBusy := true, trPhase := 1, trTo := target, trStart := s.bnd.timebase, trStop := false,
                           trWords := ofBits 4 ((List.range 4).filter fun j => (lcWords.getD target.toNat []).getD j 0 ≠ s.otp.lifeCycle j),
                           chal := if target = 5 then none else s.lc.chal }).log 0x09000080 (p0 := s.lc.state.setWidth 64) (p1 := target.setWidth 64)

/-- The words of LIFE_CYCLE that the transition changes, with the target bits (R417). -/
def lcChanges (s : State) : List (Nat × BitVec 40) :=
  (bitsSet s.lc.trWords).map fun j => (j, ((lcWords.getD s.lc.trTo.toNat []).getD j 0).setWidth 40)

/-- The words that copy `c` of the transition has pulsed, with what the verifies leave in OTP_STAT (R393, R418). PULSES of a copy that
needed some and verified is a free value of 1 to 4. -/
def lcBurnCopy (s : State) (changes : List (Nat × BitVec 40)) (c : Nat) (b : List CopyBurn) : State :=
  let a (x : Nat × BitVec 40) : Nat := 0x4B0 + 4 * c + x.1
  let before := changes.all fun x => (s.otp.word (a x)).verified x.2
  let o := changes.foldl (fun o x =>
    let o := o.burnWord (a x) x.2 (b.getD x.1 {})
    if (o.word (a x)).verified x.2 then o else { o with weak := mark o.weak (0x4B0 + x.1) true }) s.otp
  let fail := changes.any fun x => !(o.word (a x)).verified x.2
  let n : BitVec 3 := if before then 0 else if fail then 4 else (s.draw 2).setWidth 3 + 1
  { s.drawn 1 with otp := { o with
      pulses := n, leakyStat := changes.any fun x => (o.word (a x)).leakyAfter (a x) x.2
      copyFail := putBit (if c = 0 then 0 else o.copyFail) c fail } }

/-- LC_TRANSITION_PHASE: the phase in progress ends with these outcomes, and the next of the schedule begins (R417, R418). -/
def lcTransitionPhase (s : State) (b : List CopyBurn) : State :=
  if ¬ s.lc.trBusy ∨ s.lc.trStop then s
  else
    let t := s.lc.trStart.toNat
    match s.lc.trPhase.toNat with
    | 1 => (s.at (t + 200000)).setLc { s.lc with trPhase := 2 }
    | 2 =>
      let ch := lcChanges s
      let s := (lcBurnCopy s ch 0 b).at (t + 800000)
      if ch.all fun x => (s.otp.word (0x4B0 + x.1)).verified x.2 then s.setLc { s.lc with trPhase := 3 } else s.setLc { s.lc with trStop := true }
    | 3 =>
      ((lcBurnCopy s (lcChanges s) 1 b).at (t + 1400000)).setLc { s.lc with trPhase := 4 }
    | 4 => ((lcBurnCopy s (lcChanges s) 2 b).at (t + 2000000)).setLc { s.lc with trPhase := 5 }
    | _ => s

/-- Unsigned code in core SRAM stops where the states no longer permit it (R406, R420). -/
def State.unsignedStop (s : State) : State := if s.unsignedOk then s else { s with co := { s.co with unsignedRun := false } }

/-- LC_TRANSITION_END at t0 + 2.2 ms (R417 to R420). -/
def lcTransitionEnd (s : State) : State :=
  if ¬ s.lc.trBusy ∨ ¬ (s.lc.trPhase = 5 ∨ s.lc.trStop) then s
  else
    let s := s.at (s.lc.trStart.toNat + 2200000)
    let now := s.otp.lcCode
    let st : Status := if s.lc.trStop then 0x090E else if now = s.lc.trTo then 0 else 0x090F
    let s := s.setLc { s.lc with trBusy := false, trPhase := 0, trStatus := st, otpState := now, trStop := false }
    let s := if st = 0 then s.setLc { s.lc with transSince := true, session := false } else s
    (s.unsignedStop.driveGates).log 0x09000081 (p0 := st.setWidth 64)

/-- A cold reset cuts a transition: what the copy in progress then reads is open. -/
def State.lcCut (s : State) : State :=
  if s.lc.trBusy ∧ 2 ≤ s.lc.trPhase.toNat ∧ s.lc.trPhase.toNat ≤ 4 ∧ ¬ s.lc.trStop then
    let c (i : Nat) : CopyBurn := { hi := s.drawAt 40 i &&& s.drawAt 40 (i + 4), nrm := s.drawAt 40 (i + 4), low := 0 }
    { s with freeCount := s.freeCount + 8, otp := (lcBurnCopy s (lcChanges s) (s.lc.trPhase.toNat - 2) [c 0, c 1, c 2, c 3]).otp }
  else s

/-! ### Debug authorisation -/

def State.dbgStatus (s : State) (st : Status) : State := s.setLc { s.lc with dbgStatus := st }

/-- The challenge record of R422. -/
def lcRecord (s : State) (nonce : List Byte) : BitVec 768 :=
  let p2 := s.lc.purpose
  ofLeBytes 768 (leBytes 2 (0x0E4B : BitVec 16) ++ leBytes 2 (0x0D52 : BitVec 16) ++ [0x21, 0x04, if p2 then 2 else 1, if p2 then 0 else s.lc.scope.setWidth 8] ++
    leBytes 2 (if p2 then 0 else s.lc.duration) ++ [s.lc.unlocks.setWidth 8, 0] ++ s.otp.bytes 0x038 16 ++ nonce ++ leBytes 8 s.bnd.timebase ++ List.replicate 12 0)

/-- LC_DBG_NEW (R422). -/
def lcDbgNew (s : State) (c : Cls) : State :=
  if c ≠ .K then s
  else if s.lc.state ≠ 4 then s.dbgStatus 0x0902
  else if ¬ s.skn.drbgReady 0 then s.dbgStatus 0x020A
  else
    let s' := s.drbgUsed 48
    s'.setLc { s'.lc with chal := some { record := lcRecord s (s.randomBytes 48), time := s.bnd.timebase }, dbgStatus := 0 }

/-- The checks of R425; a DURATION of 0 is LC_SCOPE (LC_DBG_CTL). -/
def lcGrantCheck (s : State) : Option Status :=
  if s.lc.state ≠ 4 then some 0x0902
  else if s.lc.trBusy ∨ s.lc.transSince then some 0x0903
  else if ¬ s.chalLive 1 then some 0x0909
  else
    let r := match s.lc.chal with | some c => c.record | none => 0
    if s.lc.scope = 0 ∨ s.lc.scope &&& ~~~(field r 56 2) ≠ 0 ∨ s.lc.duration = 0 ∨ field r 64 16 = 0 then some 0x0911
    else if 64 ≤ s.lc.unlocks.toNat then some 0x0912
    else if (field r 80 8).toNat ≠ s.lc.unlocks.toNat then some 0x0909
    else if ¬ s.noTenant then some 0x0908
    else if s.otp.running.isSome then some 0x0904
    else if ¬ s.bnd.vppOk then some 0x090C
    else if s.bnd.pwrWarn then some 0x090D
    else none

/-- Empty a slot: material and metadata go, GEN stays (log entry 20). -/
def Skein.emptySlot (k : Skein) (i : Nat) : Skein := k.setSlot i { gen := (k.slot i).gen, written := (k.slot i).written }
def Skein.emptySlots (k : Skein) (l : List Nat) : Skein := l.foldl Skein.emptySlot k

/-- LC_DBG_GRANT (R425, R426 steps 1 to 3), before which Keeper erases every ledger and configuration key (R459). The grant lasts the DURATION of the signed record (log entry 20). -/
def lcDbgGrant (s : State) (c : Cls) : State :=
  if c ≠ .K then s
  else
    let s := s.eraseStoreKeys fun _ => true
    match lcGrantCheck s with
    | some st => s.dbgStatus st
    | none =>
      let dur := match s.lc.chal with | some c => field c.record 64 16 | none => 0
      let n := s.lc.unlocks.toNat
      let s := { s with skn := s.skn.emptySlots [0, 1, 2, 3, 16, 17, 18] }
      let s := s.setLc { s.lc with chal := none, dbgSince := true, granting := some (s.lc.scope, dur) }
      s.otpStart .count (0x4BD + n / 32) false (programTargets 0x4BD (1 <<< (n % 32)))

/-- LC_GRANT_OPEN: the count program ends; the gates rise when it verified (R426 step 4). -/
def lcGrantOpen (s : State) (b : Burn) : State :=
  match s.otp.running with
  | some r =>
    if r.user ≠ .count then s
    else
      let e := s.otpEnd r b
      let g := s.lc.granting
      let s := e.2.setLc { e.2.lc with granting := none }
      if ¬ e.1 then s.dbgStatus 0x090E
      else
        let s := s.setLc { s.lc with unlocks := BitVec.ofNat 7 (thermometer (s.otp.tickets 2 ++ s.otp.tickets 1)) }
        match g with
        | none => s
        | some (sc, dur) =>
          ((s.setLc { s.lc with dbgOpen := true, dbgScope := sc, openedAt := s.bnd.timebase, grantFor := dur, dbgStatus := 0 }).driveGates).logItems 0x09000083
            [sc.toNat, s.lc.unlocks.toNat, dur.toNat]
  | none => s

/-- The end of a grant (R427). The event names the cause: 0 LOCK, 1 expiry, 2 warm reset, 3 cold reset. -/
def State.endGrant (s : State) (cause : Nat) : State :=
  if s.lc.dbgOpen then
    ((s.setLc { s.lc with dbgOpen := false, dbgScope := 0, grantFor := 0 }).driveGates).logItems 0x09000084 [cause]
  else s

/-- LC_DBG_LOCK (R427). -/
def lcDbgLock (s : State) (c : Cls) : State :=
  if c ≠ .K then s else if 6 ≤ s.lc.state.toNat then s.dbgStatus 0x0902 else (s.endGrant 0).dbgStatus 0

/-- LC_GRANT_EXPIRE (R427). -/
def lcGrantExpire (s : State) : State :=
  if s.lc.dbgOpen then (s.at (s.lc.openedAt.toNat + s.lc.grantFor.toNat * 1000000000)).endGrant 1 else s

/-- LC_CHALLENGE_EXPIRE (R423). -/
def lcChallengeExpire (s : State) : State :=
  match s.lc.chal with
  | some c => (s.at (c.time.toNat + 600000000000)).setLc { s.lc with chal := none }
  | none => s

def execLcSessionOpen (cls : Cls) (s : State) : Host.Outcome State Fault Refusal := .next (s.gated cls 0x0740008 fun s => lcSessionOpen s cls)
def execLcTicketVerified (burn : Burn) (s : State) : Host.Outcome State Fault Refusal := .next (lcTicketVerified s burn)
def execLcTransGo (cls : Cls) (target : BitVec 4) (s : State) : Host.Outcome State Fault Refusal := .next (s.gated cls 0x0740010 fun s => lcTransGo s cls target)
def execLcTransitionPhase (w0 w1 w2 w3 : CopyBurn) (s : State) : Host.Outcome State Fault Refusal := .next (lcTransitionPhase s [w0, w1, w2, w3])
def execLcTransitionEnd (s : State) : Host.Outcome State Fault Refusal := .next (lcTransitionEnd s)
def execLcDbgNew (cls : Cls) (s : State) : Host.Outcome State Fault Refusal := .next (lcDbgNew s cls)
def execLcDbgGrant (cls : Cls) (s : State) : Host.Outcome State Fault Refusal := .next (lcDbgGrant s cls)
def execLcGrantOpen (burn : Burn) (s : State) : Host.Outcome State Fault Refusal := .next (lcGrantOpen s burn)
def execLcDbgLock (cls : Cls) (s : State) : Host.Outcome State Fault Refusal := .next (lcDbgLock s cls)
def execLcGrantExpire (s : State) : Host.Outcome State Fault Refusal := .next (lcGrantExpire s)
def execLcChallengeExpire (s : State) : Host.Outcome State Fault Refusal := .next (lcChallengeExpire s)

/-! ### Registers -/

/-- Whole seconds left in the grant. -/
def lcRemain (s : State) : Nat :=
  if s.lc.dbgOpen then (s.lc.openedAt.toNat + s.lc.grantFor.toNat * 1000000000 - s.now) / 1000000000 else 0

/-- Writes of LC_DBG_CTL: the fields first, then NEW, GRANT, LOCK in bit order. -/
def lcDbgCtl (s : State) (c : Cls) (v m : W64) : State :=
  if c ≠ .K then s
  else
    let s := s.setLc { s.lc with scope := mrg s.lc.scope 3 v m, purpose := mrgB s.lc.purpose 5 v m, duration := mrg s.lc.duration 16 v m }
    let s := if bit (v &&& m) 0 then lcDbgNew s c else s
    let s := if bit (v &&& m) 1 then lcDbgGrant s c else s
    if bit (v &&& m) 2 then lcDbgLock s c else s

/-- LC_STATE. -/
def State.lcState (s : State) : W64 :=
  let l := s.lc
  pack [(0, l.state.toNat), (4, l.otpState.toNat), (8, b2n l.session), (9, l.ticketsUsed.toNat), (14, l.unlocks.toNat), (21, b2n l.dbgOpen),
        (22, l.dbgScope.toNat), (24, b2n l.dbgSince), (25, b2n l.transSince), (26, s.bnd.testGate.toNat), (30, l.tokenFails.toNat)]

def capKHOI : Nat → Cls → State → Bool := caption [.K, .H, .O, .I]
def capKSHOI : Nat → Cls → State → Bool := caption [.K, .S, .H, .O, .I]

def lcRegs : List Reg :=
  [ { base := 0x0740000, allow := capKSHOI                                                                              -- LC_STATE
      get := fun _ _ s => s.lcState },
    { base := 0x0740008, allow := capKHOI                                                                               -- LC_SESSION
      get := fun _ _ s => pack [(1, b2n s.lc.sessBusy), (16, s.lc.sessStatus.toNat)]
      put := fun _ c v m s => if bit (v &&& m) 0 then lcSessionOpen s c else s },
    { base := 0x0740010, allow := capKHOI                                                                               -- LC_TRANS_CTL
      get := fun _ _ s => s.lc.target.setWidth 64
      put := fun _ c v m s =>
        let t := mrg s.lc.target 0 v m
        if bit (v &&& m) 4 then lcTransGo s c t else if c = .O ∨ ¬ s.lcWrites c then s else s.setLc { s.lc with target := t } },
    { base := 0x0740018, allow := capKHOI                                                                                -- LC_TRANS_STAT
      get := fun _ _ s => pack [(0, b2n s.lc.trBusy), (1, s.lc.trPhase.toNat), (16, s.lc.trStatus.toNat)] },
    { base := 0x0740020, stride := 8, count := 4, allow := capK, get := fun _ _ _ => 0                                  -- LC_TOKEN
      put := fun i _ v m s => s.setLc { s.lc with token := putField s.lc.token (64 * i) 64 (mrg (field s.lc.token (64 * i) 64) 0 v m) } },
    { base := 0x0740040, allow := capKSO                                                                                -- LC_DBG_CTL
      get := fun _ _ s => pack [(3, s.lc.scope.toNat), (5, b2n s.lc.purpose), (16, s.lc.duration.toNat)]
      put := fun _ c v m s => lcDbgCtl s c v m },
    { base := 0x0740048, allow := capKSO                                                                                -- LC_DBG_STAT
      get := fun _ _ s => pack [(0, s.lc.dbgStatus.toNat), (16, b2n (s.chalLive 1 || s.chalLive 2)), (32, lcRemain s)] } ]

def lcWindows : List Window :=
  [ { base := 0x0740080, span := 0x60, allow := capKSHO                                                                 -- LC_DBG_CHAL
      get := fun _ o n _ s =>
        let r := match s.lc.chal with | some c => if s.chalLive 1 || s.chalLive 2 then c.record else 0 | none => 0
        (List.range n).map fun i => field r (8 * (o + i)) 8 } ]

end Sys2Proof.Machine
end

