-- ==== Sys2Proof/Machine/Lattice.lean ====
section
/-! DEFINITION. The lattice sets of the public-key engine: ML-KEM-768 and ML-KEM-1024 as FIPS 203 defines them, ML-DSA-65 and ML-DSA-87 as
FIPS 204 defines them (R333 to R336, R354). Polynomials are lists of 256 residues. The sampling loops read a bounded stream (log entry 15). -/
namespace Sys2Proof.Machine

/-! ### Residues, bit packing, number-theoretic transform -/

def addQ (q a b : Nat) : Nat := (a + b) % q
def subQ (q a b : Nat) : Nat := (a + (q - b % q)) % q
abbrev Poly := List Nat
def Poly.add (q : Nat) (f g : Poly) : Poly := List.zipWith (addQ q) f g
def Poly.sub (q : Nat) (f g : Poly) : Poly := List.zipWith (subQ q) f g
def Poly.zero : Poly := List.replicate 256 0

/-- `b ^ e mod q` for `e` below 2 ^ 16. -/
def zetaPow (b e q : Nat) : Nat := (List.range 16).foldl (fun a i => let a := a * a % q; if e.testBit (15 - i) then a * b % q else a) 1
/-- The `n` low bits of `v` in reverse. -/
def bitRev (n v : Nat) : Nat := (List.range n).foldl (fun a i => 2 * a + (if v.testBit i then 1 else 0)) 0

/-- `l` layers of the transform below tree node `n` (the root is 1): node `n` uses the root of unity with exponent `bitRev bits n`. -/
def nttFrom (q root bits : Nat) : Nat → Nat → Poly → Poly
  | 0, _, f => f
  | l + 1, n, f =>
    let h := f.length / 2
    let z := zetaPow root (bitRev bits n) q
    let t := (f.drop h).map fun x => z * x % q
    nttFrom q root bits l (2 * n) (Poly.add q (f.take h) t) ++ nttFrom q root bits l (2 * n + 1) (Poly.sub q (f.take h) t)

/-- Undo `l` layers, up to the factor 2 ^ l. `order` is the order of the root of unity. -/
def unttFrom (q root bits order : Nat) : Nat → Nat → Poly → Poly
  | 0, _, f => f
  | l + 1, n, f =>
    let h := f.length / 2
    let z := zetaPow root (order - bitRev bits n) q
    let a := unttFrom q root bits order l (2 * n) (f.take h)
    let b := unttFrom q root bits order l (2 * n + 1) (f.drop h)
    Poly.add q a b ++ (Poly.sub q a b).map fun x => z * x % q

/-- The value of bytes, the first lowest. -/
def natOf (bs : List Byte) : Nat := bs.foldr (fun b a => b.toNat + 256 * a) 0
def numBytes : Nat → Nat → List Byte
  | 0, _ => []
  | n + 1, v => BitVec.ofNat 8 v :: numBytes n (v / 256)
/-- ByteEncode and SimpleBitPack: `d` bits a coefficient. -/
def packBits (d : Nat) (f : Poly) : List Byte := numBytes (d * f.length / 8) (f.foldr (fun x a => x + 2 ^ d * a) 0)
/-- The inverse, for `n` coefficients. -/
def unpackBits (d n : Nat) (bs : List Byte) : Poly := let v := natOf bs; (List.range n).map fun i => v >>> (d * i) % 2 ^ d

/-- Triples of a byte stream. -/
def triples : List Byte → List (Nat × Nat × Nat)
  | a :: b :: c :: r => (a.toNat, b.toNat, c.toNat) :: triples r
  | _ => []
/-- The first 256 accepted values; a stream that runs dry leaves zeros. -/
def first256 (l : List Nat) : Poly := l.take 256 ++ List.replicate (256 - l.length) 0
/-- Chunks of `n`, `k` of them. -/
def chunksOf {α : Type} (n : Nat) : Nat → List α → List (List α)
  | 0, _ => []
  | k + 1, l => l.take n :: chunksOf n k (l.drop n)

/-! ### ML-KEM (FIPS 203) -/

def kq : Nat := 3329
/-- k of the parameter set; eta1 and eta2 are 2 in both. -/
def kemK (set : Nat) : Nat := if set = 4 then 3 else 4
def kemDu (set : Nat) : Nat := if set = 4 then 10 else 11
def kemDv (set : Nat) : Nat := if set = 4 then 4 else 5
def kemNtt (f : Poly) : Poly := nttFrom kq 17 7 7 1 f
/-- 3303 is the inverse of 128. -/
def kemUntt (f : Poly) : Poly := (unttFrom kq 17 7 256 7 1 f).map fun x => 3303 * x % kq

/-- Products of pairs modulo X^2 - gamma (algorithms 11 and 12). -/
def kemMulPairs : Nat → List Nat → List Nat → List Nat
  | i, a0 :: a1 :: f, b0 :: b1 :: g =>
    let gamma := zetaPow 17 (2 * bitRev 7 i + 1) kq
    ((a0 * b0 + a1 * b1 % kq * gamma) % kq) :: ((a0 * b1 + a1 * b0) % kq) :: kemMulPairs (i + 1) f g
  | _, _, _ => []
def kemMul (f g : Poly) : Poly := kemMulPairs 0 f g
/-- The sum of the products of two vectors. -/
def kemDot (f g : List Poly) : Poly := (List.zipWith kemMul f g).foldl (Poly.add kq) Poly.zero

/-- SampleNTT (algorithm 7). -/
def kemSampleNtt (seed : List Byte) : Poly :=
  first256 (((triples (shake128 seed 1680)).flatMap fun t => [t.1 + 256 * (t.2.1 % 16), t.2.1 / 16 + 16 * t.2.2]).filter (· < kq))
/-- SamplePolyCBD with eta = 2 (algorithm 8), of PRF(seed, n). -/
def kemCbd (seed : List Byte) (n : Nat) : Poly :=
  (unpackBits 4 256 (shake256 (seed ++ [BitVec.ofNat 8 n]) 128)).map fun v => subQ kq (v % 2 + v / 2 % 2) (v / 4 % 2 + v / 8)
/-- The matrix of a seed, by rows; `tr` transposes it. -/
def kemMatrix (k : Nat) (rho : List Byte) (tr : Bool) : List (List Poly) :=
  (List.range k).map fun i => (List.range k).map fun j => kemSampleNtt (rho ++ (if tr then [BitVec.ofNat 8 i, BitVec.ofNat 8 j] else [BitVec.ofNat 8 j, BitVec.ofNat 8 i]))
def kemCompress (d x : Nat) : Nat := (2 ^ (d + 1) * x + kq) / (2 * kq) % 2 ^ d
def kemDecompress (d y : Nat) : Nat := (2 * kq * y + 2 ^ d) / 2 ^ (d + 1)

/-- K-PKE.KeyGen (algorithm 13): encryption key, and the secret vector in the transform domain. -/
def kemKeys (set : Nat) (d : List Byte) : List Byte × List Poly :=
  let k := kemK set
  let g := sha3_512 (d ++ [BitVec.ofNat 8 k])
  let rho := g.take 32
  let sigma := g.drop 32
  let s := (List.range k).map fun i => kemNtt (kemCbd sigma i)
  let e := (List.range k).map fun i => kemNtt (kemCbd sigma (k + i))
  let t := List.zipWith (fun row e => Poly.add kq (kemDot row s) e) (kemMatrix k rho false) e
  (t.flatMap (packBits 12) ++ rho, s)

/-- K-PKE.Encrypt (algorithm 14). -/
def kemEncrypt (set : Nat) (ek m r : List Byte) : List Byte :=
  let k := kemK set
  let t := (chunksOf 384 k ek).map (unpackBits 12 256)
  let y := (List.range k).map fun i => kemNtt (kemCbd r i)
  let e1 := (List.range k).map fun i => kemCbd r (k + i)
  let u := List.zipWith (fun row e => Poly.add kq (kemUntt (kemDot row y)) e) (kemMatrix k (ek.drop (384 * k)) true) e1
  let mu := (unpackBits 1 256 m).map (kemDecompress 1)
  let v := Poly.add kq (Poly.add kq (kemUntt (kemDot t y)) (kemCbd r (2 * k))) mu
  (u.flatMap fun f => packBits (kemDu set) (f.map (kemCompress (kemDu set)))) ++ packBits (kemDv set) (v.map (kemCompress (kemDv set)))

/-- K-PKE.Decrypt (algorithm 15). -/
def kemDecrypt (set : Nat) (s : List Poly) (c : List Byte) : List Byte :=
  let k := kemK set
  let u := (chunksOf (32 * kemDu set) k c).map fun b => kemNtt ((unpackBits (kemDu set) 256 b).map (kemDecompress (kemDu set)))
  let v := (unpackBits (kemDv set) 256 (c.drop (32 * kemDu set * k))).map (kemDecompress (kemDv set))
  packBits 1 ((Poly.sub kq v (kemUntt (kemDot s u))).map (kemCompress 1))

/-- The encapsulation key of (d, z). -/
def mlkemPublic (set : Nat) (dz : List Byte) : List Byte := (kemKeys set (dz.take 32)).1
/-- ML-KEM.Encaps_internal (algorithm 17): ciphertext and shared secret. -/
def mlkemEncaps (set : Nat) (ek m : List Byte) : List Byte × List Byte :=
  let g := sha3_512 (m ++ sha3_256 ek)
  (kemEncrypt set ek m (g.drop 32), g.take 32)
/-- ML-KEM.Decaps_internal (algorithm 18), with its implicit rejection. -/
def mlkemDecaps (set : Nat) (dz c : List Byte) : List Byte :=
  let key := kemKeys set (dz.take 32)
  let m := kemDecrypt set key.2 c
  let g := sha3_512 (m ++ sha3_256 key.1)
  if kemEncrypt set key.1 m (g.drop 32) = c then g.take 32 else shake256 (dz.drop 32 ++ c) 32

/-! ### ML-DSA (FIPS 204) -/

def dq : Nat := 8380417
/-- The parameters that differ between the sets (table 1). -/
structure DsaSet where
  k : Nat
  l : Nat
  eta : Nat
  tau : Nat
  ctilde : Nat                        -- bytes of the commitment hash
  beta : Nat
  omega : Nat
def dsaSet (set : Nat) : DsaSet :=
  if set = 2 then { k := 6, l := 5, eta := 4, tau := 49, ctilde := 48, beta := 196, omega := 55 }
  else { k := 8, l := 7, eta := 2, tau := 60, ctilde := 64, beta := 120, omega := 75 }
def gamma1 : Nat := 2 ^ 19
def gamma2 : Nat := 261888
def dsaNtt (f : Poly) : Poly := nttFrom dq 1753 8 8 1 f
/-- 8347681 is the inverse of 256. -/
def dsaUntt (f : Poly) : Poly := (unttFrom dq 1753 8 512 8 1 f).map fun x => 8347681 * x % dq
def dsaMul (f g : Poly) : Poly := List.zipWith (fun a b => a * b % dq) f g
def dsaDot (f g : List Poly) : Poly := (List.zipWith dsaMul f g).foldl (Poly.add dq) Poly.zero
/-- The absolute value of the representative nearest to zero. -/
def dsaAbs (x : Nat) : Nat := min x (dq - x)
def dsaNorm (v : List Poly) : Nat := v.foldl (fun m f => f.foldl (fun m x => max m (dsaAbs x)) m) 0

/-- RejNTTPoly (algorithm 30). -/
def dsaSampleNtt (seed : List Byte) : Poly := first256 (((triples (shake128 seed 1008)).map fun t => t.1 + 256 * t.2.1 + 65536 * (t.2.2 % 128)).filter (· < dq))
/-- ExpandA (algorithm 32), by rows. -/
def dsaMatrix (p : DsaSet) (rho : List Byte) : List (List Poly) :=
  (List.range p.k).map fun r => (List.range p.l).map fun s => dsaSampleNtt (rho ++ [BitVec.ofNat 8 s, BitVec.ofNat 8 r])
/-- RejBoundedPoly (algorithm 31). -/
def dsaSampleBounded (eta : Nat) (seed : List Byte) : Poly :=
  first256 ((((shake256 seed 544).flatMap fun b => [b.toNat % 16, b.toNat / 16]).filter fun z => if eta = 2 then z < 15 else z < 9).map fun z => if eta = 2 then subQ dq 2 (z % 5) else subQ dq 4 z)
def twoBytes (n : Nat) : List Byte := numBytes 2 n
/-- Entry `n` of ExpandMask (algorithm 34). -/
def dsaMask (seed : List Byte) (n : Nat) : Poly := (unpackBits 20 256 (shake256 (seed ++ twoBytes n) 640)).map fun x => subQ dq gamma1 x

/-- SampleInBall (algorithm 29): place the signs `i` up to 255 with the bytes drawn. -/
def ballFrom : List Nat → Nat → List Byte → Poly → Poly
  | [], _, _, c => c
  | i :: is, signs, bs, c =>
    let r := bs.dropWhile fun b => i < b.toNat
    let j := (r.headD 0).toNat
    let c := c.set i (c.getD j 0)
    ballFrom is (signs / 2) (r.drop 1) (c.set j (if signs % 2 = 1 then dq - 1 else 1))
def dsaBall (p : DsaSet) (seed : List Byte) : Poly :=
  let h := shake256 seed 408
  ballFrom (List.range' (256 - p.tau) p.tau) (natOf (h.take 8)) (h.drop 8) Poly.zero

/-- Power2Round with d = 13 (algorithm 35): high part, and low part as a residue. -/
def dsaRound (r : Nat) : Nat × Nat := let r0 := r % 8192; if 4096 < r0 then ((r + 8192 - r0) / 8192, dq + r0 - 8192) else (r / 8192, r0)
/-- Decompose (algorithm 36): high part, and low part as an integer. -/
def dsaDecompose (r : Nat) : Nat × Int :=
  let m : Int := (r : Int) % (2 * gamma2 : Nat)
  let r0 : Int := if (gamma2 : Int) < m then m - (2 * gamma2 : Nat) else m
  if (r : Int) - r0 = (dq : Int) - 1 then (0, r0 - 1) else ((((r : Int) - r0) / (2 * gamma2 : Nat)).toNat, r0)
def dsaHigh (r : Nat) : Nat := (dsaDecompose r).1
/-- UseHint (algorithm 40). -/
def dsaUseHint (h : Bool) (r : Nat) : Nat :=
  let x := dsaDecompose r
  if ¬ h then x.1 else if 0 < x.2 then (x.1 + 1) % 16 else (x.1 + 15) % 16

/-- HintBitPack (algorithm 20). -/
def hintPack (omega : Nat) (h : List (List Bool)) : List Byte :=
  let pos := h.map fun f => (f.zipIdx.filter (·.1)).map fun e => BitVec.ofNat 8 e.2
  let ends := (h.foldl (fun (a : List Byte × Nat) f => let n := a.2 + f.countP id; (a.1 ++ [BitVec.ofNat 8 n], n)) ([], 0)).1
  pos.flatten ++ List.replicate (omega - pos.flatten.length) 0 ++ ends
/-- HintBitUnpack (algorithm 21); none for an encoding that is malformed. -/
def hintUnpack (omega : Nat) (y : List Byte) : Option (List (List Bool)) :=
  let ends := (y.drop omega).map (·.toNat)
  let starts := 0 :: ends
  let rising (l : List Nat) : Bool := (List.zipWith (fun a b => decide (a < b)) l (l.drop 1)).all id
  let runs := List.zipWith (fun a b => (((y.take omega).map (·.toNat)).take b).drop a) starts ends
  if ¬ (List.zipWith (fun a b => decide (a ≤ b) && decide (b ≤ omega)) starts ends).all id then none
  else if ¬ runs.all rising ∨ ¬ ((y.take omega).drop (ends.getLastD 0)).all (· = 0) then none
  else some (runs.map fun r => (List.range 256).map fun i => r.contains i)

/-- The key pair of a seed (algorithm 6): rho, K, s1, s2, t0 and the public key. -/
structure DsaKeys where
  matrix : List (List Poly)
  k : List Byte
  s1 : List Poly
  s2 : List Poly
  t0 : List Poly
  pub : List Byte
def dsaKeys (set : Nat) (xi : List Byte) : DsaKeys :=
  let p := dsaSet set
  let h := shake256 (xi ++ [BitVec.ofNat 8 p.k, BitVec.ofNat 8 p.l]) 128
  let a := dsaMatrix p (h.take 32)
  let seed := (h.drop 32).take 64
  let s1 := (List.range p.l).map fun r => dsaSampleBounded p.eta (seed ++ twoBytes r)
  let s2 := (List.range p.k).map fun r => dsaSampleBounded p.eta (seed ++ twoBytes (p.l + r))
  let s1n := s1.map dsaNtt
  let t := List.zipWith (fun row e => Poly.add dq (dsaUntt (dsaDot row s1n)) e) a s2
  { matrix := a, k := h.drop 96, s1 := s1, s2 := s2, t0 := t.map fun f => f.map fun x => (dsaRound x).2
    pub := h.take 32 ++ t.flatMap fun f => packBits 10 (f.map fun x => (dsaRound x).1) }

/-- The public key of a seed. -/
def mldsaPublic (set : Nat) (xi : List Byte) : List Byte := (dsaKeys set xi).pub

/-- One attempt of ML-DSA.Sign_internal (algorithm 7), with the transformed secrets: the signature unless it is rejected. -/
def dsaAttempt (p : DsaSet) (a : List (List Poly)) (s1 s2 t0 : List Poly) (mu seed : List Byte) (kappa : Nat) : Option (List Byte) :=
  let y := (List.range p.l).map fun r => dsaMask seed (kappa + r)
  let yn := y.map dsaNtt
  let w := a.map fun row => dsaUntt (dsaDot row yn)
  let ct := shake256 (mu ++ w.flatMap fun f => packBits 4 (f.map dsaHigh)) p.ctilde
  let c := dsaNtt (dsaBall p ct)
  let z := List.zipWith (fun y s => Poly.add dq y (dsaUntt (dsaMul c s))) y s1
  let r := List.zipWith (fun w s => Poly.sub dq w (dsaUntt (dsaMul c s))) w s2
  let low := r.foldl (fun m f => f.foldl (fun m x => max m (dsaDecompose x).2.natAbs) m) 0
  if gamma1 - p.beta ≤ dsaNorm z ∨ gamma2 - p.beta ≤ low then none
  else
    let e := t0.map fun t => dsaUntt (dsaMul c t)
    let h := List.zipWith (fun r e => List.zipWith (fun r e => decide (dsaHigh (addQ dq r e) ≠ dsaHigh r)) r e) r e
    if gamma2 ≤ dsaNorm e ∨ p.omega < (h.map fun f => f.countP id).sum then none
    else some (ct ++ (z.flatMap fun f => packBits 20 (f.map fun x => subQ dq gamma1 x)) ++ hintPack p.omega h)

/-- Attempts until one is accepted: the signature and the attempts rejected before it. -/
def dsaAttempts (p : DsaSet) (a : List (List Poly)) (s1 s2 t0 : List Poly) (mu seed : List Byte) : Nat → Nat → List Byte × Nat
  | 0, n => ([], n)
  | m + 1, n => match dsaAttempt p a s1 s2 t0 mu seed (p.l * n) with
    | some sig => (sig, n)
    | none => dsaAttempts p a s1 s2 t0 mu seed m (n + 1)

/-- ML-DSA.Sign_internal of a representative with the randomness drawn, at most 256 attempts (R354). -/
def mldsaSign (set : Nat) (xi mu rnd : List Byte) : List Byte × Nat :=
  let p := dsaSet set
  let x := dsaKeys set xi
  dsaAttempts p x.matrix (x.s1.map dsaNtt) (x.s2.map dsaNtt) (x.t0.map dsaNtt) mu (shake256 (x.k ++ rnd ++ mu) 64) 256 0

/-- ML-DSA.Verify_internal of a representative (algorithm 8). -/
def mldsaVerify (set : Nat) (pub mu sig : List Byte) : Bool :=
  let p := dsaSet set
  let ct := sig.take p.ctilde
  let z := (chunksOf 640 p.l (sig.drop p.ctilde)).map fun b => (unpackBits 20 256 b).map fun x => subQ dq gamma1 x
  match hintUnpack p.omega (sig.drop (p.ctilde + 640 * p.l)) with
  | none => false
  | some h =>
    let t1 := (chunksOf 320 p.k (pub.drop 32)).map fun b => dsaNtt ((unpackBits 10 256 b).map (· * 8192 % dq))
    let c := dsaNtt (dsaBall p ct)
    let zn := z.map dsaNtt
    let w := List.zipWith (fun row t => dsaUntt (Poly.sub dq (dsaDot row zn) (dsaMul c t))) (dsaMatrix p (pub.take 32)) t1
    let w1 := List.zipWith (fun h f => List.zipWith dsaUseHint h f) h w
    dsaNorm z < gamma1 - p.beta && decide (shake256 (mu ++ w1.flatMap (packBits 4)) p.ctilde = ct)

end Sys2Proof.Machine
end

