-- ==== Sys2Proof/Machine/PkeMath.lean ====
section
/-! DEFINITION. The arithmetic of the public-key engine: the NIST curves (SP 800-186, FIPS 186-5), RSA verification (RFC 8017).
The lattice sets are in Machine/Lattice.lean. -/
namespace Sys2Proof.Machine

/-- `b ^ e mod m`, reading `n` bits of `e` from the top. -/
def modPow (b e m : Nat) : Nat → Nat → Nat
  | 0, acc => acc % m
  | n + 1, acc =>
    let acc := acc * acc % m
    modPow b e m n (if e.testBit n then acc * b % m else acc)

def powMod (b e m : Nat) : Nat := modPow (b % m) e m (e.log2 + 1) 1
/-- The inverse modulo a prime (Fermat). -/
def invMod (a p : Nat) : Nat := powMod a (p - 2) p
/-- `a - b mod p` for residues. -/
def subMod (a b p : Nat) : Nat := (a + (p - b % p)) % p

/-- A short Weierstrass curve with a = -3. -/
structure Curve where
  bytes : Nat
  p : Nat
  b : Nat
  n : Nat
  gx : Nat
  gy : Nat

def p256 : Curve :=
  { bytes := 32
    p := 0xffffffff00000001000000000000000000000000ffffffffffffffffffffffff
    b := 0x5ac635d8aa3a93e7b3ebbd55769886bc651d06b0cc53b0f63bce3c3e27d2604b
    n := 0xffffffff00000000ffffffffffffffffbce6faada7179e84f3b9cac2fc632551
    gx := 0x6b17d1f2e12c4247f8bce6e563a440f277037d812deb33a0f4a13945d898c296
    gy := 0x4fe342e2fe1a7f9b8ee7eb4a7c0f9e162bce33576b315ececbb6406837bf51f5 }

def p384 : Curve :=
  { bytes := 48
    p := 0xfffffffffffffffffffffffffffffffffffffffffffffffffffffffffffffffeffffffff0000000000000000ffffffff
    b := 0xb3312fa7e23ee7e4988e056be3f82d19181d9c6efe8141120314088f5013875ac656398d8a2ed19d2a85c8edd3ec2aef
    n := 0xffffffffffffffffffffffffffffffffffffffffffffffffc7634d81f4372ddf581a0db248b0a77aecec196accc52973
    gx := 0xaa87ca22be8b05378eb1c71ef320ad746e1d3b628ba79b9859f741e082542a385502f25dbf55296c3a545e3872760ab7
    gy := 0x3617de4a96262c6f5d9e98bf9292dc29f8f41dbd289a147ce9da3113b5f0b8c00a60b1ce1d7e819d7a431d7c90ea0e5f }

/-- A point: none is the point at infinity. -/
abbrev Point := Option (Nat × Nat)

def Curve.onCurve (c : Curve) (x y : Nat) : Bool := y * y % c.p = subMod (x * x % c.p * x % c.p + c.b) (3 * x % c.p) c.p

def Curve.add (c : Curve) : Point → Point → Point
  | none, q => q
  | q, none => q
  | some (x, y), some (u, v) =>
    if x = u ∧ (y ≠ v ∨ y = 0) then none
    else
      let l := if x = u then subMod (3 * x * x) 3 c.p * invMod (2 * y % c.p) c.p % c.p
               else subMod v y c.p * invMod (subMod u x c.p) c.p % c.p
      let z := subMod (subMod (l * l) x c.p) u c.p
      some (z, subMod (l * subMod x z c.p) y c.p)

/-- `k` times a point, `n` bits of `k` from the top. -/
def Curve.mulBits (c : Curve) (k : Nat) (q : Point) : Nat → Point → Point
  | 0, acc => acc
  | n + 1, acc =>
    let acc := c.add acc acc
    Curve.mulBits c k q n (if k.testBit n then c.add acc q else acc)

def Curve.mul (c : Curve) (k : Nat) (q : Point) : Point := c.mulBits k q (8 * c.bytes + 1) none
def Curve.g (c : Curve) : Point := some (c.gx, c.gy)

/-- Big-endian octets and numbers (R335). -/
def octets (n v : Nat) : List Byte := beBytes n (BitVec.ofNat (8 * n) v)
def number (bs : List Byte) : Nat := bs.foldl (fun a b => a * 256 + b.toNat) 0

/-- The private scalar of a seed (R336). -/
def Curve.scalar (c : Curve) (seed : List Byte) : Nat := number seed % (c.n - 1) + 1
/-- x ‖ y of a point. -/
def Curve.encode (c : Curve) : Point → List Byte
  | some (x, y) => octets c.bytes x ++ octets c.bytes y
  | none => List.replicate (2 * c.bytes) 0
/-- The public key of a scalar. -/
def Curve.pub (c : Curve) (d : Nat) : List Byte := c.encode (c.mul d c.g)
/-- The signature (r, s) of a digest under scalar `d` with per-message secret `k` (FIPS 186-5 6.4.1). -/
def Curve.sign (c : Curve) (d k : Nat) (e : List Byte) : Nat × Nat :=
  let r := match c.mul k c.g with | some (x, _) => x % c.n | none => 0
  (r, invMod k c.n * ((number e + r * d) % c.n) % c.n)
/-- FIPS 186-5 6.4.2. -/
def Curve.verify (c : Curve) (q : Nat × Nat) (r s : Nat) (e : List Byte) : Bool :=
  let w := invMod s c.n
  match c.add (c.mul (number e * w % c.n) c.g) (c.mul (r * w % c.n) (some q)) with
  | some (x, _) => x % c.n = r
  | none => false

/-- The signature verifies, its numbers in range and its key a point of the curve (R356, R359). -/
def Curve.accepts (c : Curve) (q : Nat × Nat) (r s : Nat) (e : List Byte) : Bool :=
  decide (0 < r ∧ r < c.n ∧ 0 < s ∧ s < c.n ∧ q.1 < c.p ∧ q.2 < c.p) && c.onCurve q.1 q.2 && c.verify q r s e

/-! ### RSA verification (RFC 8017) -/

/-- The DER prefix of DigestInfo for SHA-256 and SHA-384. -/
def digestInfo (sha384 : Bool) : List Byte :=
  if sha384 then [0x30, 0x41, 0x30, 0x0d, 0x06, 0x09, 0x60, 0x86, 0x48, 0x01, 0x65, 0x03, 0x04, 0x02, 0x02, 0x05, 0x00, 0x04, 0x30]
  else [0x30, 0x31, 0x30, 0x0d, 0x06, 0x09, 0x60, 0x86, 0x48, 0x01, 0x65, 0x03, 0x04, 0x02, 0x01, 0x05, 0x00, 0x04, 0x20]

/-- EMSA-PKCS1-v1_5 for a modulus of `k` bytes. -/
def pkcs1 (k : Nat) (sha384 : Bool) (h : List Byte) : List Byte :=
  let t := digestInfo sha384 ++ h
  [0x00, 0x01] ++ List.replicate (k - t.length - 3) 0xFF ++ [0x00] ++ t

/-- MGF1 with SHA-384. -/
def mgf1 (seed : List Byte) (n : Nat) : List Byte :=
  ((List.range ((n + 47) / 48)).flatMap fun i => sha384 (seed ++ octets 4 i)).take n

/-- EMSA-PSS verification with SHA-384 and a 48-byte salt of a message encoded in `bits` bits, one less than the modulus has: the bits of its
first byte above them are zero, and are cleared of the unmasked block. -/
def pssVerify (bits : Nat) (em h : List Byte) : Bool :=
  let k := (bits + 7) / 8
  let low : Byte := BitVec.ofNat 8 (2 ^ (8 - (8 * k - bits)) - 1)
  let db := em.take (k - 49)
  let hh := (em.drop (k - 49)).take 48
  let mask := mgf1 hh (k - 49)
  let m := (List.zipWith (· ^^^ ·) db mask)
  let m := match m with | b :: r => (b &&& low) :: r | [] => []
  let pad := k - 98
  em.getLast? = some 0xBC && (match db with | b :: _ => b &&& ~~~low = 0 | [] => false) && (m.take pad).all (· = 0) && m[pad]? = some 0x01 &&
  decide (sha384 (List.replicate 8 0 ++ h ++ m.drop (pad + 1)) = hh)

/-- RSA verification with exponent 65537 in a scheme (R337). -/
def rsaVerify (k scheme : Nat) (modulus sig : Nat) (h : List Byte) : Bool :=
  let m := powMod sig 65537 modulus
  if scheme = 2 then
    -- modulus bits less one; a representative that does not fit their bytes is inconsistent
    let bits := Nat.log2 modulus
    let n := (bits + 7) / 8
    decide (m < 2 ^ (8 * n)) && pssVerify bits (octets n m) h
  else decide (octets k m = pkcs1 k (scheme = 1) h)

end Sys2Proof.Machine
end

