-- ==== Sys2Proof/Machine/Pke.lean ====
section
/-! DEFINITION. The public-key engine: order of work, checks, timed schedules, holders, clearing (R333 to R366). -/
namespace Sys2Proof.Machine

/-! ### Sets and sizes (R333, R334) -/

/-- The functions of a set, by opcode bits 3:0. -/
def pkeOffers (set fn : Nat) : Bool :=
  match set with
  | 0 | 1 => [0, 1, 2, 3, 6].contains fn
  | 2 | 3 => [0, 1, 2].contains fn
  | 4 | 5 => [3, 4, 5].contains fn
  | 6 | 7 => fn = 1
  | _ => false

def pkePub (set : Nat) : Nat := [64, 96, 1952, 2592, 1184, 1568, 384, 512].getD set 0
def pkeSig (set : Nat) : Nat := [64, 96, 3309, 4627, 0, 0, 384, 512].getD set 0
def pkeCt (set : Nat) : Nat := if set = 4 then 1088 else 1568
def pkeSecret (set : Nat) : Nat := if set = 1 then 48 else 32
/-- Bytes of the message representative, by scheme for RSA. -/
def pkeRep (set scheme : Nat) : Nat :=
  match set with | 0 => 32 | 1 => 48 | 2 | 3 => 64 | _ => if scheme = 0 then 32 else 48
/-- The seed slot has the length of R334. -/
def pkeSeedLen (set : Nat) (len : BitVec 2) : Bool :=
  match set with | 0 => len = 1 || len = 2 | 1 => len = 2 | _ => len = 0
def pkeCurve (set : Nat) : Curve := if set = 0 then p256 else p384

/-- CORE_CLK cycles of a timed schedule (R353, R354). -/
def pkeCycles (set fn k : Nat) : Nat :=
  match set, fn with
  | 0, 0 => 1470000 | 0, 1 => 1260000 | 0, _ => 1365000
  | 1, 0 => 3780000 | 1, 1 => 3045000 | 1, 6 => 3570000 | 1, _ => 3465000
  | 2, 0 => 315000 + 231000 * k | 2, 1 => 283500 | 2, _ => 157500
  | 3, 0 => 441000 + 325500 * k | 3, 1 => 399000 | 3, _ => 220500
  | 4, 3 => 63000 | 4, 4 => 73500 | 4, _ => 84000
  | 5, 3 => 94500 | 5, 4 => 105000 | 5, _ => 126000
  | 6, _ => 546000
  | _, _ => 945000

/-- CORE_CLK cycles of a constant load (R352). -/
def pkeConst (set : Nat) : Nat := [512, 768, 1024, 1024, 512, 512, 0, 0].getD set 0
/-- Nanoseconds of a number of CORE_CLK cycles at 1.05 GHz. -/
def cyclesNs (c : Nat) : Nat := (c * 20 + 20) / 21

/-! ### Descriptor fields (R343) -/

def Desc.pkeSet (d : Desc) : Nat := (Desc.argField d 0 4).toNat
def Desc.pkeFn (d : Desc) : Nat := (field (Desc.opcode d) 0 4).toNat
def Desc.skey (d : Desc) : Nat := (Desc.argField d 8 8).toNat
def Desc.holder (d : Desc) : Nat := (Desc.argField d 16 3).toNat
def Desc.scheme (d : Desc) : Nat := (Desc.argField d 19 2).toNat
def Desc.src2 (d : Desc) : W64 := Desc.argField d 64 64

/-- Input operands with their sizes, in the order SRC0, SRC1, SRC2. -/
def pkeInputs (d : Desc) : List (W64 × Nat) :=
  let set := Desc.pkeSet d
  match Desc.pkeFn d with
  | 0 => [(Desc.src0 d, pkeRep set 0)]
  | 1 => [(Desc.src0 d, pkeRep set (Desc.scheme d)), (Desc.src1 d, pkePub set), (Desc.src2 d, pkeSig set)]
  | 4 => [(Desc.src0 d, pkePub set)]
  | 5 => [(Desc.src0 d, pkeCt set)]
  | 6 => [(Desc.src0 d, pkePub set)]
  | _ => []

/-- The output operand with its size. -/
def pkeOutputs (d : Desc) : List (W64 × Nat) :=
  let set := Desc.pkeSet d
  match Desc.pkeFn d with
  | 0 => [(Desc.dst d, pkeSig set)]
  | 2 | 3 => [(Desc.dst d, pkePub set)]
  | 4 => [(Desc.dst d, pkeCt set)]
  | _ => []

/-! ### Operand memory (R338, R339) -/

/-- Slot length in bits and slot count. -/
def slotBits (l : BitVec 3) : Nat := [256, 384, 512, 1024, 2048, 4096].getD l.toNat 4096
def slotCount (l : BitVec 3) : Nat := 1048576 / slotBits l
/-- Slots that `b` bytes occupy. -/
def slotSpan (l : BitVec 3) (b : Nat) : Nat := (8 * b + slotBits l - 1) / slotBits l
def slotOf (v : W64) : Nat := (field v 0 12).toNat
def isSlotForm (v : W64) : Bool := bit v 63 && bit v 62
def isSramForm (v : W64) : Bool := bit v 63 && !bit v 62

/-- The refusal of an operand form (R339, R344). -/
def pkeForm (s : State) (q : Nat) (v : W64) (n : Nat) : Option Status :=
  if ¬ bit v 63 then none
  else if isSramForm v then
    match qClass q with
    | .keeper => if (field v 0 20).toNat + n ≤ 524288 then none else some 0x0402
    | .steward => if (field v 0 20).toNat + n ≤ 1048576 then none else some 0x0402
    | _ => some 0x0402
  else if qClass q ≠ .keeper then some 0x0402
  else if slotCount s.pke.slotLen < slotOf v + slotSpan s.pke.slotLen n then some 0x0403 else none

/-- The bytes of an input; plain inputs come from the lines that were read. -/
def State.pkeRead (s : State) (f : Flight) (v : W64) (n : Nat) : List Byte :=
  if ¬ bit v 63 then spanBytes (s.ownOf (.cmd f.tag)) (field v 0 52).toNat n
  else if isSramForm v then s.coreRead f.queue v n
  else Mem.read 0 s.pke.mem (slotOf v * slotBits s.pke.slotLen / 8) n

/-- Write an output; a slot operand is filled with zeros to the end of its last slot (R339). -/
def State.pkeWrite (s : State) (f : Flight) (v : W64) (bs : List Byte) : State :=
  if ¬ bit v 63 then s.plainOut f.tag (field v 0 52).toNat bs
  else if isSramForm v then s.coreWrite f.queue v bs
  else
    let w := slotBits s.pke.slotLen / 8
    let pad := slotSpan s.pke.slotLen bs.length * w - bs.length
    { s with pke := { s.pke with mem := Mem.write 0 s.pke.mem (slotOf v * w) (bs ++ List.replicate pad 0) } }

/-- Window byte `o` belongs to a slot that the running operation names (R341). -/
def State.pkeNamed (s : State) (o : Nat) : Bool :=
  match s.pke.run with
  | none => false
  | some t => match s.cmd.flight t with
    | none => false
    | some f => (pkeInputs f.desc ++ pkeOutputs f.desc).any fun e =>
        let w := slotBits s.pke.slotLen / 8
        isSlotForm e.1 && slotOf e.1 * w ≤ o && o < (slotOf e.1 + slotSpan s.pke.slotLen e.2) * w

/-! ### Accessors -/

def State.setPke (s : State) (p : Pke) : State := { s with pke := p }
def Pke.holder (p : Pke) (h : Nat) : PkeHolder := SMap.get {} p.holders h
/-- Store a holder; one whose parts are both empty has no owner (R349). -/
def Pke.setHolder (p : Pke) (h : Nat) (x : PkeHolder) : Pke :=
  { p with holders := SMap.set {} p.holders h (if x.kemFull ∨ x.dhFull then x else {}) }

/-- Codes hidden from callers other than Keeper (R358, R298). -/
def pkeHidden : List Status := [0x0406, 0x0407, 0x0408, 0x0409, 0x040A, 0x040B] ++ keyHidden

/-- Waiting operations: dispatched, not taken up. -/
def State.pkeWaiting (s : State) : List Flight :=
  s.cmd.flights.filter fun f => (Desc.opcode f.desc).toNat / 16 = 3 && Desc.pkeFn f.desc ≠ 8 && !f.started && s.pke.run ≠ some f.tag &&
    !(s.pke.after.any fun e => e.1 = f.tag)

/-- Start a clearing (R361); `after` completes when it ends. -/
def State.pkeClear (s : State) (after : List (Tag × Status × Option W64)) : State :=
  let s := match s.pke.run with | some t => s.ownUndo t | none => s
  s.setPke { s.pke with state := 2, phase := 0, run := none, outcome := none, wrote := false, seed := [], mem := [], constValid := 0, since := s.bnd.timebase, after := s.pke.after ++ after }

/-- The operation that is in its timed schedule (R353, R365). -/
def State.pkeTimed (s : State) : Option Flight :=
  if s.pke.state = 1 ∧ s.pke.phase = 2 then s.pke.run.bind s.cmd.flight else none

/-- The running operation completes. -/
def State.pkeDone (s : State) (f : Flight) (st : Status) (result : Option W64 := none) : State :=
  let p := { s.pke with cntOps := if st = 0 then s.pke.cntOps + 1 else s.pke.cntOps }
  let p := if p.run = some f.tag then { p with state := 0, phase := 0, run := none, outcome := none, wrote := false, seed := [] } else p
  ((s.ownEnd f.tag (st = 0)).setPke p).complete { f with work := if st = 0 then 1 else 0 } (hideFor f.queue pkeHidden st) result

/-! ### Checks (R351) -/

/-- Checks of the holder that a function names (R347, R348). -/
def pkeHolderCheck (s : State) (d : Desc) : Option Status :=
  let x := s.pke.holder (Desc.holder d)
  let set := Desc.pkeSet d
  let kem := set = 4 ∨ set = 5
  match Desc.pkeFn d with
  | 3 => if (if kem then x.kemFull else x.dhFull) ∨ ((x.kemFull ∨ x.dhFull) ∧ x.owner ≠ Desc.dom d) then some 0x0405 else none
  | 5 => if ¬ x.kemFull ∨ x.kemSet.toNat ≠ set ∨ x.owner ≠ Desc.dom d then some 0x0405 else none
  | 6 => if ¬ x.dhFull ∨ x.dhSet.toNat ≠ set ∨ x.owner ≠ Desc.dom d then some 0x0405 else none
  | _ => none

def pkeCheck (s : State) (f : Flight) : Option Status :=
  let d := f.desc
  let set := Desc.pkeSet d
  let fn := Desc.pkeFn d
  let seed := fn = 0 ∨ fn = 2
  let target := fn = 4 ∨ fn = 5 ∨ fn = 6
  if fn = 7 then (if (Desc.length d).toNat ≠ 0 then some 0x0404 else none)
  else firstFail ([
    if ¬ pkeOffers set fn then some 0x0401 else none,
    if (6 ≤ set ∧ Desc.scheme d = 3) ∨ (set < 6 ∧ Desc.scheme d ≠ 0) then some 0x0401 else none,
    if (Desc.length d).toNat ≠ 0 then some 0x0404 else none] ++
    (pkeInputs d ++ pkeOutputs d).map (fun e => pkeForm s f.queue e.1 e.2) ++ [
    if seed then s.skn.usable (Desc.skey d) (Desc.dom d) 3 engPke else none,
    if seed ∧ ¬ pkeSeedLen set (s.skn.slot (Desc.skey d)).len then some 0x0401 else none,
    if target ∧ ((attrCheck d).isSome ∨ (ownerCheck d).isSome ∨ attrLen d ≠ pkeSecret set) then some 0x0207 else none,
    if target then s.skn.targetRange (Desc.skey d) else none,
    pkeHolderCheck s d,
    if fn ≠ 1 ∧ ¬ s.skn.drbgReady 0 then some 0x020A else none])

/-- The operation to take up next (R350). -/
def State.pkeNext (s : State) : Option Flight :=
  let k := s.pkeWaiting.find? fun f => qClass f.queue = .keeper
  let o := s.pkeWaiting.find? fun f => qClass f.queue ≠ .keeper
  match k, o with
  | some k, some o => if 4 ≤ s.pke.keeperRun then some o else some k
  | some k, none => some k
  | none, o => o

/-- PKE_TAKE_UP: checks, then the reads of the seed and of plain inputs (R350, R351). A seed is read once, here, so that a later erase of its
slot leaves the operation its material (R281). -/
def pkeTakeUp (s : State) : State :=
  if s.pke.state ≠ 0 ∨ s.vent.pkeDarnPending then s
  else match s.pkeNext with
    | none => s
    | some f =>
      let others := s.pkeWaiting.any fun g => qClass g.queue ≠ .keeper
      let run := if qClass f.queue = .keeper ∧ others then s.pke.keeperRun + 1 else 0
      let s := (s.setPke { s.pke with state := 1, phase := 0, run := some f.tag, keeperRun := run, since := s.bnd.timebase }).worked (unitKind · = 9)
      match pkeCheck s f with
      | some st => s.pkeDone f st
      | none =>
        if Desc.pkeFn f.desc = 7 then (s.setPke (s.pke.setHolder (Desc.holder f.desc) {})).pkeDone f 0
        else
          let seed := if Desc.pkeFn f.desc = 0 ∨ Desc.pkeFn f.desc = 2 then (s.skn.slot (Desc.skey f.desc)).bytes else []
          let s := s.setPke { s.pke with phase := 1, seed := seed }
          (pkeInputs f.desc).foldl (fun s e => if bit e.1 63 then s else s.requestSpan (.cmd f.tag) 65 (field e.1 0 52).toNat e.2) s

/-! ### Timed schedules (R353 to R357) -/

/-- Coefficients of ByteDecode12. -/
def decode12 : List Byte → List Nat
  | a :: b :: c :: r => (a.toNat + 256 * (b.toNat % 16)) :: (b.toNat / 16 + 16 * c.toNat) :: decode12 r
  | _ => []

/-- Exactly `n` bytes. -/
def fitBytes (n : Nat) (bs : List Byte) : List Byte := bs.take n ++ List.replicate (n - bs.length) 0

/-- The refusal of a curve public key (R356). -/
def pointCheck (c : Curve) (x y : Nat) : Option Status :=
  if c.p ≤ x ∨ c.p ≤ y then some 0x0408 else if x = 0 ∧ y = 0 then some 0x040A else if ¬ c.onCurve x y then some 0x0409 else none

/-- The VERDICT pair (R359). -/
def verdict (ok : Bool) : W64 := if ok then 0xC3693C96 else 0xFFFF0000

/-- What the timed schedule of a function computes from its inputs; `rnd` are the bytes drawn from DRBG instance 0. -/
def pkeCompute (s : State) (d : Desc) (ins : List (List Byte)) (rnd : List Byte) : PkeOut :=
  let set := Desc.pkeSet d
  let fn := Desc.pkeFn d
  let c := pkeCurve set
  let a := ins.getD 0 []
  let b := ins.getD 1 []
  let g := ins.getD 2 []
  let seed := s.pke.seed
  let x := s.pke.holder (Desc.holder d)
  let time (k : Nat) : Nat := pkeCycles set fn k
  let pub := (number (b.take c.bytes), number (b.drop c.bytes))
  match fn with
  | 0 =>
    if set < 2 then
      let r := c.sign (c.scalar seed) (number rnd % (c.n - 1) + 1) a
      if r.1 = 0 ∨ r.2 = 0 then { status := 0x0406, cycles := time 0 }
      else { out := octets c.bytes r.1 ++ octets c.bytes r.2, result := some 0, cycles := time 0 }
    else
      let r := mldsaSign set seed a (rnd.take 32)
      if 255 < r.2 then { status := 0x040E, cycles := time 255 }
      else { out := fitBytes (pkeSig set) r.1, result := some (BitVec.ofNat 64 r.2), cycles := time r.2 }
  | 1 =>
    if set < 2 then
      let r := number (g.take c.bytes)
      let t := number (g.drop c.bytes)
      let bad := firstFail [if r = 0 ∨ t = 0 then some 0x0406 else none, if c.n ≤ r ∨ c.n ≤ t then some 0x0408 else none, pointCheck c pub.1 pub.2]
      match bad with
      | some st => { status := st, cycles := time 0 }
      | none => { result := some (verdict (c.verify pub r t a)), cycles := time 0 }
    else if set < 4 then { result := some (verdict (mldsaVerify set b a g)), cycles := time 0 }
    else
      let n := number b
      let t := number g
      let bad := firstFail [if n % 2 = 0 ∨ b.headD 0 = 0 then some 0x040B else none, if t = 0 then some 0x0406 else none,
        if t = 1 then some 0x0407 else none, if n ≤ t then some 0x0408 else none]
      match bad with
      | some st => { status := st, cycles := time 0 }
      | none => { result := some (verdict (rsaVerify (pkePub set) (Desc.scheme d) n t a)), cycles := time 0 }
  | 2 => { out := if set < 2 then c.pub (c.scalar seed) else fitBytes (pkePub set) (mldsaPublic set seed), cycles := time 0 }
  | 3 =>
    if set < 2 then
      let k := number rnd % (c.n - 1) + 1
      { out := c.pub k, holder := some { dhFull := true, dhSet := BitVec.ofNat 4 set, scalar := k, owner := Desc.dom d }, cycles := time 0 }
    else
      { out := fitBytes (pkePub set) (mlkemPublic set (rnd.take 64)),
        holder := some { kemFull := true, kemSet := BitVec.ofNat 4 set, dz := rnd.take 64, owner := Desc.dom d }, cycles := time 0 }
  | 4 =>
    if (decode12 (a.take (if set = 4 then 1152 else 1536))).any fun v => 3329 ≤ v then { status := 0x040B, cycles := time 0 }
    else
      let r := mlkemEncaps set a (rnd.take 32)
      { out := fitBytes (pkeCt set) r.1, secret := fitBytes 32 r.2, cycles := time 0 }
  | 5 => { secret := fitBytes 32 (mlkemDecaps set x.dz a), cycles := time 0 }
  | _ =>
    let peer := (number (a.take c.bytes), number (a.drop c.bytes))
    match pointCheck c peer.1 peer.2 with
    | some st => { status := st, cycles := time 0 }
    | none => match c.mul x.scalar (some peer) with
      | none => { status := 0x040A, cycles := time 0 }
      | some q => { secret := octets c.bytes q.1, cycles := time 0 }

/-- A holder part is zeroed when an operation that names it enters its timed schedule (R348). -/
def Pke.usePart (p : Pke) (d : Desc) : Pke :=
  let x := p.holder (Desc.holder d)
  match Desc.pkeFn d with
  | 5 => p.setHolder (Desc.holder d) { x with kemFull := false, kemSet := 0, dz := [] }
  | 6 => p.setHolder (Desc.holder d) { x with dhFull := false, dhSet := 0, scalar := 0 }
  | _ => p

/-- Every input is in working memory and the constants are loaded: the timed schedule begins (R351, R352). A DRBG that has failed since the
checks refuses the draw (R294). -/
def pkeSchedule (f : Flight) (s : State) : State :=
  if s.pke.run ≠ some f.tag ∨ s.pke.phase ≠ 1 ∨ ¬ s.ownDone (.cmd f.tag) then s
  else
    let d := f.desc
    let set := Desc.pkeSet d
    let s := if bit s.pke.constValid set then s else s.at (s.pke.since.toNat + cyclesNs (pkeConst set))
    let ins := (pkeInputs d).map fun e => s.pkeRead f e.1 e.2
    let draws := Desc.pkeFn d ≠ 1
    if draws ∧ ¬ s.skn.drbgReady 0 then s.pkeDone f 0x020A else
    let rnd := s.randomBytes 64
    let o := pkeCompute s d ins rnd
    let s := if draws then s.drbgUsed 64 else s
    (s.ownDrop (.cmd f.tag)).setPke { s.pke.usePart d with
      phase := 2, since := s.bnd.timebase, outcome := some o, constValid := if set < 6 then putBit s.pke.constValid set true else s.pke.constValid }

/-- The plain DST of a function that writes one. -/
def Desc.pkePlain (d : Desc) : Bool := (pkeOutputs d).any fun e => !bit e.1 63

/-- A holder with the part that a key generation fills (R347). -/
def PkeHolder.join (x h : PkeHolder) : PkeHolder :=
  if h.kemFull then { x with kemFull := true, kemSet := h.kemSet, dz := h.dz, owner := h.owner }
  else if h.dhFull then { x with dhFull := true, dhSet := h.dhSet, scalar := h.scalar, owner := h.owner } else x

/-- What refuses an operation at its end: a target that holds a key by then, a holder part filled or an owner set since the checks (R268,
R346, R347). -/
def State.pkeTaken (s : State) (d : Desc) : Option Status :=
  if Desc.pkeFn d = 3 then pkeHolderCheck s d
  else if (Desc.pkeFn d = 4 ∨ Desc.pkeFn d = 5 ∨ Desc.pkeFn d = 6) ∧ s.skn.locked (Desc.skey d) then some 0x0202 else none

/-- Write the outputs of a schedule that has ended, those for a plain DST apart, store its holder part or target, and complete its operation
(R346, R347, R351). -/
def State.pkeDeliver (s : State) (f : Flight) (o : PkeOut) : State :=
  let d := f.desc
  match s.pkeTaken d with
  | some st => s.pkeDone f st
  | none =>
    let s := match pkeOutputs d with
      | e :: _ => if bit e.1 63 then s.pkeWrite f e.1 o.out else s
      | [] => s
    let s := match o.holder with
      | some h => s.setPke (s.pke.setHolder (Desc.holder d) ((s.pke.holder (Desc.holder d)).join h))
      | none => s
    if Desc.pkeFn d = 4 ∨ Desc.pkeFn d = 5 ∨ Desc.pkeFn d = 6 then
      let y := (s.skn.slot (Desc.skey d)).fill (Desc.attr d) 6 o.secret
      (s.setSkn (s.skn.setSlot (Desc.skey d) y)).pkeDone f 0 (y.gen.setWidth 64)
    else s.pkeDone f 0 o.result

/-- PKE_COMPLETE: the schedule ends at its fixed time (R353 to R360). Outputs for a plain DST go out before that, at a first PKE_COMPLETE, so
that the record is written at the fixed time behind their answers (R351). One behind the end of an operation that a fence took out is late
and is counted (R99). -/
def pkeComplete (s : State) (fault : Bool) : State :=
  match s.pke.run, s.pke.outcome with
  | some t, some o =>
    match s.cmd.flight t with
    | none => s
    | some f =>
      if s.pke.phase ≠ 2 then s
      else if Desc.pkePlain f.desc ∧ o.status = 0 ∧ ¬ fault ∧ ¬ s.pke.wrote ∧ (s.pkeTaken f.desc).isNone then
        (match pkeOutputs f.desc with | e :: _ => s.pkeWrite f e.1 o.out | [] => s).setPke { s.pke with wrote := true }
      else if s.pke.wrote ∧ ¬ fault ∧ ¬ (s.ownDone (.cmd t) ∧ s.ownDone (.save t)) then s
      else
        let s := s.at (s.pke.since.toNat + cyclesNs o.cycles)
        let s := s.setPke { s.pke with since := s.bnd.timebase }
        if fault then ({ s with pke := { s.pke with cntFault := s.pke.cntFault + 1, faulted := true } }).pkeClear [(t, 0x040C, none)]
        else if o.status ≠ 0 then
          (s.setPke { s.pke with cntRefused := if o.status = 0x040E ∨ o.status = 0x0402 then s.pke.cntRefused else s.pke.cntRefused + 1 }).pkeDone f o.status
        else
          let s := if Desc.pkeFn f.desc = 1 ∧ o.result = some (verdict false) then s.setPke { s.pke with cntMismatch := s.pke.cntMismatch + 1 } else s
          s.pkeDeliver f o
  | _, _ => if s.pke.late then { s.setPke { s.pke with late := false } with cmd := { s.cmd with lateDiscarded := s.cmd.lateDiscarded + 1 } } else s

/-- An access of the running operation has been answered (R344). A refused read ends the operation (R351); a refused access to DST makes it
complete with PKE_SOURCE at its fixed time (R353). -/
def pkeAnswer (s : State) (f : Flight) (resp : Resp) : State :=
  if s.pke.run ≠ some f.tag ∨ resp = .ok then s
  else match s.pke.outcome with
    | some o =>
      -- reads of DST that are still out are not waited for, and its writes do not go out
      let own := if (s.ownOf (.cmd f.tag)).any (·.behind) then s.own.filter fun r => ¬ (r.purpose = .cmd f.tag ∧ r.behind) else s.own
      { s with own := own }.setPke { s.pke with outcome := some { o with status := 0x0402 } }
    | none => s.pkeDone f 0x0402

/-- PKE_CLEARING_END: every slot reads zero, no constants are valid, the stopped operations complete (R360, R363). A fault is reported on the
lane that serves logical number 0: the engine tests itself, and the rule names no lane (log entry 47). -/
def pkeClearingEnd (s : State) : State :=
  if s.pke.state ≠ 2 then s
  else
    let s := s.at (s.pke.since.toNat + cyclesNs 4096)
    let after := s.pke.after
    let faulted := s.pke.faulted
    let s := s.setPke { s.pke with state := 0, mem := [], constValid := 0, after := [], faulted := false, cntClear := s.pke.cntClear + 1 }
    let s := after.foldl (fun s e => match s.cmd.flight e.1 with
      | some f => s.complete f e.2.1 e.2.2
      | none => s) s
    if faulted then s.report 4 s.vent.pkeLane 0x040C else s

/-- PKE_ABORT (R364). -/
def pkeAbort (f : Flight) (s : State) : State :=
  let t := Desc.argField f.desc 0 9
  if (Desc.length f.desc).toNat ≠ 0 then s.complete f 0x0404
  else if f.started then s
  else if s.pke.run = some t then
    ({ s with cmd := s.cmd.setFlight { f with started := true } }).pkeClear [(t, 0x040D, none), (f.tag, 0, some 1)]
  else match s.pkeWaiting.find? fun g => g.tag = t with
    | some g => ((s.ownDrop (.cmd t)).complete g 0x040D).complete f 0 (some 0)
    | none => s.complete f 0 (some 0)

/-- A write of SLOT_LEN (R340). -/
def slotLenWrite (s : State) (c : Cls) (v : BitVec 3) : State :=
  if c ≠ .K then s
  else if v.toNat ≤ 5 ∧ s.pke.state = 0 ∧ s.pkeWaiting.isEmpty then (s.setPke { s.pke with slotLen := v }).pkeClear []
  else s.setPke { s.pke with err := true }

/-- Zero the holders that `p` chooses (R349). -/
def State.pkeZero (s : State) (p : PkeHolder → Bool) : State := s.setPke { s.pke with holders := s.pke.holders.filter fun e => ¬ p e.2 }

/-- A partition reset or bind-off of `d` (R349, R361, R364). -/
def State.pkeStopDom (s : State) (d : Nat) : State :=
  let s := s.pkeZero fun h => h.owner.toNat = d
  match s.pke.run with
  | none => s
  | some t => match s.cmd.flight t with
    | some f => if (Desc.dom f.desc).toNat = d then s.pkeClear [(t, St.cmdAborted, none)] else s
    | none => s

/-- The t0 of a warm reset: every holder is zeroed and a clearing starts (R349, R361). -/
def State.pkeWarm (s : State) : State :=
  (s.pkeZero fun _ => true).pkeClear []

def execPkeSign (tag : Tag) (s : State) : Host.Outcome State Fault Refusal := .next (s.withFlight tag 0x30 pkeSchedule)
def execPkeVerify (tag : Tag) (s : State) : Host.Outcome State Fault Refusal := .next (s.withFlight tag 0x31 pkeSchedule)
def execPkePubkey (tag : Tag) (s : State) : Host.Outcome State Fault Refusal := .next (s.withFlight tag 0x32 pkeSchedule)
def execPkeKeygen (tag : Tag) (s : State) : Host.Outcome State Fault Refusal := .next (s.withFlight tag 0x33 pkeSchedule)
def execPkeEncaps (tag : Tag) (s : State) : Host.Outcome State Fault Refusal := .next (s.withFlight tag 0x34 pkeSchedule)
def execPkeDecaps (tag : Tag) (s : State) : Host.Outcome State Fault Refusal := .next (s.withFlight tag 0x35 pkeSchedule)
def execPkeEcdh (tag : Tag) (s : State) : Host.Outcome State Fault Refusal := .next (s.withFlight tag 0x36 pkeSchedule)
def execPkeEphClear (tag : Tag) (s : State) : Host.Outcome State Fault Refusal :=
  .next (s.withFlight tag 0x37 fun f s => if s.pkeNext = some f then pkeTakeUp s else s)
def execPkeAbort (tag : Tag) (s : State) : Host.Outcome State Fault Refusal := .next (s.withFlight tag 0x38 pkeAbort)
def execPkeTakeUp (s : State) : Host.Outcome State Fault Refusal := .next (pkeTakeUp s)
def execPkeComplete (fault : Bool) (s : State) : Host.Outcome State Fault Refusal := .next (pkeComplete s fault)
def execPkeClearingEnd (s : State) : Host.Outcome State Fault Refusal := .next (pkeClearingEnd s)
def execPkeSlotLenWrite (cls : Cls) (value : BitVec 3) (s : State) : Host.Outcome State Fault Refusal := .next (slotLenWrite s cls value)

/-! ### Registers -/

def pkeRegs : List Reg :=
  [ { base := 0x0600000, allow := capKSHO                                                          -- PKE_CFG
      get := fun _ _ s =>
        let p := s.pke
        let up (i : Nat) : Bool := (s.vent.unitRec (unitOf 9 i)).state = 0
        pack [(0, p.slotLen.toNat), (3, slotCount p.slotLen), (16, b2n p.err), (17, s.vent.count 9 4), (20, b2n (up 4))]
      put := fun _ c v m s =>
        if c ≠ .K then s
        else
          let s := s.setPke { s.pke with err := w1cB s.pke.err 16 v m }
          if field m 0 3 = 0 then s else slotLenWrite s c (field v 0 3) },
    { base := 0x0600008, allow := capKSHO                                                          -- PKE_STAT
      get := fun _ _ s =>
        let p := s.pke
        let d : Desc := match p.run with | some t => ((s.cmd.flight t).map (·.desc)).getD 0 | none => 0
        pack [(0, p.state.toNat), (2, p.phase.toNat), (4, Desc.pkeSet d), (8, Desc.pkeFn d), (12, (p.run.getD 0).toNat), (21, p.constValid.toNat), (29, s.pkeWaiting.length)] },
    { base := 0x0600100, stride := 8, count := 8, allow := capKSO                                  -- PKE_EPH
      get := fun h _ s =>
        let x := s.pke.holder h
        pack [(0, b2n x.kemFull), (1, x.kemSet.toNat), (5, b2n x.dhFull), (6, x.dhSet.toNat), (10, x.owner.toNat)] },
    { base := 0x0600040, allow := capKSO, get := fun _ _ s => s.pke.cntOps.setWidth 64 },
    { base := 0x0600048, allow := capKSO, get := fun _ _ s => s.pke.cntRefused.setWidth 64 },
    { base := 0x0600050, allow := capKSO, get := fun _ _ s => s.pke.cntMismatch.setWidth 64 },
    { base := 0x0600058, allow := capKSO, get := fun _ _ s => s.pke.cntFault.setWidth 64 },
    { base := 0x0600060, allow := capKSO, get := fun _ _ s => s.pke.cntClear.setWidth 64 },
    { base := 0x0600068, allow := capKSO, get := fun _ _ s => s.pke.cntConflict.setWidth 64 } ]

/-- The access touches a slot that the running operation names. -/
def State.pkeConflict (s : State) (o n : Nat) : Bool := (List.range n).any fun i => s.pkeNamed (o + i)
def State.pkeCountConflict (s : State) (o n : Nat) : State :=
  if s.pke.state ≠ 2 ∧ s.pkeConflict o n then s.setPke { s.pke with cntConflict := s.pke.cntConflict + 1 } else s

def pkeWindows : List Window :=
  [ { base := 0x0620000, span := 0x20000, allow := capK
      get := fun _ o n _ s => (List.range n).map fun i => if s.pke.state = 2 ∨ s.pkeNamed (o + i) then 0 else SMap.get 0 s.pke.mem (o + i)
      onRead := fun _ o n _ s => s.pkeCountConflict o n
      put := fun _ o _ bs s =>
        if s.pke.state = 2 then s
        else
          let t := s.pkeCountConflict o bs.length
          t.setPke { t.pke with mem := bs.zipIdx.foldl (fun m b => if s.pkeNamed (o + b.2) then m else SMap.set 0 m (o + b.2) b.1) s.pke.mem } } ]

end Sys2Proof.Machine
end

