-- ==== Sys2Proof/Machine/Fumarole.lean ====
section
/-! DEFINITION. Fumarole: the counters and their strobe, the posts of chiplets and hub, sample and PC records (R592 to R614). -/
namespace Sys2Proof.Machine

def State.setFum (s : State) (x : Fum) : State := { s with fum := x }
def Fum.site (x : Fum) (n : Nat) : FumSite := SMap.get {} x.sites n
def Fum.setSite (x : Fum) (n : Nat) (y : FumSite) : Fum := { x with sites := SMap.set {} x.sites n y }

/-! ### Counters (R592) -/

def sumBits (l : List (BitVec 48)) : BitVec 48 := l.foldl (· + ·) 0

/-- The value of global counter `g` where another unit holds it. -/
def State.globalSource (s : State) (g : Nat) : Option (BitVec 48) :=
  let pick (l : List (BitVec 48)) (i : Nat) : Option (BitVec 48) := l[i]?
  if g ≤ 11 then some (sumBits (s.guard.slices.map fun e => (sliceCounters e.2).getD g 0))
  else if g ≤ 14 then pick [s.wg.cntChunk, s.wg.cntTagfail, s.wg.cntRollback] (g - 12)
  else if 16 ≤ g ∧ g ≤ 27 then some (sumBits (s.lnk.lanes.map fun e => e.2.counters.getD (g - 16) 0))
  else if 28 ≤ g ∧ g ≤ 30 then pick [s.dig.cntBlocks, s.dig.cntMismatch, s.dig.cntFault] (g - 28)
  else if 31 ≤ g ∧ g ≤ 36 then pick [s.pke.cntOps, s.pke.cntRefused, s.pke.cntMismatch, s.pke.cntFault, s.pke.cntClear, s.pke.cntConflict] (g - 31)
  else if 37 ≤ g ∧ g ≤ 44 then
    pick [s.re.cntRows, s.re.cntOverrun, s.re.cntFault, s.re.cntDrop, s.re.cntCalconv, s.re.cntKnot, s.re.cntAvs, s.re.cntEcc] (g - 37)
  else if 45 ≤ g ∧ g ≤ 48 then pick [s.gov.cntHold, s.gov.cntTrip, s.gov.cntVclip, s.gov.cntRailfault] (g - 45)
  else none

/-- The present value of counter `i` of the 1,280. -/
def State.fumValue (s : State) (i : Nat) : BitVec 48 := ((if i < 256 then s.globalSource i else none)).getD (s.fum.cnt i).value

/-- Counters fed by posts: site and integrator counters, and k = 13 and 14. -/
def fumPosted (i : Nat) : Bool := (128 ≤ i && i < 256) || (256 ≤ i && (i % 16 = 13 || i % 16 = 14))

/-- Latch counter `i`: VALUE, DELTA and the flags of R595. -/
def State.fumDelta (s : State) (i : Nat) : BitVec 48 × Bool :=
  match (if i < 256 then s.globalSource i else none) with
  | some v => (v - SMap.get 0 s.fum.base i, false)
  | none => ((s.fum.cnt i).delta, (s.fum.cnt i).resets)

/-- The values of counters whose deltas count from now (R596). -/
def State.fumBase (s : State) : SMap (BitVec 48) :=
  (List.range 49).foldl (fun m g => match s.globalSource g with | some v => SMap.set 0 m g v | none => m) []

/-- Deltas count from the present values, and the next latch is the first (R596). -/
def State.fumFirst (s : State) : State :=
  s.setFum { s.fum with base := s.fumBase, first := true, firstRow := s.row, accs := [], groupRow := []
                        cnts := SMap.mapVals {} s.fum.cnts fun _ c => { c with delta := 0, resets := false } }

/-! ### Sites and markers (R598 to R603) -/

/-- Sites of region `r` in the region map of the committed parameter page (R576). -/
def State.regionSites (s : State) (r : Nat) : BitVec 24 := field (SMap.get 0 s.re.paramNow (0x0C0 + r)) 0 24
/-- Regions whose map names site `n`. -/
def State.siteRegions (s : State) (n : Nat) : List Nat := (List.range 64).filter fun r => bit (s.regionSites r) n

/-- LOSS of a region post (R602). -/
def postLoss (v : W64) : BitVec 8 :=
  let nominal := (field v 0 32).toNat
  if nominal = 0 then 0 else BitVec.ofNat 8 (min 255 (256 * (nominal - (field v 32 32).toNat) / nominal))
/-- The region was stopped for the row. -/
def postStopped (v : W64) : Bool := field v 32 32 = 0 && field v 0 32 ≠ 0

/-- The partition that a marker names. -/
def markerDom (m : W128) : Nat := (field m 80 7).toNat
/-- The fields that make two markers equal (R599): STEP, LAYER, DOM and OPERATOR. -/
def markerKey (m : W128) : W128 := m &&& BitVec.ofNat 128 (0xFFFFFFFFFFFFFF + 0x7FFFFF * 2 ^ 64)

/-- Reset a counter in the present interval; `told`: its BOUNDARY stood in the latch of this cycle (R593, R595). -/
def State.fumReset (s : State) (i : Nat) (told : Bool := false) : State :=
  s.setFum { s.fum with cnts := SMap.set {} s.fum.cnts i { s.fum.cnt i with value := 0, resets := (s.fum.cnt i).resets || !told } }

/-- The highest LOSS of site `n`'s regions in the posts of the row so far, and whether one of them was stopped. -/
def State.siteLoss (s : State) (n : Nat) : BitVec 8 × Bool :=
  let vs := (s.siteRegions n).map fun r => SMap.get 0 s.fum.regionPost r
  (BitVec.ofNat 8 ((vs.map fun v => (postLoss v).toNat).foldl max 0), vs.any postStopped)

/-- The domain bit of a marker that names a partition. -/
def domBit (m : W128) : BitVec 64 := if markerDom m < 64 then ofBits 64 [markerDom m] else 0

/-- A site's current marker changes (R600, R603). -/
def State.markerChange (s : State) (n : Nat) (m : W128) : State :=
  let x := s.fum.site n
  let now := s.siteLoss n
  let loss := if x.loss.toNat < now.1.toNat then now.1 else x.loss
  let s := match x.marker with
    | some old =>
      let c (k : Nat) : List Byte := leBytes 6 (s.fum.cnt (128 + 4 * n + k)).value
      let flags : BitVec 16 := BitVec.ofNat 16 (2 + 4 * b2n (loss ≠ 0) + 8 * b2n (x.stopped || now.2))
      let rows := BitVec.ofNat 16 (min 65535 (s.row - x.began.toNat / 1000))
      s.sample (ringRecord (ringHeader s.bnd.timebase 1 0xFF flags rows n loss ++ markerBytes old ++ List.replicate 6 0 ++ c 0 ++ c 1 ++ c 2 ++ c 3 ++ leBytes 8 x.began))
    | none => s
  let told := decide (s.fum.latching = some n)
  let s := (List.range 4).foldl (fun s k => s.fumReset (128 + 4 * n + k) told) s
  let y := s.fum.site n
  s.setFum { s.fum.setSite n { y with marker := some m, began := s.bnd.timebase, loss := 0, stopped := false, doms := y.doms ||| domBit m } with latching := none }

/-- Announcements equal to the current marker go (R599). -/
def FumSite.dropMet (x : FumSite) : FumSite := { x with announces := x.announces.filter fun a => x.marker.map markerKey ≠ some (markerKey a.marker) }

/-- Insert an announcement in AHEAD order. -/
def announceIn (a : Announce) : List Announce → List Announce
  | [] => [a]
  | b :: l => if a.ahead.toNat < b.ahead.toNat then a :: b :: l else b :: announceIn a l

/-- A post is refused (R597). -/
def State.postRefused (s : State) (h : NocHdr) : State := (s.setFum { s.fum with postRefused := satAdd s.fum.postRefused 1 }).respond h .refused

/-- The post's site may use its domain (R43). -/
def State.postTrusted (s : State) (h : NocHdr) : Bool := h.dom = 65 || s.trusts h.site

/-- The intake's rule for a marker post refuses it (R597, R598). -/
def State.markerRefused (s : State) (h : NocHdr) (size : Nat) (d : W128) : Bool :=
  let dom := markerDom d
  decide (¬ s.postTrusted h ∨ size ≠ 16 ∨ 24 ≤ h.site.toNat ∨ field d 56 8 ≠ 0 ∨ field d 95 33 ≠ 0 ∨ (bit d 87 ↔ (field d 88 7 : BitVec 7) = 0) ∨ ¬ (dom < 64 ∨ dom = 65) ∨
    dom ≠ h.dom.toNat ∨ (dom < 64 ∧ (s.part dom).state ≠ .running))

/-- A post that is not refused changes its site's current marker. -/
def State.markerNew (s : State) (h : NocHdr) (d : W128) : Bool := !bit d 87 && decide ((s.fum.site h.site.toNat).marker.map markerKey ≠ some (markerKey d))

/-- MARKER_POST (R598 to R600). -/
def markerPost (s : State) (h : NocHdr) (size : Nat) (d : W128) : State :=
  let n := h.site.toNat
  if s.markerRefused h size d then s.postRefused h
  else
    let s :=
      if bit d 87 then
        let x := s.fum.site n
        if 4 ≤ x.announces.length then s.setFum { s.fum with annDropped := satAdd s.fum.annDropped 1 }
        else s.setFum (s.fum.setSite n { x with announces := announceIn { marker := d, ahead := field d 88 7 } x.announces })
      else if s.markerNew h d then s.markerChange n d
      else s
    (s.setFum (s.fum.setSite n (s.fum.site n).dropMet)).respond h .ok

/-- SITE_ADD: site counter c of SRC_SITE, and k = 13 or 14 of the partition that the site's marker names. -/
def siteAddPost (s : State) (h : NocHdr) (c size : Nat) (d : W64) : State :=
  let n := h.site.toNat
  if ¬ s.postTrusted h ∨ size ≠ 8 ∨ 24 ≤ n then s.postRefused h
  else
    let v := (field d 0 48).toNat
    let s := s.bump (128 + 4 * n + c) v
    let s := match (s.fum.site n).marker with
      | some m => if c < 2 then s.pcount (markerDom m) (13 + c) v else s
      | none => s
    s.respond h .ok

/-- Drop a PC record: count it; the first drop after an accepted one appends an event (R608, R609, R625; log entry 25). -/
def State.pcDrop (s : State) (full : Bool) : State :=
  let x := s.fum
  let s' := (s.setFum { x with pcLost := x.pcLost + 1, pcDropping := true, pcGap := x.pcGap || full }).bump 56 1
  if x.pcDropping then s' else s'.log (if full then 0x0D000081 else 0x0D000082)

/-- Records of the PC ring. -/
def pcSize : Nat := 4194304

def Fum.pcPush (x : Fum) (r : W128) (t : W64) : Fum :=
  { x with pcRing := SMap.set 0 x.pcRing x.pcProd.toNat r, pcProd := ringNext pcSize x.pcProd, pcUsed := x.pcUsed + 1, pcLast := t }

/-- PC_SAMPLE_POST (R609). -/
def pcPost (s : State) (h : NocHdr) (size : Nat) (d : W64) : State :=
  let n := h.site.toNat
  if ¬ s.postTrusted h ∨ size ≠ 8 ∨ 24 ≤ n ∨ field d 59 5 ≠ 0 then s.postRefused h
  else if ¬ s.fum.pcEn then s.respond h .ok
  else
    let x := s.fum
    let y := x.site n
    if 16 ≤ y.pcRow then (s.pcDrop false).respond h .ok
    else
      let t := s.bnd.timebase
      let anchor : Bool := x.pcGap || decide (2 ^ 32 ≤ (t - x.pcLast).toNat)
      if pcSize < x.pcUsed + 1 + b2n anchor then (s.pcDrop true).respond h .ok
      else
        let x := if anchor then x.pcPush (BitVec.ofNat 128 (t.toNat + 2 ^ 124)) t else x
        let loss := (s.siteLoss n).1.toNat
        let dom := match y.marker with | some m => markerDom m | none => 127
        let r : W128 := BitVec.ofNat 128 (packN [(0, (t - x.pcLast).toNat), (32, n), (37, (field d 52 7).toNat), (44, (field d 48 4).toNat),
          (48, (field d 0 48).toNat), (96, dom), (103, b2n (loss ≠ 0)), (104, loss)])
        let x := { x.pcPush r t with pcGap := false, pcDropping := false }
        ((s.setFum (x.setSite n { y with pcRow := y.pcRow + 1 })).bump 55 1).respond h .ok

/-- REGION_CYCLES_POST (R602). -/
def regionPost (s : State) (h : NocHdr) (r size : Nat) (d : W64) : State :=
  if h.site ≠ 30 ∨ size ≠ 8 then s.postRefused h
  else (s.setFum { s.fum with regionPost := SMap.set 0 s.fum.regionPost r d }).respond h .ok

/-- INT_ADD_POST (R597). -/
def intAddPost (s : State) (h : NocHdr) (i size : Nat) (d : W64) : State :=
  if h.site ≠ 30 ∨ size ≠ 8 then s.postRefused h
  else (s.bump (224 + i) (field d 0 48).toNat).respond h .ok

def execMarkerPost (h : NocHdr) (size : BitVec 7) (data : W128) (s : State) : Host.Outcome State Fault Refusal := .next (s.posted h 0x0790000 fun s => markerPost s h size.toNat data)
def execSiteAddPost (h : NocHdr) (counter : BitVec 2) (size : BitVec 7) (data : W64) (s : State) : Host.Outcome State Fault Refusal :=
  .next (s.posted h 0x0790100 fun s => siteAddPost s h counter.toNat size.toNat data)
def execPcSamplePost (h : NocHdr) (size : BitVec 7) (data : W64) (s : State) : Host.Outcome State Fault Refusal := .next (s.posted h 0x0790200 fun s => pcPost s h size.toNat data)
def execRegionCyclesPost (h : NocHdr) (region : BitVec 6) (size : BitVec 7) (data : W64) (s : State) : Host.Outcome State Fault Refusal :=
  .next (s.posted h 0x0790400 fun s => regionPost s h region.toNat size.toNat data)
def execIntAddPost (h : NocHdr) (counter : BitVec 5) (size : BitVec 7) (data : W64) (s : State) : Host.Outcome State Fault Refusal :=
  .next (s.posted h 0x0790600 fun s => intAddPost s h counter.toNat size.toNat data)

/-! ### The strobe (R592 to R596, R602 to R607, R613, R614) -/

/-- Publication word `w` (0 to 255) as committed. -/
def State.pubWord (s : State) (w : Nat) : W64 := SMap.get 0 s.re.committed (0x100 + w)

/-- The site whose marker the MARKER_POST directly behind the tick in the queue changes: that post comes in the latching cycle (R593, R600; log
entry 25). -/
def State.latchPost (s : State) : Option Nat :=
  match s.pending with
  | .markerPost h size d :: _ =>
    if ¬ hdrBarred h ∧ s.reaches (.C h.site false) 0x0790000 ∧ ¬ s.markerRefused h size.toNat d ∧ s.markerNew h d then some h.site.toNat else none
  | _ => none

/-- A reset in the latching cycle shows BOUNDARY in its latch, and changes the value behind it (R593, R595). -/
def State.fumLatching (s : State) : State :=
  let c := match s.latchPost with
    | some n => (List.range 4).foldl (fun m k => SMap.set {} m (128 + 4 * n + k) { s.fum.cnt (128 + 4 * n + k) with resets := true }) s.fum.cnts
    | none => s.fum.cnts
  s.setFum { s.fum with cnts := c, latching := s.latchPost }

/-- Increments that the row brings at its end: ENERGY and the rows in which a marker names the partition. -/
def State.fumRowEnd (s : State) : State :=
  (List.range 64).foldl (fun s d =>
    let p := s.pubWord (0xC0 + d)
    let named := s.fum.sites.any fun e => bit e.2.doms d
    let s := if p = 0 then s else s.pcount d 12 p.toNat
    if named then s.pcount d 15 else s) s

/-- Latch every counter. -/
def State.fumLatch (s : State) : State :=
  let x := s.fum
  let idx := List.range 1280
  let ds := idx.map fun i => (i, s.fumDelta i)
  let word (i : Nat) (d : BitVec 48 × Bool) : W64 := pack [(0, d.1.toNat), (48, b2n x.first), (49, b2n d.2), (50, b2n (fumPosted i))]
  s.setFum { x with
    latched := idx.foldl (fun m i => SMap.set 0 m i (s.fumValue i)) []
    deltas := ds.foldl (fun m e => SMap.set 0 m e.1 (word e.1 e.2)) []
    accs := ds.foldl (fun m e => let a := SMap.get {} m e.1; SMap.set {} m e.1 { delta := a.delta + e.2.1, resets := a.resets || e.2.2 }) x.accs
    base := s.fumBase
    cnts := SMap.mapVals {} x.cnts fun _ c => { c with delta := 0, resets := false } }

/-- LOSS of every region for the row that ends, and the highest of them for each site and for the partitions that its markers have named in the
row (R602, R603). -/
def State.fumLoss (s : State) : State :=
  let x := s.fum
  let loss := x.regionPost.foldl (fun m e => SMap.set 0 m e.1 (postLoss e.2)) ([] : SMap (BitVec 8))
  let x := (List.range 24).foldl (fun (x : Fum) n =>
    let (l, st) := s.siteLoss n
    let y := x.site n
    let x := (bitsSet y.doms).foldl (fun (x : Fum) d =>
      let o := SMap.get 0 x.partLoss d
      { x with partLoss := SMap.set 0 x.partLoss d (if o.toNat < l.toNat then l else o), partStop := if st then putBit x.partStop d true else x.partStop }) x
    x.setSite n { y with loss := if y.loss.toNat < l.toNat then l else y.loss, stopped := y.stopped || st }) x
  s.setFum { x with regionLoss := loss, regionPost := [] }

/-- The coarse ratio of R607 and R614. -/
def coarse (k n : BitVec 48) : Nat := if n = 0 then 0 else min 15 (16 * k.toNat / n.toNat)

/-- Write the GROUP record of group `g` (global 0 to 31, partition halves from 32) and begin its next interval. -/
def State.groupRecord (s : State) (g : Nat) : State :=
  let x := s.fum
  let first := if g < 32 then 8 * g else 256 + 8 * (g - 32)
  let a (k : Nat) : FumAcc := SMap.get {} x.accs (first + k)
  let rows := s.row - SMap.get x.firstRow x.groupRow g
  let d := (g - 32) / 2
  let part : Bool := decide (32 ≤ g)
  let half0 := part && g % 2 = 0
  let loss := if part then SMap.get 0 x.partLoss d else 0
  let flags : BitVec 16 := BitVec.ofNat 16 (b2n x.first + 2 * b2n ((List.range 8).any fun k => (a k).resets) + 4 * b2n (loss ≠ 0) +
    8 * b2n (part && bit x.partStop d) + 16 * b2n half0)
  let val (k : Nat) : BitVec 48 :=
    if half0 && (k = 2 || k = 3) then BitVec.ofNat 48 (if rows < 1000 then 0 else coarse (a k).delta (a (k - 2)).delta) else (a k).delta
  let s := s.sample (ringRecord (ringHeader s.bnd.timebase 0 g flags (BitVec.ofNat 16 (min rows 65535)) 0xFF loss ++ (List.range 8).flatMap fun k => leBytes 6 (val k)))
  s.setFum { s.fum with
    accs := (List.range 8).foldl (fun m k => SMap.set {} m (first + k) {}) s.fum.accs
    groupRow := SMap.put s.fum.groupRow g s.row
    partLoss := if part ∧ g % 2 = 1 then SMap.set 0 s.fum.partLoss d 0 else s.fum.partLoss
    partStop := if part ∧ g % 2 = 1 then putBit s.fum.partStop d false else s.fum.partStop }

/-- The GROUP records of a tick (R604). -/
def State.fumGroups (s : State) : State :=
  let x := s.fum
  let s := if s.row % (x.kGlobal.toNat + 1) = 0 then (bitsSet x.gmask).foldl State.groupRecord s else s
  if s.row % (x.kPart.toNat + 1) = 0 then
    ((List.range 64).filter fun d => (s.part d).state ≠ .free).foldl (fun s d => (s.groupRecord (32 + 2 * d)).groupRecord (33 + 2 * d)) s
  else s

/-- The windows of 1,000 rows behind FUM_PPWR and FUM_ZCOARSE (R613, R614). -/
def State.fumWindow (s : State) : State :=
  let x := s.fum
  let power := (List.range 64).foldl (fun m d => SMap.set 0 m d (SMap.get 0 m d + (s.pubWord (0xC0 + d)).toNat)) x.winPower
  let x := { x with winRows := x.winRows + 1, winPower := power }
  if s.row % 1000 ≠ 0 then s.setFum x
  else
    let c (d k : Nat) : BitVec 48 := SMap.get 0 x.latched (256 + 16 * d + k)
    let diff (d k : Nat) : BitVec 48 := c d k - SMap.get 0 x.winCnt (4 * d + k)
    let x :=
      if x.winRows < 1000 then x
      else { x with
        ppwr := (List.range 64).foldl (fun m d => SMap.set 0 m d (BitVec.ofNat 16 (SMap.get 0 power d / 1000 / 500))) []
        zcoarse := (List.range 64).foldl (fun m d => SMap.set 0 m d
          (BitVec.ofNat 12 (packN [(0, (s.zst d).fracRes.toNat / 16), (4, coarse (diff d 2) (diff d 0)), (8, coarse (diff d 3) (diff d 1))]))) [] }
    s.setFum { x with winRows := 0, winPower := []
                      winCnt := (List.range 256).foldl (fun m i => SMap.set 0 m i (c (i / 4) (i % 4))) [] }

/-- A site's row begins: announcements come one row nearer (R599), and the row is named for its current marker's partition. -/
def FumSite.tick (x : FumSite) : FumSite :=
  { x with pcRow := 0, doms := match x.marker with | some m => domBit m | none => 0
           announces := (x.announces.map fun a => if a.ahead = 0 then { a with zeroRows := a.zeroRows + 1 } else { a with ahead := a.ahead - 1 }).filter fun a => a.zeroRows < 64 }

/-- The strobe of a row tick. -/
def State.fumTick (s : State) : State :=
  let s := ((s.fumRowEnd).fumLatching.fumLatch.fumLoss).fumGroups.fumWindow
  s.setFum { s.fum with first := false, sites := SMap.mapVals {} s.fum.sites fun _ x => x.tick }

/-- Two snapshot words of a marker (R601). -/
def markerWords (m : W128) (ahead : BitVec 7) : List W64 :=
  [pack [(0, (field m 0 32).toNat), (32, (field m 32 24).toNat), (56, markerDom m), (63, 1)], pack [(0, (field m 64 16).toNat), (16, ahead.toNat)]]

/-- The lookahead words of the snapshot (R601). -/
def State.lookahead (s : State) : List (Nat × W64) :=
  let site (n : Nat) : List (Nat × W64) :=
    let x := s.fum.site n
    let cur := match x.marker with | some m => markerWords m 0 | none => [0, 0]
    let anns := x.announces.flatMap fun a => markerWords a.marker a.ahead
    let age : W64 := match x.marker with | some _ => BitVec.ofNat 64 (min (s.row - x.began.toNat / 1000) 0xFFFFFFFF) | none => 0
    (cur ++ anns ++ List.replicate (8 - anns.length) 0 ++ [age]).zipIdx.map fun (e : W64 × Nat) => (0x800 + 16 * n + e.2, e.1)
  (List.range 24).flatMap site ++
  s.fum.descMarker.flatMap fun (e : Nat × W128) => if e.1 < 64 then (markerWords e.2 0).zipIdx.map fun w => (0x980 + 2 * e.1 + w.2, w.1) else []

/-! ### Registers -/

/-- The grain at which a class sees partition counter `k` of partition `d` (R612). -/
def fumSees (c : Cls) (d k : Nat) : Bool :=
  match c with
  | .K | .S => true
  | .H | .O => k ≠ 2 && k ≠ 3
  | .P p => p.toNat = d && k ≠ 12
  | .C _ _ | .I => false

/-- DUMP_SEL words (word 0, then word 1). -/
def DumpSel.words (x : DumpSel) : W64 × W64 :=
  (pack [(0, x.state.toNat), (2, b2n x.stepAny), (32, x.tensor.toNat)], pack [(0, x.step.toNat), (32, x.bytes.toNat)])

def capKSHOP : Nat → Cls → State → Bool := fun d c _ => match c with | .P p => p.toNat = d | .C _ _ | .I => false | _ => true

def fumRegs : List Reg :=
  [ { base := 0x0780000, allow := capKSO                                                                              -- FUM_CTL
      get := fun _ _ s => let x := s.fum
        pack [(0, b2n x.ringEn), (1, b2n x.pcEn), (2, b2n x.linkEn), (3, x.linkShift.toNat), (16, x.kGlobal.toNat), (32, x.kPart.toNat)]
      put := fun _ c v m s =>
        if c = .O then s
        else
          let x := s.fum
          let rise := !x.ringEn && mrgB x.ringEn 0 v m
          let pcRise := !x.pcEn && mrgB x.pcEn 1 v m
          let s := s.setFum { x with ringEn := mrgB x.ringEn 0 v m, pcEn := mrgB x.pcEn 1 v m, linkEn := mrgB x.linkEn 2 v m, linkShift := mrg x.linkShift 3 v m
                                     kGlobal := mrg x.kGlobal 16 v m, kPart := mrg x.kPart 32 v m, pcGap := x.pcGap || pcRise }
          if rise then s.fumFirst else s },
    { base := 0x0780008, allow := capKSO                                                                              -- FUM_GMASK
      get := fun _ _ s => s.fum.gmask.setWidth 64
      put := fun _ c v m s => if c = .O then s else s.setFum { s.fum with gmask := mrg s.fum.gmask 0 v m } },
    { base := 0x0780010, allow := capKSO, get := fun _ _ s => pack [(0, s.fum.prod.toNat), (22, s.fum.cons.toNat)] },
    { base := 0x0780018, allow := capKSO, get := fun _ _ s => s.fum.lost.setWidth 64 },
    { base := 0x0780020, allow := capKSO, get := fun _ _ s => pack [(0, s.fum.pcProd.toNat), (22, s.fum.pcCons.toNat)] },
    { base := 0x0780028, allow := capKSO, get := fun _ _ s => s.fum.pcLost.setWidth 64 },
    { base := 0x0780030, allow := capKSO                                                                              -- FUM_STAT
      get := fun _ _ s => pack [(0, s.fum.postRefused.toNat), (32, s.fum.annDropped.toNat)]
      onRead := fun _ _ m s => s.setFum { s.fum with postRefused := if bit m 0 then 0 else s.fum.postRefused, annDropped := if bit m 32 then 0 else s.fum.annDropped } },
    { base := 0x0788000, stride := 8, count := 256, allow := capKSO                                                   -- FUM_GCNT
      get := fun g _ s => pack [(0, (SMap.get 0 s.fum.latched g).toNat), (48, b2n (fumPosted g))] },
    { base := 0x07A0080, count := 64, allow := capKSHOP, get := fun d _ s => (SMap.get 0 s.fum.ppwr d).setWidth 64 },      -- FUM_PPWR
    { base := 0x07A0088, count := 64, allow := capKSHOP, get := fun d _ s => (SMap.get 0 s.fum.zcoarse d).setWidth 64 } ]  -- FUM_ZCOARSE
  ++ (List.range 16).map (fun k =>                                                                                    -- FUM_PCNT
    { base := 0x07A0000 + 8 * k, count := 64, allow := capKSHOP,
      get := fun d c s => if fumSees c d k then (SMap.get 0 s.fum.latched (256 + 16 * d + k)).setWidth 64 else 0 })
  ++ (List.range 16).map (fun k =>                                                                                    -- DUMP_SEL
    { base := 0x07A0100 + 16 * k, count := 64, allow := capKSHOP, get := fun d _ s => (SMap.get ({} : DumpSel) s.fum.sels (16 * d + k)).words.1 })
  ++ (List.range 16).map (fun k =>
    { base := 0x07A0108 + 16 * k, count := 64, allow := capKSHOP, get := fun d _ s => (SMap.get ({} : DumpSel) s.fum.sels (16 * d + k)).words.2 })

end Sys2Proof.Machine
end

