-- ==== Sys2Proof/Machine/Streams.lean ====
section
/-! DEFINITION. Bulk-window streams as their consumers see them: binding, reading and ending (R657 to R666). -/
namespace Sys2Proof.Machine

def HostUnit.stream (h : HostUnit) (n : Nat) : Stream := SMap.get {} h.streams n
def State.stream (s : State) (n : Nat) : Stream := s.host.stream n
def State.setStream (s : State) (n : Nat) (x : Stream) : State := { s with host := { s.host with streams := SMap.set {} s.host.streams n x } }

/-- HW_IRQ cause `i` becomes pending (R673). -/
def State.hostIrq (s : State) (i : Nat) : State := { s with host := { s.host with irqPending := putBit s.host.irqPending i true } }

/-- Every window is disabled; the rest of its registers stays (R669). -/
def HostUnit.closeWins (h : HostUnit) : HostUnit := { h with wins := SMap.mapVals {} h.wins fun _ x => { x with en := false } }

/-- The limit L (R657); before the first data write, that of the aperture (log entry 13), and 0 while the stream is FREE. -/
def Stream.limit (x : Stream) : Nat := if x.state = .free then 0 else if x.mode = 2 then x.c + 4194304 else min (x.f + 524288) (x.c + 4194304)

/-- FREE again, keeping LEN and STATUS. -/
def Stream.freed (x : Stream) (st : Status) : Stream := { len := x.len, status := st }

/-- A consumer with tag `t` binds stream `n` for `len` bytes (R663). -/
def State.bindStream (s : State) (n : Nat) (t : Tag) (len : BitVec 32) : Option State :=
  let x := s.stream n
  if n < 16 ∧ (x.state = .opened ∨ x.state = .closed) ∧ x.tag = none ∧ x.len = len then
    some (s.setStream n { x with state := if x.state = .opened then .bound else x.state, tag := some t, idle := s.bnd.timebase })
  else none

/-- The result that the close of a stream fixes (R664). -/
def Stream.closeResult (x : Stream) : Status := if x.long then 0x010B else if x.f < x.len.toNat then 0x010A else 0

/-- Bytes received and not consumed. -/
def Stream.avail (x : Stream) : Nat := x.f - x.c

/-- Consume `n` bytes from C. -/
def Stream.take (x : Stream) (n : Nat) : List Byte × Stream :=
  (Mem.read 0 x.ring x.c n, { x with c := x.c + n, ring := x.ring.filter fun e => x.c + n ≤ e.1 })

/-- The consumer's command completes with `st`: the stream returns to FREE and keeps the result (R665, R673). -/
def State.endStream (s : State) (o : Option Nat) (t : Tag) (st : Status) : State :=
  match o with
  | none => s
  | some n =>
    let x := s.stream n
    if x.tag ≠ some t then s
    else
      let s := s.setStream n (x.freed (if x.state = .free then x.status else st))
      if x.state = .closed then s.hostIrq 1 else s

/-- Stream `n` returns to FREE at once, whatever becomes of its consumer; the bytes received stay with the consumer's command (R665, R666). -/
def State.freeStream (s : State) (n : Nat) (st : Status) : State :=
  let x := s.stream n
  let s := match x.tag with | some t => s.sawBytes t x.f | none => s
  s.setStream n (x.freed st)

end Sys2Proof.Machine
end

