-- ==== Sys2Proof/Machine/Governor.lean ====
section
/-! DEFINITION. The governor's hardware: region outputs, hold mode, the thermal clamp, AVSBus targets and read-back (R60 to R66, R566 to R572, R591). -/
namespace Sys2Proof.Machine

def State.setGov (s : State) (g : Gov) : State := { s with gov := g }
def Gov.reg (g : Gov) (n : Nat) : GovReg := SMap.get {} g.regs n
def Gov.setReg (g : Gov) (n : Nat) (r : GovReg) : Gov := { g with regs := SMap.set {} g.regs n r }
def Gov.rail (g : Gov) (q : Nat) : GovRail := SMap.get {} g.rails q
def Gov.setRail (g : Gov) (q : Nat) (r : GovRail) : Gov := { g with rails := SMap.set {} g.rails q r }

/-- Drive a region's outputs and pulse REG_UPD (R62). -/
def State.driveRegion (s : State) (n : Nat) (step : BitVec 6) (stretch : Bool) : State :=
  (s.setGov (s.gov.setReg n { s.gov.reg n with step := step, stretch := stretch })).emit (.regUpd n step)

/-- Line 1 of R566 applies, or a halt or ROM recovery holds every region at step 0 (R500, R502). -/
def State.regionHeld (s : State) (n : Nat) : Bool := s.bnd.clamp || s.bnd.thermTrip || s.bnd.recovery || s.co.halted || !(bit s.co.released n)

/-- The step that a seam commits for region `n` from its staged word (R566). -/
def State.commitStep (s : State) (n : Nat) (word : W64) : BitVec 6 :=
  let asked := min (field word 0 6).toNat s.otp.fmax.toNat
  if s.regionHeld n then 0
  else BitVec.ofNat 6 (if s.gov.hold then min asked (s.gov.reg n).holdCeil.toNat else asked)

/-- Seam cycle 1 (R528, R566). -/
def State.commitRegions (s : State) (word : Nat → W64) : State :=
  (List.range Config.regions).foldl (fun s n => s.driveRegion n (s.commitStep n (word n)) (!s.regionHeld n && bit (word n) 6)) s

/-- Regions that lost their release, or that a halt or ROM recovery holds, fall to step 0 at a seam, whether or not the row program commits
(R62, R500, R502, R514, R516; log entry 42). -/
def State.clampSeam (s : State) : State :=
  (List.range Config.regions).foldl (fun s n =>
    let r := s.gov.reg n
    if s.regionHeld n ∧ (r.step ≠ 0 ∨ r.stretch) then s.driveRegion n 0 false else s) s

/-! ### The thermal clamp (R64 to R66) -/

/-- THERM_TRIP_FALL: the clamp drives every region to step 0, whatever runs, and Vent has a report of class 10 (R627). -/
def thermFall (s : State) : State :=
  let rising := !s.bnd.clamp
  let s := { s with bnd := { s.bnd with thermTrip := true, clamp := true, thermHighRows := 0 } }
  let s := ((List.range Config.regions).foldl (fun s n => s.driveRegion n 0 false) s).report 10 0 (Config.reportCode 10)
  if rising then
    (s.setGov { s.gov with cntTrip := s.gov.cntTrip + 1, clampRows := 0 }).log 0x0C0000A2 govUnit 127 s.bnd.timebase
  else s

/-- AGE of some regions begins again (R572). -/
def Gov.restartOf (g : Gov) (rs : List Nat) : Gov := rs.foldl (fun (g : Gov) n => g.setReg n { g.reg n with age := 0, ages := true }) g
def Gov.restart (g : Gov) : Gov := g.restartOf (List.range Config.regions)

/-- The seam at which the clamp releases (R66). -/
def thermRelease (s : State) : State :=
  if s.bnd.clamp ∧ ¬ s.bnd.thermTrip ∧ 1000 ≤ s.bnd.thermHighRows then
    let s := { s with bnd := { s.bnd with clamp := false, thermHighRows := 0 } }
    (s.setGov s.gov.restart).log 0x0C0000A3 govUnit 127 (BitVec.ofNat 64 s.gov.clampRows)
  else s

def execThermTripFall (s : State) : Host.Outcome State Fault Refusal := .next (thermFall s)
/-- THERM_TRIP_RISE: the count of rows begins. -/
def execThermTripRise (s : State) : Host.Outcome State Fault Refusal :=
  .next { s with bnd := { s.bnd with thermTrip := false, thermHighRows := 0 } }
def execThermClampRelease (s : State) : Host.Outcome State Fault Refusal := .next (thermRelease s)

/-! ### Hold mode (R27, R567, R568) -/

/-- Enter hold mode: 1 overruns, 2 forced. -/
def State.holdEnter (s : State) (cause : BitVec 2) : State :=
  if s.gov.hold then s
  else
    let g := s.gov
    let g := (List.range Config.regions).foldl (fun (g : Gov) n => g.setReg n { g.reg n with holdCeil := (g.reg n).step }) g
    (s.setGov { g with hold := true, holdCause := cause, holdRows := 0, cntHold := g.cntHold + 1 }).log 0x0C0000A0 govUnit 127 (cause.setWidth 64) |>.hostIrq 2

/-- The seam at which hold mode ends. -/
def holdExit (s : State) : State :=
  if s.gov.hold ∧ ¬ s.gov.forceHold ∧ s.gov.cleanRows = 1024 then
    (s.setGov { s.gov.restart with hold := false, holdCause := 0 }).log 0x0C0000A1 govUnit 127 (BitVec.ofNat 64 s.gov.holdRows) |>.hostIrq 2
  else s

def execHoldExit (s : State) : Host.Outcome State Fault Refusal := .next (holdExit s)

/-- FORCE_HOLD, which Keeper writes. -/
def forceHold (s : State) (c : Cls) (v : Bool) : State := if c = .K then s.setGov { s.gov with forceHold := v } else s
def execGovForceHoldWrite (cls : Cls) (value : Bool) (s : State) : Host.Outcome State Fault Refusal := .next (forceHold s cls value)

/-! ### Rails (R557, R569 to R571) -/

/-- One staged AVS target at a seam. -/
def State.avsTarget (s : State) (q : Nat) (word : W64) : State :=
  let r := s.gov.rail q
  let drop := { s with re := { s.re with cntAvs := s.re.cntAvs + 1 } }
  if ¬ bit word 16 then s
  else if s.gov.hold ∨ s.bnd.clamp then drop
  else if ¬ bit s.bnd.avsEn (q / 16) || r.sentRow.any (fun n => s.row < n + 64) then drop
  else if r.vmax = 0 then drop
  else
    let t := (field word 0 16).toNat
    let v : BitVec 12 := BitVec.ofNat 12 (max r.vmin.toNat (min t r.vmax.toNat))
    let clipped := v.toNat ≠ t
    let g := s.gov.setRail q { r with target := v, sentRow := some s.row }
    (s.setGov { g with cntVclip := if clipped then g.cntVclip + 1 else g.cntVclip }).emit (.avs (q / 16) (q % 16) true v)

/-- The read-back frames of a row (R571): each enabled port reads the Voltage, then the Status, of its rails with VMAX ≠ 0 in selector order, one
frame in every second row, so that 16 rails take 64 rows (log entry 49). -/
def State.avsReads (s : State) : State :=
  if s.row % 2 = 1 then s
  else ([0, 1, 2, 3] : List Nat).foldl (fun s p =>
    let qs := (List.range 16).filter fun q => (s.gov.rail (16 * p + q)).vmax ≠ 0
    let i := SMap.get 0 s.gov.readAt p
    match (if bit s.bnd.avsEn p then qs[i / 2 % qs.length]? else none) with
    | none => s
    | some q => (s.setGov { s.gov with readAt := SMap.set 0 s.gov.readAt p ((i + 1) % (2 * qs.length)) }).emit (if i % 2 = 0 then .avs p q false 0 else .avsStatus p q)) s

/-- AVS_READBACK (R571). -/
def avsReadback (s : State) (q : Nat) (isStatus fault : Bool) (v : BitVec 16) : State :=
  let r := s.gov.rail q
  if r.vmax = 0 ∨ ¬ bit s.bnd.avsEn (q / 16) then s
  else if ¬ isStatus then s.setGov (s.gov.setRail q { r with readback := field v 0 12 })
  else
    let g := s.gov.setRail q { r with fault := fault }
    if fault then ((s.setGov { g with cntRailfault := g.cntRailfault + 1 }).log 0x0C0000A4 govUnit 127 (BitVec.ofNat 64 q) (v.setWidth 64)).report 8 0 (Config.reportCode 8)
    else s.setGov g

def execAvsReadback (rail : BitVec 6) (isStatus fault : Bool) (value : BitVec 16) (s : State) : Host.Outcome State Fault Refusal :=
  .next (avsReadback s rail.toNat isStatus fault value)

/-- A write of a rail's limits by Keeper (R570). -/
def railWrite (s : State) (c : Cls) (q : Nat) (vmin vmax : BitVec 12) : State :=
  if c ≠ .K then s
  else if vmax.toNat < vmin.toNat then s.setGov { s.gov with status := 0x0C20 }
  else s.setGov (s.gov.setRail q { s.gov.rail q with vmin := vmin, vmax := vmax })

def execGovRailWrite (cls : Cls) (rail : BitVec 6) (vmin vmax : BitVec 12) (s : State) : Host.Outcome State Fault Refusal :=
  .next (railWrite s cls rail.toNat vmin vmax)

/-- Rows pass: AGE of each region since the latest event of R572, rows in hold, rows clamped, rows with THERM_TRIP_N high. -/
def State.govTick (s : State) : State :=
  let g := s.gov
  let g := (List.range Config.regions).foldl (fun (g : Gov) n => if (g.reg n).ages then g.setReg n { g.reg n with age := satAdd (g.reg n).age 1 } else g) g
  let g := { g with holdRows := if g.hold then g.holdRows + 1 else g.holdRows, clampRows := if s.bnd.clamp then g.clampRows + 1 else g.clampRows }
  { s with gov := g, bnd := { s.bnd with thermHighRows := if s.bnd.clamp ∧ ¬ s.bnd.thermTrip then s.bnd.thermHighRows + 1 else s.bnd.thermHighRows } }

def govRegs : List Reg :=
  [ { base := 0x0900000, allow := capKSO, get := fun _ _ s => pack [(0, b2n s.gov.forceHold)]                          -- GOV_CTL
      put := fun _ c v m s => forceHold s c (mrgB s.gov.forceHold 0 v m) },
    { base := 0x0900008, allow := capKSHO                                                                              -- GOV_STAT
      get := fun _ _ s => let g := s.gov
        pack [(0, b2n g.hold), (1, g.holdCause.toNat), (3, g.cleanRows.toNat), (14, b2n s.bnd.clamp), (16, g.status.toNat)] },
    { base := 0x0901000, stride := 8, count := 64, allow := capKSO                                                     -- GOV_REG
      get := fun n _ s => let r := s.gov.reg n
        pack [(0, r.step.toNat), (6, b2n r.stretch), (7, r.holdCeil.toNat), (13, r.rail.toNat), (19, b2n r.railEn), (20, r.age.toNat)]
      put := fun n c v m s =>
        let r := s.gov.reg n
        if c = .K then s.setGov (s.gov.setReg n { r with rail := mrg r.rail 13 v m, railEn := mrgB r.railEn 19 v m }) else s },
    { base := 0x0902000, stride := 8, count := 64, allow := capKSO                                                     -- GOV_RAIL
      get := fun q _ s => let r := s.gov.rail q
        pack [(0, r.vmin.toNat), (12, r.vmax.toNat), (24, r.target.toNat), (36, r.readback.toNat), (48, b2n r.fault)]
      put := fun q c v m s => let r := s.gov.rail q; railWrite s c q (mrg r.vmin 0 v m) (mrg r.vmax 12 v m) },
    { base := 0x0900040, allow := capKSO, get := fun _ _ s => s.gov.cntHold.setWidth 64 },
    { base := 0x0900048, allow := capKSO, get := fun _ _ s => s.gov.cntTrip.setWidth 64 },
    { base := 0x0900050, allow := capKSO, get := fun _ _ s => s.gov.cntVclip.setWidth 64 },
    { base := 0x0900058, allow := capKSO, get := fun _ _ s => s.gov.cntRailfault.setWidth 64 } ]

end Sys2Proof.Machine
end

