-- ==== Sys2Proof/Machine/Knots.lean ====
section
/-! DEFINITION. Knots: signal, wait, reset, probe, waiters and stalls (R114 to R124, R716). -/
namespace Sys2Proof.Machine

/-- Knot `k`. -/
def Cmd.knot (c : Cmd) (k : Nat) : Knot := SMap.get {} c.knots k
def Cmd.setKnot (c : Cmd) (k : Nat) (x : Knot) : Cmd := { c with knots := SMap.set {} c.knots k x }

/-- Waiters in the on-block store (KNOT_STAT.HW_FREE counts down from 16,384). -/
def Cmd.hwWaiters (c : Cmd) : Nat := (c.knots.map fun e => e.2.hw.length).sum
/-- Stored waiters, in hardware or in the overflow list. -/
def Cmd.waiters (c : Cmd) : Nat := (c.knots.map fun e => e.2.hw.length + e.2.spill.length).sum
/-- Overflow waiters of a domain (R122). -/
def Cmd.spilled (c : Cmd) (d : Dom) : Nat := (c.knots.map fun e => (e.2.spill.filter fun w => w.dom = d).length).sum

/-- A handle that no stored waiter has: the first free one of the 16,384 from `d` on. Which one is granted is left open (log entry 10). -/
def Cmd.freeHandle (c : Cmd) (d : Nat) : BitVec 16 :=
  let used := c.knots.flatMap fun e => e.2.hw.map (·.handle)
  BitVec.ofNat 16 ((((List.range (used.length + 1)).map fun i => (d + i) % 16384).find? fun h => ¬ used.contains (BitVec.ofNat 16 h)).getD 0)

/-- Bits [63:0] of the knot entry (R114). -/
def Knot.entry (x : Knot) : W64 :=
  pack [(0, x.value.toNat), (48, x.owner.toNat), (55, b2n x.active), (57, b2n (!x.spill.isEmpty)), (58, x.hw.length)]

/-- The 16-byte knot entry (R114). -/
def Knot.entry128 (x : Knot) : W128 :=
  let h (i : Nat) : Nat := ((x.hw[i]?).map fun w => w.handle.toNat).getD 0xFFFF
  BitVec.ofNat 128 (x.entry.toNat + packN [(64, h 0), (80, h 1), (96, h 2), (112, h 3)])

/-- The waiter is met (R119). -/
def Waiter.met (w : Waiter) (v : BitVec 48) : Bool := w.threshold.toNat ≤ v.toNat

/-- Set the doorbell of each waiter, in registration order (R121); a disabled mailbox loses it (R717). -/
def Cmd.ringWaiters (c : Cmd) (l : List Waiter) : Cmd :=
  l.foldl (fun c w => c.ring1 w.mailbox.toNat true (1#32 <<< w.doorbell.toNat)) c

/-- The knot whose first overflow waiter is the oldest among knots with a free hardware entry (R122). -/
def Cmd.oldestSpill (c : Cmd) : Option (Nat × Waiter) :=
  c.knots.foldl (fun best e =>
    match e.2.spill with
    | w :: _ => if e.2.hw.length < 4 then (match best with | some (_, b) => if w.seq < b.seq then some (e.1, w) else best | none => some (e.1, w)) else best
    | [] => best) none

/-- Move the oldest overflow waiters into hardware entries while entries are free, at most `n` of them (R122). -/
def Cmd.refill : Nat → Nat → Cmd → Cmd
  | 0, _, c => c
  | n + 1, fr, c =>
    if 16384 ≤ c.hwWaiters then c
    else match c.oldestSpill with
      | some (k, w) =>
        let x := c.knot k
        Cmd.refill n (fr + 1) (c.setKnot k { x with hw := x.hw ++ [{ w with handle := c.freeHandle (Config.free fr 16).toNat }], spill := x.spill.tail })
      | none => c

/-- Remove the met waiters of a list and ring them. -/
def Cmd.meet (c : Cmd) (k : Nat) (spillToo : Bool) : Cmd :=
  let x := c.knot k
  let met := x.hw.filter (fun w => w.met x.value) ++ (if spillToo then x.spill.filter (fun w => w.met x.value) else [])
  let x' := { x with hw := x.hw.filter (fun w => ¬ w.met x.value), spill := if spillToo then x.spill.filter (fun w => ¬ w.met x.value) else x.spill }
  (c.setKnot k x').ringWaiters met

/-- A change of VALUE arms the stall detector (R124). -/
def Cmd.valueChanged (c : Cmd) (t : W64) : Cmd := { c with stallRef := t, stallArmed := true }

/-- KNOT_SIGNAL's effect, `none` when the sum passes 2^48 - 1 (R117, R121). -/
def Cmd.signal (c : Cmd) (t : W64) (fr : Nat) (k : Nat) (addend : BitVec 48) : Option Cmd :=
  let x := c.knot k
  if 2 ^ 48 ≤ x.value.toNat + addend.toNat then none
  else
    let c := c.setKnot k { x with value := x.value + addend }
    let c := if addend = 0 then c else c.valueChanged t
    let before := c.hwWaiters
    let c := c.meet k false
    some (c.refill (before - c.hwWaiters) fr)

/-- The checks of R115 for requester `keeper`/`steward` or another with domain `dom`, in the manual's order. -/
def knotCheck (c : Cmd) (cls : QClass) (dom : Dom) (k : Nat) (probe : Bool) : Option Status :=
  if Config.knots ≤ k then some St.knotRange
  else
    let x := c.knot k
    match cls with
    | .keeper => none
    | .steward => if probe ∨ x.owner = 64 then none else some St.knotOwner
    | _ => if x.owner ≠ dom then some St.knotOwner else if ¬ x.active then some St.knotState else none

/-- The knot lies in the range of a partition that is not FREE (R716). -/
def State.knotRanged (s : State) (k : Nat) : Bool :=
  s.parts.any fun e => e.2.state ≠ .free && e.2.knotBase.toNat ≤ k && k < e.2.knotBase.toNat + e.2.knotCount.toNat

/-- Take every waiter of the knots of a range away (R123, R239), keeping of each knot what `f` keeps; overflow waiters of other knots move
into the entries that come free (R122). -/
def State.knotsCleared (s : State) (base n : Nat) (f : Knot → Knot) : State :=
  let before := s.cmd.hwWaiters
  let c := (List.range' base n).foldl (fun c k => c.setKnot k { f (c.knot k) with hw := [], spill := [] }) s.cmd
  let freed := before - c.hwWaiters
  { s with cmd := c.refill freed s.freeCount, freeCount := s.freeCount + freed }

/-- The mailbox rule of R120. -/
def waitMailboxOk (c : Cmd) (cls : QClass) (dom : Dom) (m bell : Nat) : Bool :=
  m < 80 && bell < 31 && (c.mailbox m).en &&
  (match cls with
   | .keeper | .steward => true
   | _ => (dom.toNat < 64 && m = dom.toNat) || (dom.toNat = 65 && 64 ≤ m && m < 72))

/-- Counters 52 and k = 11 of an applied signal (R592). -/
def State.countSignal (s : State) (k : Nat) : State := (s.bump 52 1).pcount (s.cmd.knot k).owner.toNat 11

def knotSignal (f : Flight) (s : State) : State :=
  let k := (Desc.src0 f.desc).toNat
  match knotCheck s.cmd (qClass f.queue) (Desc.dom f.desc) k false with
  | some st => s.complete f st
  | none =>
    match s.cmd.signal s.bnd.timebase s.freeCount k (Desc.argField f.desc 0 48) with
    | none => s.complete f St.knotOverflow
    | some c => (({ s with cmd := c, freeCount := s.freeCount + 4 }).countSignal k).complete f St.ok ((c.knot k).value.setWidth 64)

/-- KNOT_WAIT: RESULT is MET and the handle, 0xFFFF for a waiter that is not stored in hardware (R119, R122). -/
def knotWait (f : Flight) (s : State) : State :=
  let k := (Desc.src0 f.desc).toNat
  let th := Desc.argField f.desc 0 48
  let mb := Desc.argField f.desc 48 7
  let bell := Desc.argField f.desc 55 5
  let dom := Desc.dom f.desc
  match knotCheck s.cmd (qClass f.queue) dom k false with
  | some st => s.complete f st
  | none =>
    let x := s.cmd.knot k
    let s := s.worked (· = unitOf 19 0)
    let w : Waiter := { threshold := th, mailbox := mb, doorbell := bell, dom := dom, handle := s.cmd.freeHandle (s.draw 16).toNat, seq := s.cmd.waitSeq }
    if ¬ waitMailboxOk s.cmd (qClass f.queue) dom mb.toNat bell.toNat then s.complete f St.knotMailbox
    else if w.met x.value then
      ({ s with cmd := s.cmd.ringWaiters [w] }).complete f St.ok (some 0xFFFF0001)
    else
      let c : Cmd := if s.cmd.waiters = 0 then { s.cmd with stallRef := s.bnd.timebase, waitSeq := s.cmd.waitSeq + 1 } else { s.cmd with waitSeq := s.cmd.waitSeq + 1 }
      if x.hw.length < 4 ∧ x.spill = [] ∧ c.hwWaiters < 16384 then
        ({ s with cmd := c.setKnot k { x with hw := x.hw ++ [w] }, freeCount := s.freeCount + 1 }).complete f St.ok (w.handle.setWidth 64 <<< 16)
      else if 131072 ≤ c.spilled dom then s.complete f St.knotFull
      else ({ s with cmd := c.setKnot k { x with spill := x.spill ++ [{ w with handle := 0xFFFF }] } }).complete f St.ok (some 0xFFFF0000)

/-- KNOT_RESET. Any use of ASSIGN that R716 does not allow gives KNOT_OWNER before the state of the knot is judged (R115, R716). -/
def knotReset (f : Flight) (s : State) : State :=
  let k := (Desc.src0 f.desc).toNat
  let v := Desc.argField f.desc 0 48
  let owner := Desc.argField f.desc 48 7
  let assign := bit (Desc.arg f.desc) 56
  let misused := assign ∧ (qClass f.queue ≠ .keeper ∨ s.knotRanged k ∨ (owner ≠ 64 ∧ owner ≠ 65))
  match (if k < Config.knots ∧ misused then some St.knotOwner else knotCheck s.cmd (qClass f.queue) (Desc.dom f.desc) k false) with
  | some st => s.complete f st
  | none =>
    let x := s.cmd.knot k
    let n := x.hw.length + x.spill.length
    let x' : Knot := { x with value := v, hw := [], spill := [], owner := if assign then owner else x.owner,
                              active := if assign then bit (Desc.arg f.desc) 55 else x.active }
    let before := x.hw.length
    let c := (s.cmd.setKnot k x').refill before s.freeCount
    ({ s with cmd := c, freeCount := s.freeCount + before }).complete f St.ok (BitVec.ofNat 64 n)

def knotProbe (f : Flight) (s : State) : State :=
  let k := (Desc.src0 f.desc).toNat
  match knotCheck s.cmd (qClass f.queue) (Desc.dom f.desc) k true with
  | some st => s.complete f st
  | none => s.complete f St.ok (s.cmd.knot k).entry

def execKnotSignal (tag : Tag) (s : State) : Host.Outcome State Fault Refusal := .next (s.withFlight tag 0x60 knotSignal)
def execKnotWait (tag : Tag) (s : State) : Host.Outcome State Fault Refusal := .next (s.withFlight tag 0x61 knotWait)
def execKnotReset (tag : Tag) (s : State) : Host.Outcome State Fault Refusal := .next (s.withFlight tag 0x62 knotReset)
def execKnotProbe (tag : Tag) (s : State) : Host.Outcome State Fault Refusal := .next (s.withFlight tag 0x63 knotProbe)

/-- The queue class and domain that a register access to the knot table acts with (R115, R116). -/
def knotAccess : Cls → QClass × Dom
  | .K => (.keeper, 64)
  | .S => (.steward, 64)
  | .P d => (.part, d.setWidth 7)
  | .C _ true => (.part, 64)
  | _ => (.host, 65)

/-- KNOT_SIGNAL by an 8-byte register write in the requester's domain; a refusal is answered REFUSED on the NoC (R116). -/
def knotRegSignal (s : State) (c : Cls) (k : Nat) (addend : BitVec 48) : State :=
  let a := knotAccess c
  match knotCheck s.cmd a.1 a.2 k false with
  | some _ => s.emit .regRefused
  | none =>
    match s.cmd.signal s.bnd.timebase s.freeCount k addend with
    | none => s.emit .regRefused
    | some c => ({ s with cmd := c, freeCount := s.freeCount + 4 }).countSignal k

def execKnotRegisterSignal (cls : Cls) (knot : BitVec 17) (data : W64) (s : State) : Host.Outcome State Fault Refusal :=
  .next (s.gated cls (0x0200000 + 16 * knot.toNat) fun s =>
    let t := knotRegSignal s cls knot.toNat (field data 0 48)
    if isNocClass cls then t else { t with out := s.out })

/-- The overflow waiters that a signal met have their doorbells set, in registration order (R121). -/
def execOverflowWaiterMet (knot : BitVec 17) (s : State) : Host.Outcome State Fault Refusal :=
  let before := s.cmd.hwWaiters
  let c := s.cmd.meet knot.toNat true
  .next { s with cmd := c.refill (before - c.hwWaiters + 4) s.freeCount, freeCount := s.freeCount + (before - c.hwWaiters + 4) }

/-- The conditions of R124, apart from the passing of time. -/
def State.stallDue (s : State) : Bool := s.cmd.stallEn && s.cmd.stallArmed && s.cmd.waiters ≠ 0

/-- One knot-stall event to Vent (R124), when STALL_ROWS + 1 rows have passed since the reference. The rules give its class alone: that the
report names the knot waiter store (kind 19), DOM 127 and DETAIL 0 is the model's choice (log entry 46). -/
def execKnotStall (s : State) : Host.Outcome State Fault Refusal :=
  .next (if s.stallDue then
    let s := s.at (s.cmd.stallRef.toNat + (s.cmd.stallRows.toNat + 1) * 1000)
    ({ s with cmd := { s.cmd with stalls := s.cmd.stalls + 1, stallArmed := false } }).report 11 (unitOf 19 0) (Config.reportCode 11)
  else s)

def knotRegs : List Reg :=
  [ -- every write of STALL_EN = 1 restarts the reference of R124, also while STALL_EN is 1 already (log entry 46)
    { base := 0x0448010, allow := capKS                                   -- KNOT_CTL
      get := fun _ _ s => pack [(0, s.cmd.stallRows.toNat), (16, b2n s.cmd.stallEn)]
      put := fun _ _ v m s =>
        let en := mrgB s.cmd.stallEn 16 v m
        { s with cmd := { s.cmd with stallRows := mrg s.cmd.stallRows 0 v m, stallEn := en,
                                     stallRef := if bit m 16 ∧ en then s.bnd.timebase else s.cmd.stallRef } } },
    { base := 0x0448018, allow := capKSO                                  -- KNOT_STAT
      get := fun _ _ s => pack [(0, s.cmd.stalls.toNat), (32, 16384 - s.cmd.hwWaiters)]
      onRead := fun _ _ m s => if bit m 0 then { s with cmd := { s.cmd with stalls := 0 } } else s } ]

/-- The knot table at 0x020_0000: 16 bytes per knot; a read that R115 refuses is answered REFUSED (R116). -/
def knotWindows : List Window :=
  [ { base := 0x0200000, span := 0x200000, allow := fun _ c _ => match c with | .K | .S | .P _ | .H | .C _ _ => true | .O | .I => false
      get := fun _ o n c s =>
        let a := knotAccess c
        match knotCheck s.cmd a.1 a.2 (o / 16) true with
        | some _ => List.replicate n 0
        | none => (List.range n).map fun i => field (s.cmd.knot (o / 16)).entry128 (8 * (o % 16 + i)) 8
      onRead := fun _ o _ c s =>
        let a := knotAccess c
        match knotCheck s.cmd a.1 a.2 (o / 16) true with | some _ => s.emit .regRefused | none => s
      put := fun _ o c bs s => if o % 16 = 0 ∧ bs.length = 8 then knotRegSignal s c (o / 16) (ofLeBytes 48 bs) else s } ]

end Sys2Proof.Machine
end

