-- ==== Sys2Proof/Machine/Gulun.lean ====
section
/-! DEFINITION. The Gulun instruction set: the slot operations, their encodings, and what one stitch does to the row engine (R523 to R547). -/
namespace Sys2Proof.Machine

/-! ### Operations and their encodings -/

/-- Register forms of S0 and S1 (R536). -/
inductive Alu where
  | add | sub | and | or | xor | shl | shr | sra | min | max | minu | maxu | adds | subs
  deriving DecidableEq, Repr

/-- Immediate forms of S0 and S1. -/
inductive AluI where
  | addi | andi | shli | shri | srai
  deriving DecidableEq, Repr

/-- Register forms of S2 (R537). -/
inductive MulOp where
  | mul | mulh | qmul | qmac
  deriving DecidableEq, Repr

/-- Kinds of S4 (R540). -/
inductive MemKind where
  | ld64 | ld32s | ld32u | ld8s | st64 | st32 | st16 | st8
  deriving DecidableEq, Repr

/-- A slot operation. -/
inductive Op where
  | nop
  | alu (f : Alu) (rd ra rb : BitVec 6)
  | aluI (f : AluI) (rd ra : BitVec 6) (imm : BitVec 8)
  | ldi (rd : BitVec 6) (imm : BitVec 14)
  | ldih (rd : BitVec 6) (imm : BitVec 14)
  | lidx (rd : BitVec 6) (level : BitVec 2)
  | mul (f : MulOp) (rd ra rb : BitVec 6)
  | muli (rd ra : BitVec 6) (imm : BitVec 8)
  | tmac (zero : Bool) (acc : BitVec 2) (ra rb : BitVec 6)
  | trq (acc : BitVec 2) (ra : BitVec 6) (sh : BitVec 5) (relu : Bool)
  | tst32 (acc : BitVec 2) (ra : BitVec 6)
  | tld32 (acc : BitVec 2) (ra : BitVec 6)
  | mem (k : MemKind) (post : Bool) (rd ra : BitVec 6) (imm : BitVec 8)
  | prb (rd : BitVec 6) (index : BitVec 14)
  | prbx (rd ra : BitVec 6) (imm : BitVec 8)
  | pst (rs : BitVec 6) (index : BitVec 14)
  | pstx (rs ra : BitVec 6) (imm : BitVec 8)
  | dbset (target : Bool) (bell : BitVec 5)
  | dbsetr (target : Bool) (ra : BitVec 6)
  | dbclr (target : Bool) (ra : BitVec 6)
  | ksig (ra rb : BitVec 6)
  | slog (ra rb : BitVec 6)
  | vack (ra : BitVec 6)
  | railok
  | pset (pd cond : BitVec 3) (ra rb : BitVec 6)
  | pseti (pd cond : BitVec 3) (ra : BitVec 6) (imm : BitVec 8)
  | plog (pd : BitVec 3) (op : BitVec 2) (pa pb : BitVec 3)
  | loop (trip body : BitVec 10)
  | rowEnd
  deriving DecidableEq, Repr

def Alu.code : Alu → Nat
  | .add => 0x01 | .sub => 0x02 | .and => 0x03 | .or => 0x04 | .xor => 0x05 | .shl => 0x06 | .shr => 0x07 | .sra => 0x08
  | .min => 0x09 | .max => 0x0A | .minu => 0x0B | .maxu => 0x0C | .adds => 0x0D | .subs => 0x0E
def AluI.code : AluI → Nat
  | .addi => 0x10 | .andi => 0x11 | .shli => 0x12 | .shri => 0x13 | .srai => 0x14
def MulOp.code : MulOp → Nat
  | .mul => 0x20 | .mulh => 0x21 | .qmul => 0x22 | .qmac => 0x23
def MemKind.code : MemKind → Nat
  | .ld64 => 0 | .ld32s => 1 | .ld32u => 2 | .ld8s => 3 | .st64 => 4 | .st32 => 5 | .st16 => 6 | .st8 => 7

/-- The shifts by an immediate hold zero in imm8[7:6]. -/
def AluI.shifts : AluI → Bool
  | .shli | .shri | .srai => true
  | _ => false

/-- OP and operand bits of an operation (the tables of R531 to R546). -/
def Op.bits : Op → Nat
  | .nop => 0
  | .alu f rd ra rb => packN [(24, f.code), (14, rd.toNat), (8, ra.toNat), (2, rb.toNat)]
  | .aluI f rd ra imm => packN [(24, f.code), (14, rd.toNat), (8, ra.toNat), (0, imm.toNat)]
  | .ldi rd imm => packN [(24, 0x18), (14, rd.toNat), (0, imm.toNat)]
  | .ldih rd imm => packN [(24, 0x19), (14, rd.toNat), (0, imm.toNat)]
  | .lidx rd level => packN [(24, 0x1A), (14, rd.toNat), (0, level.toNat)]
  | .mul f rd ra rb => packN [(24, f.code), (14, rd.toNat), (8, ra.toNat), (2, rb.toNat)]
  | .muli rd ra imm => packN [(24, 0x24), (14, rd.toNat), (8, ra.toNat), (0, imm.toNat)]
  | .tmac z a ra rb => packN [(24, if z then 0x41 else 0x40), (18, a.toNat), (12, ra.toNat), (6, rb.toNat)]
  | .trq a ra sh relu => packN [(24, 0x42), (18, a.toNat), (12, ra.toNat), (7, sh.toNat), (6, b2n relu)]
  | .tst32 a ra => packN [(24, 0x43), (18, a.toNat), (12, ra.toNat)]
  | .tld32 a ra => packN [(24, 0x44), (18, a.toNat), (12, ra.toNat)]
  | .mem k post rd ra imm => packN [(24, (if post then 0x68 else 0x60) + k.code), (14, rd.toNat), (8, ra.toNat), (0, imm.toNat)]
  | .prb rd index => packN [(24, 0x80), (14, rd.toNat), (0, index.toNat)]
  | .prbx rd ra imm => packN [(24, 0x81), (14, rd.toNat), (8, ra.toNat), (0, imm.toNat)]
  | .pst rs index => packN [(24, 0x82), (14, rs.toNat), (0, index.toNat)]
  | .pstx rs ra imm => packN [(24, 0x83), (14, rs.toNat), (8, ra.toNat), (0, imm.toNat)]
  | .dbset t b => packN [(24, 0xA0), (19, b2n t), (0, b.toNat)]
  | .dbsetr t ra => packN [(24, 0xA1), (19, b2n t), (8, ra.toNat)]
  | .dbclr t ra => packN [(24, 0xA2), (19, b2n t), (8, ra.toNat)]
  | .ksig ra rb => packN [(24, 0xA3), (8, ra.toNat), (2, rb.toNat)]
  | .slog ra rb => packN [(24, 0xA4), (8, ra.toNat), (2, rb.toNat)]
  | .vack ra => packN [(24, 0xA5), (8, ra.toNat)]
  | .railok => packN [(24, 0xA6)]
  | .pset pd c ra rb => packN [(24, 0xC0), (17, pd.toNat), (14, c.toNat), (8, ra.toNat), (2, rb.toNat)]
  | .pseti pd c ra imm => packN [(24, 0xC1), (17, pd.toNat), (14, c.toNat), (8, ra.toNat), (0, imm.toNat)]
  | .plog pd op pa pb => packN [(24, 0xC2), (17, pd.toNat), (15, op.toNat), (12, pa.toNat), (9, pb.toNat)]
  | .loop t b => packN [(24, 0xC3), (10, t.toNat), (0, b.toNat)]
  | .rowEnd => packN [(24, 0xC4)]

/-- The slot word of a predicated operation. -/
def slotWord (pr : Pred) (op : Op) : BitVec 32 := BitVec.ofNat 32 (op.bits + packN [(23, b2n pr.neg), (20, pr.p.toNat)])

def aluOf (c : Nat) : Option Alu :=
  [Alu.add, .sub, .and, .or, .xor, .shl, .shr, .sra, .min, .max, .minu, .maxu, .adds, .subs].find? fun f => f.code = c
def aluIOf (c : Nat) : Option AluI := [AluI.addi, .andi, .shli, .shri, .srai].find? fun f => f.code = c
def mulOf (c : Nat) : Option MulOp := [MulOp.mul, .mulh, .qmul, .qmac].find? fun f => f.code = c
def memOf (c : Nat) : Option MemKind := [MemKind.ld64, .ld32s, .ld32u, .ld8s, .st64, .st32, .st16, .st8].find? fun f => f.code = c

/-- The operation in a word of slot `slot`: none for an opcode that the slot does not have or a nonzero bit where the table has zero (R533).
The operand bits of NOP have no table, so any value is taken. -/
def opOf (slot : Nat) (w : BitVec 32) : Option Op :=
  let c := (field w 24 8).toNat
  let rd : BitVec 6 := field w 14 6
  let ra : BitVec 6 := field w 8 6
  let rb : BitVec 6 := field w 2 6
  let imm : BitVec 8 := field w 0 8
  let zero (lo n : Nat) : Bool := field w lo n = 0
  let whenZ (b : Bool) (o : Op) : Option Op := if b then some o else none
  if c = 0 then some .nop
  else if slot < 2 then
    if c = 0x18 then some (.ldi rd (field w 0 14))
    else if c = 0x19 then some (.ldih rd (field w 0 14))
    else if c = 0x1A then whenZ (zero 2 12) (.lidx rd (field w 0 2))
    else match aluOf c with
      | some f => whenZ (zero 0 2) (.alu f rd ra rb)
      | none => match aluIOf c with
        | some f => whenZ (!f.shifts || zero 6 2) (.aluI f rd ra imm)
        | none => none
  else if slot = 2 then
    if c = 0x24 then some (.muli rd ra imm)
    else match mulOf c with
      | some f => whenZ (zero 0 2) (.mul f rd ra rb)
      | none => none
  else if slot = 3 then
    let a : BitVec 2 := field w 18 2
    let ta : BitVec 6 := field w 12 6
    if c = 0x40 then whenZ (zero 0 6) (.tmac false a ta (field w 6 6))
    else if c = 0x41 then whenZ (zero 0 6) (.tmac true a ta (field w 6 6))
    else if c = 0x42 then whenZ (zero 0 6) (.trq a ta (field w 7 5) (bit w 6))
    else if c = 0x43 then whenZ (zero 0 12) (.tst32 a ta)
    else if c = 0x44 then whenZ (zero 0 12) (.tld32 a ta)
    else none
  else if slot = 4 then
    if 0x60 ≤ c ∧ c < 0x68 then (memOf (c - 0x60)).map fun k => .mem k false rd ra imm
    else if 0x68 ≤ c ∧ c < 0x70 then (memOf (c - 0x68)).map fun k => .mem k true rd ra imm
    else none
  else if slot = 5 then
    if c = 0x80 then some (.prb rd (field w 0 14))
    else if c = 0x81 then some (.prbx rd ra imm)
    else if c = 0x82 then some (.pst rd (field w 0 14))
    else if c = 0x83 then some (.pstx rd ra imm)
    else none
  else if slot = 6 then
    if c = 0xA0 then whenZ (zero 5 14) (.dbset (bit w 19) (field w 0 5))
    else if c = 0xA1 then whenZ (zero 14 5 && zero 0 8) (.dbsetr (bit w 19) ra)
    else if c = 0xA2 then whenZ (zero 14 5 && zero 0 8) (.dbclr (bit w 19) ra)
    else if c = 0xA3 then whenZ (zero 14 6 && zero 0 2) (.ksig ra rb)
    else if c = 0xA4 then whenZ (zero 14 6 && zero 0 2) (.slog ra rb)
    else if c = 0xA5 then whenZ (zero 14 6 && zero 0 8) (.vack ra)
    else if c = 0xA6 then whenZ (zero 0 20) .railok
    else none
  else if slot = 7 then
    if c = 0xC0 then whenZ (zero 0 2) (.pset (field w 17 3) (field w 14 3) ra rb)
    else if c = 0xC1 then some (.pseti (field w 17 3) (field w 14 3) ra imm)
    else if c = 0xC2 then whenZ (zero 0 9) (.plog (field w 17 3) (field w 15 2) (field w 12 3) (field w 9 3))
    else if c = 0xC3 then whenZ (zero 20 4) (.loop (field w 10 10) (field w 0 10))
    else if c = 0xC4 then whenZ (zero 20 4 && zero 0 20) .rowEnd
    else none
  else none

/-- Predicate bits of a slot word. -/
def predOf (w : BitVec 32) : Pred := { neg := bit w 23, p := field w 20 3 }

/-- A slot's operation, as it issues. -/
structure SlotOp where
  slot : Nat
  pr : Pred := {}
  op : Op

/-- What stops issue: the slot and the kind of R565. -/
abbrev RowFault := Nat × Nat

/-- The eight operations of a stitch, or the first slot that makes it illegal, with the kind of R565: 1 where the program memory holds no
correctable word, else 0 (R533). -/
def stitchOps (w : BitVec 256) (bad : BitVec 8) : Except RowFault (List SlotOp) :=
  (List.range 8).foldr (fun k r =>
    let x : BitVec 32 := field w (32 * k) 32
    match (if bit bad k then none else opOf k x) with
    | none => .error (k, b2n (bit bad k))
    | some op => r.map fun l => { slot := k, pr := predOf x, op := op } :: l) (.ok [])

/-! ### Arithmetic (R536, R537) -/

def sat64 (v : Int) : W64 := BitVec.ofInt 64 (max (-(2 ^ 63)) (min v (2 ^ 63 - 1)))

def Alu.eval (f : Alu) (a b : W64) : W64 :=
  match f with
  | .add => a + b
  | .sub => a - b
  | .and => a &&& b
  | .or => a ||| b
  | .xor => a ^^^ b
  | .shl => a <<< (field b 0 6).toNat
  | .shr => a >>> (field b 0 6).toNat
  | .sra => a.sshiftRight (field b 0 6).toNat
  | .min => if a.toInt ≤ b.toInt then a else b
  | .max => if a.toInt ≤ b.toInt then b else a
  | .minu => if a.toNat ≤ b.toNat then a else b
  | .maxu => if a.toNat ≤ b.toNat then b else a
  | .adds => sat64 (a.toInt + b.toInt)
  | .subs => sat64 (a.toInt - b.toInt)

def AluI.eval (f : AluI) (a : W64) (imm : BitVec 8) : W64 :=
  match f with
  | .addi => a + imm.signExtend 64
  | .andi => a &&& imm.setWidth 64
  | .shli => a <<< (field imm 0 6).toNat
  | .shri => a >>> (field imm 0 6).toNat
  | .srai => a.sshiftRight (field imm 0 6).toNat

/-- The rounded Q16.16 product, before saturation (R537). -/
def qProduct (a b : W64) : Int := (a.toInt * b.toInt + 2 ^ 15) / 2 ^ 16

def MulOp.eval (f : MulOp) (d a b : W64) : W64 :=
  match f with
  | .mul => a * b
  | .mulh => BitVec.ofInt 64 (a.toInt * b.toInt / 2 ^ 64)
  | .qmul => sat64 (qProduct a b)
  | .qmac => sat64 (d.toInt + (sat64 (qProduct a b)).toInt)

/-- The conditions of PSET and PSETI (R546). -/
def condition (c : BitVec 3) (a b : W64) : Bool :=
  match c.toNat with
  | 0 => a = b
  | 1 => a ≠ b
  | 2 => a.toInt < b.toInt
  | 3 => b.toInt ≤ a.toInt
  | 4 => a.toNat < b.toNat
  | 5 => b.toNat ≤ a.toNat
  | 6 => a &&& b ≠ 0
  | _ => a &&& b = 0

/-- PLOG's operators. -/
def plogic (op : BitVec 2) (a b : Bool) : Bool :=
  match op.toNat with | 0 => a && b | 1 => a || b | 2 => a != b | _ => a && !b

/-! ### Tiles (R538) -/

/-- A 2,048-bit accumulator from its 64 elements. -/
def accOf (f : Nat → BitVec 32) : BitVec 2048 := BitVec.ofNat 2048 (packN ((List.range 64).map fun i => (32 * i, (f i).toNat)))

/-- The product of two INT8 tiles, 32-bit wrapping sums. -/
def tileProduct (a b : List Byte) : BitVec 2048 :=
  accOf fun e =>
    let i := e / 8
    let j := e % 8
    (List.range 8).foldl (fun (s : BitVec 32) k => s + (a.getD (8 * i + k) 0).signExtend 32 * (b.getD (8 * k + j) 0).signExtend 32) 0

/-- One element of TRQ. -/
def requantise (v : BitVec 32) (sh : Nat) (relu : Bool) : Byte :=
  let r := (v.toInt + (if sh = 0 then 0 else 2 ^ (sh - 1))) / 2 ^ sh
  let q := max (-128) (min r 127)
  BitVec.ofInt 8 (if relu then max 0 q else q)

/-! ### What one operation does -/

def RowEngine.reg (x : RowEngine) (r : BitVec 6) : W64 := SMap.get 0 x.regs r.toNat
def RowEngine.acc (x : RowEngine) (a : BitVec 2) : BitVec 2048 := SMap.get 0 x.accs a.toNat
def RowEngine.pred (x : RowEngine) (p : BitVec 3) : Bool := p = 0 || bit x.preds p.toNat
def RowEngine.hdr (x : RowEngine) (b : Bool) : RowHdr := if b then x.hdr1 else x.hdr0

/-- A row-memory address: bits [17:0], aligned to `w` bytes (R538, R541). -/
def rowAddr (v : W64) (w : Nat) : Nat := (field v 0 18).toNat / w * w

def MemKind.width : MemKind → Nat
  | .ld64 | .st64 => 8 | .ld32s | .ld32u | .st32 => 4 | .st16 => 2 | .ld8s | .st8 => 1

/-- The loaded value, none for a store. -/
def MemKind.load (k : MemKind) (bs : List Byte) : Option W64 :=
  match k with
  | .ld64 => some (ofLeBytes 64 bs)
  | .ld32s => some ((ofLeBytes 32 bs).signExtend 64)
  | .ld32u => some ((ofLeBytes 32 bs).setWidth 64)
  | .ld8s => some ((ofLeBytes 8 bs).signExtend 64)
  | _ => none

/-- The stitch address lies in the active bank's calibration range. -/
def RowEngine.inCal (x : RowEngine) : Bool :=
  let h := x.hdr x.bank
  h.calFirst.toNat ≤ x.pc && x.pc < h.calFirst.toNat + h.calCount.toNat

/-- A sensor command word whose operation is a calibrate one. -/
def calWord (v : W64) : Bool := field v 9 2 = 1 || field v 9 2 = 2

/-- A staging word exists (R553). -/
def stagingWord (i : Nat) : Bool := i < 0x58 || (0x60 ≤ i && i < 0xA0) || (0x100 ≤ i && i < 0x200)

/-- A staging write: the word that it stages, and whether R556 converted it. -/
def RowEngine.staging (x : RowEngine) (i : Nat) (v : W64) : Option (RowWrite × Bool) :=
  if ¬ stagingWord i then none
  else if 0x40 ≤ i ∧ i < 0x58 ∧ calWord v ∧ ¬ x.inCal then some (.stage i (putField v 9 2 0), true)
  else some (.stage i v, false)

/-- The writes of an operation, each with its latency (R527, R536 to R543, R546); reads find the row-memory code as `err` says. -/
def RowEngine.writes (x : RowEngine) (op : Op) (err : MemErr) : List (Nat × RowWrite) :=
  let bad : Bool := err = .uncorrectable
  match op with
  | .alu f rd ra rb => [(1, .scalar rd (f.eval (x.reg ra) (x.reg rb)))]
  | .aluI f rd ra imm => [(1, .scalar rd (f.eval (x.reg ra) imm))]
  | .ldi rd imm => [(1, .scalar rd (imm.signExtend 64))]
  | .ldih rd imm => [(1, .scalar rd ((x.reg rd <<< 14) ||| imm.setWidth 64))]
  | .lidx rd level => [(1, .scalar rd (match x.loops[level.toNat]? with | some l => BitVec.ofNat 64 l.index | none => 0))]
  | .mul f rd ra rb => [(3, .scalar rd (f.eval (x.reg rd) (x.reg ra) (x.reg rb)))]
  | .muli rd ra imm => [(3, .scalar rd (x.reg ra * imm.signExtend 64))]
  | .tmac z a ra rb =>
    let p := if bad then 0 else tileProduct (Mem.read 0 x.mem (rowAddr (x.reg ra) 64) 64) (Mem.read 0 x.mem (rowAddr (x.reg rb) 64) 64)
    [(4, if z then .acc a p else .accAdd a p)]
  | .trq a ra sh relu =>
    let v := x.acc a
    [(4, .mem (rowAddr (x.reg ra) 64) ((List.range 64).map fun i => requantise (field v (32 * i) 32) sh.toNat relu))]
  | .tst32 a ra => [(4, .mem (rowAddr (x.reg ra) 256) (leBytes 256 (x.acc a)))]
  | .tld32 a ra => [(4, .acc a (if bad then 0 else ofLeBytes 2048 (Mem.read 0 x.mem (rowAddr (x.reg ra) 256) 256)))]
  | .mem k post rd ra imm =>
    let step : W64 := imm.signExtend 64 * BitVec.ofNat 64 k.width
    let a := rowAddr (if post then x.reg ra else x.reg ra + step) k.width
    (match k.load (Mem.read 0 x.mem a k.width) with
      | some v => [(3, .scalar rd (if bad then 0 else v))]
      | none => [(3, .mem a (leBytes k.width (x.reg rd)))]) ++
    (if post then [(1, .scalar ra (x.reg ra + step))] else [])
  | .prb rd index => [(2, .scalar rd (if index.toNat < 4096 then SMap.get 0 x.snap index.toNat else 0))]
  | .prbx rd ra imm =>
    let i := (x.reg ra + imm.signExtend 64).toNat
    [(2, .scalar rd (if i < 4096 then SMap.get 0 x.snap i else 0))]
  | .pst rs index => match x.staging index.toNat (x.reg rs) with | some w => [(2, w.1)] | none => []
  | .pstx rs ra imm => match x.staging (x.reg ra + imm.signExtend 64).toNat (x.reg rs) with | some w => [(2, w.1)] | none => []
  | .pset pd c ra rb => [(1, .pred pd (condition c (x.reg ra) (x.reg rb)))]
  | .pseti pd c ra imm => [(1, .pred pd (condition c (x.reg ra) (imm.signExtend 64)))]
  | .plog pd op pa pb => [(1, .pred pd (plogic op (x.pred pa) (x.pred pb)))]
  | _ => []

/-- Count an event dropped beyond its capacity (R544). -/
def RowEngine.drop (x : RowEngine) : RowEngine := { x with cntDrop := x.cntDrop + 1, dropped := true }

/-- The event that an S6 operation stages, and the conversion that a staging write counts (R544, R556). -/
def RowEngine.stageEvent (x : RowEngine) (op : Op) : RowEngine :=
  let e := x.events
  let up (t : Bool) (m : BitVec 32) : RowEngine :=
    let m := m &&& 0x7FFFFFFF
    { x with events := if t then { e with up79 := e.up79 ||| m } else { e with up78 := e.up78 ||| m } }
  let conv (i : Nat) (v : W64) : RowEngine := match x.staging i v with | some (_, true) => { x with cntCalconv := x.cntCalconv + 1 } | _ => x
  match op with
  | .pst rs index => conv index.toNat (x.reg rs)
  | .pstx rs ra imm => conv (x.reg ra + imm.signExtend 64).toNat (x.reg rs)
  | .dbset t b => up t (BitVec.ofNat 32 (2 ^ b.toNat))
  | .dbsetr t ra => up t (field (x.reg ra) 0 32)
  | .dbclr t ra =>
    let m : BitVec 32 := field (x.reg ra) 0 32
    { x with events := if t then { e with down79 := e.down79 ||| m } else { e with down78 := e.down78 ||| m } }
  | .ksig ra rb => if e.ksigs.length < 16 then { x with events := { e with ksigs := e.ksigs ++ [(field (x.reg ra) 0 17, field (x.reg rb) 0 48)] } } else x.drop
  | .slog ra rb => if e.slogs.length < 8 then { x with events := { e with slogs := e.slogs ++ [(field (x.reg ra) 0 23, x.reg rb)] } } else x.drop
  | .vack ra => if e.vacks.length < 16 then { x with events := { e with vacks := e.vacks ++ [field (x.reg ra) 0 16] } } else x.drop
  | .railok => if e.railOk then x.drop else { x with events := { e with railOk := true } }
  | _ => x

/-! ### Issue -/

/-- One write takes effect. Writes to p0 are ignored (R532). -/
def RowEngine.apply (x : RowEngine) : RowWrite → RowEngine
  | .scalar r v => { x with regs := SMap.set 0 x.regs r.toNat v }
  | .pred p b => if p = 0 then x else { x with preds := putBit x.preds p.toNat b }
  | .acc a v => { x with accs := SMap.set 0 x.accs a.toNat v }
  | .accAdd a v => { x with accs := SMap.set 0 x.accs a.toNat (accOf fun i => field (x.acc a) (32 * i) 32 + field v (32 * i) 32) }
  | .mem a bs => { x with mem := Mem.write 0 x.mem a bs }
  | .stage i v => { x with stage := SMap.set 0 x.stage i v }

/-- The end of a cycle: what is due takes effect, lower slots first (R535). -/
def RowEngine.cycle (x : RowEngine) : RowEngine :=
  let fl := x.flights.map fun f => { f with left := f.left - 1 }
  let due := (List.range 8).flatMap fun k => fl.filter fun f => f.left = 0 && f.slot = k
  due.foldl (fun x f => x.apply f.write) { x with flights := fl.filter fun f => f.left ≠ 0 }

/-- Everything in flight completes (R526). -/
def RowEngine.drain (x : RowEngine) : RowEngine := x.cycle.cycle.cycle.cycle

/-- The operation executes (R532). -/
def RowEngine.holds (x : RowEngine) (pr : Pred) : Bool := x.pred pr.p != pr.neg

/-- An S7 control operation is illegal where R533 says so. -/
def RowEngine.illegalControl (x : RowEngine) : Op → Bool
  | .loop _ body =>
    let last := x.pc + body.toNat + 1
    4 ≤ x.loops.length || 1023 < last || (match x.loops with | l :: _ => decide (l.last < last) | [] => false)
  | .rowEnd => !x.loops.isEmpty
  | _ => false

/-- The next stitch after `pc`, closing loop bodies that end there (R547). -/
def nextPc : List LoopLevel → Nat → List LoopLevel × Nat
  | [], pc => ([], pc + 1)
  | l :: ls, pc =>
    if l.last = pc then (if l.index + 1 < l.trip then ({ l with index := l.index + 1 } :: ls, l.first) else nextPc ls pc)
    else (l :: ls, pc + 1)

/-- The operation reads row memory. -/
def Op.readsMem : Op → Bool
  | .tmac _ _ _ _ | .tld32 _ _ => true
  | .mem k _ _ _ _ => (k.load []).isSome
  | _ => false

/-- The operation reads row memory in this stitch: one whose predicate is false has no effect (R525). -/
def RowEngine.reads (x : RowEngine) (o : SlotOp) : Bool := o.op.readsMem && x.holds o.pr

/-- Issue one operation of a stitch: its writes go in flight, and a corrected read is counted, unless its predicate is false
(R525, R542). -/
def RowEngine.issueOp (before : RowEngine) (err : MemErr) (x : RowEngine) (o : SlotOp) : RowEngine :=
  if before.holds o.pr then
    let x := if err = .corrected ∧ o.op.readsMem then { x with cntEcc := x.cntEcc + 1 } else x
    { x.stageEvent o.op with flights := x.flights ++ (before.writes o.op err).map fun w => { left := w.1, slot := o.slot, write := w.2 } }
  else x

/-- The control operation of a stitch, if any. -/
def controlOf (ops : List SlotOp) : Op := (ops.find? fun o => match o.op with | .loop _ _ | .rowEnd => true | _ => false).elim .nop (·.op)

/-- The operations of a stitch that read an uncorrectable word deliver 0 to their destinations (R542). -/
def RowEngine.deliver (before : RowEngine) (err : MemErr) (ops : List SlotOp) (x : RowEngine) : RowEngine :=
  (ops.filter before.reads).foldl (fun x o => (before.writes o.op err).foldl (fun x w => x.apply w.2) x) x

/-- Issue a legal stitch; every operation reads the registers as they stand before it. -/
def RowEngine.issue (x : RowEngine) (ops : List SlotOp) (err : MemErr) : RowEngine × Option RowFault :=
  let c := controlOf ops
  if 1023 < x.pc then ({ x with issued := x.issued + 1 }, some (0, 0))
  else if x.illegalControl c then ({ x with issued := x.issued + 1 }, some (7, 0))
  else
    let y := ops.foldl (x.issueOp err) x
    let y := ({ y with issued := x.issued + 1 }).cycle
    let y := match c with
      | .loop t b =>
        { y with pc := x.pc + 1, loops := { trip := t.toNat + 1, index := 0, first := x.pc + 1, last := x.pc + b.toNat + 1 } :: x.loops }
      | .rowEnd => { y with pc := x.pc + 1, ended := true }
      | _ => let n := nextPc x.loops x.pc; { y with pc := n.2, loops := n.1 }
    let y := if c = .rowEnd then { y.drain with lastEnd := BitVec.ofNat 12 (15 + y.issued) } else y
    if err = .uncorrectable ∧ ops.any x.reads then (x.deliver err ops y, some ((ops.find? x.reads).elim 0 (·.slot), 2))
    else if c = .rowEnd ∧ y.issued ≠ (x.hdr x.bank).maxIssue.toNat then (y, some (7, 3))
    else (y, none)

/-- A row fault stops issue: registers and row memory keep what they then hold, and nothing in flight takes effect (R529). -/
def State.rowFault (s : State) (pc : Nat) (f : RowFault) : State :=
  ({ s with re := { s.re with fault := true, flights := [] } }).logItems 0x0C000081 [pc, f.1, f.2] govUnit

/-- One stitch of the row in progress: nothing issues before the first tick after RUN, nor after ROW_END or a row fault
(R526, R529, R561, R562). -/
def State.stitch (s : State) (ops : Except RowFault (List SlotOp)) (err : MemErr := .clean) : State :=
  if ¬ s.re.running ∨ s.re.ended ∨ s.re.fault then s
  else
    let pc := s.re.pc
    match ops with
    | .error f => ({ s with re := { s.re with issued := s.re.issued + 1 } }).rowFault pc f
    | .ok l =>
      match s.re.issue l err with
      | (x, some f) => ({ s with re := x }).rowFault pc f
      | (x, none) => { s with re := x }

/-- A stitch whose one operation stands in slot `k`. -/
def State.one (s : State) (k : Nat) (pr : Pred) (op : Op) (err : MemErr := .clean) : Host.Outcome State Fault Refusal :=
  .next (s.stitch (.ok [{ slot := k, pr := pr, op := op }]) err)

def execNop (s : State) : Host.Outcome State Fault Refusal := .next (s.stitch (.ok []))
def execGAdd (s1 : Bool) (pr : Pred) (rd ra rb : BitVec 6) (s : State) : Host.Outcome State Fault Refusal := s.one (b2n s1) pr (.alu .add rd ra rb)
def execGSub (s1 : Bool) (pr : Pred) (rd ra rb : BitVec 6) (s : State) : Host.Outcome State Fault Refusal := s.one (b2n s1) pr (.alu .sub rd ra rb)
def execGAnd (s1 : Bool) (pr : Pred) (rd ra rb : BitVec 6) (s : State) : Host.Outcome State Fault Refusal := s.one (b2n s1) pr (.alu .and rd ra rb)
def execGOr (s1 : Bool) (pr : Pred) (rd ra rb : BitVec 6) (s : State) : Host.Outcome State Fault Refusal := s.one (b2n s1) pr (.alu .or rd ra rb)
def execGXor (s1 : Bool) (pr : Pred) (rd ra rb : BitVec 6) (s : State) : Host.Outcome State Fault Refusal := s.one (b2n s1) pr (.alu .xor rd ra rb)
def execGShl (s1 : Bool) (pr : Pred) (rd ra rb : BitVec 6) (s : State) : Host.Outcome State Fault Refusal := s.one (b2n s1) pr (.alu .shl rd ra rb)
def execGShr (s1 : Bool) (pr : Pred) (rd ra rb : BitVec 6) (s : State) : Host.Outcome State Fault Refusal := s.one (b2n s1) pr (.alu .shr rd ra rb)
def execGSra (s1 : Bool) (pr : Pred) (rd ra rb : BitVec 6) (s : State) : Host.Outcome State Fault Refusal := s.one (b2n s1) pr (.alu .sra rd ra rb)
def execGMin (s1 : Bool) (pr : Pred) (rd ra rb : BitVec 6) (s : State) : Host.Outcome State Fault Refusal := s.one (b2n s1) pr (.alu .min rd ra rb)
def execGMax (s1 : Bool) (pr : Pred) (rd ra rb : BitVec 6) (s : State) : Host.Outcome State Fault Refusal := s.one (b2n s1) pr (.alu .max rd ra rb)
def execGMinu (s1 : Bool) (pr : Pred) (rd ra rb : BitVec 6) (s : State) : Host.Outcome State Fault Refusal := s.one (b2n s1) pr (.alu .minu rd ra rb)
def execGMaxu (s1 : Bool) (pr : Pred) (rd ra rb : BitVec 6) (s : State) : Host.Outcome State Fault Refusal := s.one (b2n s1) pr (.alu .maxu rd ra rb)
def execGAdds (s1 : Bool) (pr : Pred) (rd ra rb : BitVec 6) (s : State) : Host.Outcome State Fault Refusal := s.one (b2n s1) pr (.alu .adds rd ra rb)
def execGSubs (s1 : Bool) (pr : Pred) (rd ra rb : BitVec 6) (s : State) : Host.Outcome State Fault Refusal := s.one (b2n s1) pr (.alu .subs rd ra rb)
def execGAddi (s1 : Bool) (pr : Pred) (rd ra : BitVec 6) (imm : BitVec 8) (s : State) : Host.Outcome State Fault Refusal := s.one (b2n s1) pr (.aluI .addi rd ra imm)
def execGAndi (s1 : Bool) (pr : Pred) (rd ra : BitVec 6) (imm : BitVec 8) (s : State) : Host.Outcome State Fault Refusal := s.one (b2n s1) pr (.aluI .andi rd ra imm)
def execGShli (s1 : Bool) (pr : Pred) (rd ra imm : BitVec 6) (s : State) : Host.Outcome State Fault Refusal := s.one (b2n s1) pr (.aluI .shli rd ra (imm.setWidth 8))
def execGShri (s1 : Bool) (pr : Pred) (rd ra imm : BitVec 6) (s : State) : Host.Outcome State Fault Refusal := s.one (b2n s1) pr (.aluI .shri rd ra (imm.setWidth 8))
def execGSrai (s1 : Bool) (pr : Pred) (rd ra imm : BitVec 6) (s : State) : Host.Outcome State Fault Refusal := s.one (b2n s1) pr (.aluI .srai rd ra (imm.setWidth 8))
def execGLdi (s1 : Bool) (pr : Pred) (rd : BitVec 6) (imm : BitVec 14) (s : State) : Host.Outcome State Fault Refusal := s.one (b2n s1) pr (.ldi rd imm)
def execGLdih (s1 : Bool) (pr : Pred) (rd : BitVec 6) (imm : BitVec 14) (s : State) : Host.Outcome State Fault Refusal := s.one (b2n s1) pr (.ldih rd imm)
def execGLidx (s1 : Bool) (pr : Pred) (rd : BitVec 6) (level : BitVec 2) (s : State) : Host.Outcome State Fault Refusal := s.one (b2n s1) pr (.lidx rd level)
def execGMul (pr : Pred) (rd ra rb : BitVec 6) (s : State) : Host.Outcome State Fault Refusal := s.one 2 pr (.mul .mul rd ra rb)
def execGMulh (pr : Pred) (rd ra rb : BitVec 6) (s : State) : Host.Outcome State Fault Refusal := s.one 2 pr (.mul .mulh rd ra rb)
def execGQmul (pr : Pred) (rd ra rb : BitVec 6) (s : State) : Host.Outcome State Fault Refusal := s.one 2 pr (.mul .qmul rd ra rb)
def execGQmac (pr : Pred) (rd ra rb : BitVec 6) (s : State) : Host.Outcome State Fault Refusal := s.one 2 pr (.mul .qmac rd ra rb)
def execGMuli (pr : Pred) (rd ra : BitVec 6) (imm : BitVec 8) (s : State) : Host.Outcome State Fault Refusal := s.one 2 pr (.muli rd ra imm)
def execGTmac (pr : Pred) (acc : BitVec 2) (ra rb : BitVec 6) (err : MemErr) (s : State) : Host.Outcome State Fault Refusal := s.one 3 pr (.tmac false acc ra rb) err
def execGTmacz (pr : Pred) (acc : BitVec 2) (ra rb : BitVec 6) (err : MemErr) (s : State) : Host.Outcome State Fault Refusal := s.one 3 pr (.tmac true acc ra rb) err
def execGTrq (pr : Pred) (acc : BitVec 2) (ra : BitVec 6) (sh : BitVec 5) (relu : Bool) (s : State) : Host.Outcome State Fault Refusal :=
  s.one 3 pr (.trq acc ra sh relu)
def execGTst32 (pr : Pred) (acc : BitVec 2) (ra : BitVec 6) (s : State) : Host.Outcome State Fault Refusal := s.one 3 pr (.tst32 acc ra)
def execGTld32 (pr : Pred) (acc : BitVec 2) (ra : BitVec 6) (err : MemErr) (s : State) : Host.Outcome State Fault Refusal := s.one 3 pr (.tld32 acc ra) err
def execGLd64 (pr : Pred) (rd ra : BitVec 6) (imm : BitVec 8) (err : MemErr) (s : State) : Host.Outcome State Fault Refusal :=
  s.one 4 pr (.mem .ld64 false rd ra imm) err
def execGLd32s (pr : Pred) (rd ra : BitVec 6) (imm : BitVec 8) (err : MemErr) (s : State) : Host.Outcome State Fault Refusal :=
  s.one 4 pr (.mem .ld32s false rd ra imm) err
def execGLd32u (pr : Pred) (rd ra : BitVec 6) (imm : BitVec 8) (err : MemErr) (s : State) : Host.Outcome State Fault Refusal :=
  s.one 4 pr (.mem .ld32u false rd ra imm) err
def execGLd8s (pr : Pred) (rd ra : BitVec 6) (imm : BitVec 8) (err : MemErr) (s : State) : Host.Outcome State Fault Refusal :=
  s.one 4 pr (.mem .ld8s false rd ra imm) err
def execGSt64 (pr : Pred) (rd ra : BitVec 6) (imm : BitVec 8) (s : State) : Host.Outcome State Fault Refusal := s.one 4 pr (.mem .st64 false rd ra imm)
def execGSt32 (pr : Pred) (rd ra : BitVec 6) (imm : BitVec 8) (s : State) : Host.Outcome State Fault Refusal := s.one 4 pr (.mem .st32 false rd ra imm)
def execGSt16 (pr : Pred) (rd ra : BitVec 6) (imm : BitVec 8) (s : State) : Host.Outcome State Fault Refusal := s.one 4 pr (.mem .st16 false rd ra imm)
def execGSt8 (pr : Pred) (rd ra : BitVec 6) (imm : BitVec 8) (s : State) : Host.Outcome State Fault Refusal := s.one 4 pr (.mem .st8 false rd ra imm)
def execGLd64Post (pr : Pred) (rd ra : BitVec 6) (imm : BitVec 8) (err : MemErr) (s : State) : Host.Outcome State Fault Refusal :=
  s.one 4 pr (.mem .ld64 true rd ra imm) err
def execGLd32sPost (pr : Pred) (rd ra : BitVec 6) (imm : BitVec 8) (err : MemErr) (s : State) : Host.Outcome State Fault Refusal :=
  s.one 4 pr (.mem .ld32s true rd ra imm) err
def execGLd32uPost (pr : Pred) (rd ra : BitVec 6) (imm : BitVec 8) (err : MemErr) (s : State) : Host.Outcome State Fault Refusal :=
  s.one 4 pr (.mem .ld32u true rd ra imm) err
def execGLd8sPost (pr : Pred) (rd ra : BitVec 6) (imm : BitVec 8) (err : MemErr) (s : State) : Host.Outcome State Fault Refusal :=
  s.one 4 pr (.mem .ld8s true rd ra imm) err
def execGSt64Post (pr : Pred) (rd ra : BitVec 6) (imm : BitVec 8) (s : State) : Host.Outcome State Fault Refusal := s.one 4 pr (.mem .st64 true rd ra imm)
def execGSt32Post (pr : Pred) (rd ra : BitVec 6) (imm : BitVec 8) (s : State) : Host.Outcome State Fault Refusal := s.one 4 pr (.mem .st32 true rd ra imm)
def execGSt16Post (pr : Pred) (rd ra : BitVec 6) (imm : BitVec 8) (s : State) : Host.Outcome State Fault Refusal := s.one 4 pr (.mem .st16 true rd ra imm)
def execGSt8Post (pr : Pred) (rd ra : BitVec 6) (imm : BitVec 8) (s : State) : Host.Outcome State Fault Refusal := s.one 4 pr (.mem .st8 true rd ra imm)
def execGPrb (pr : Pred) (rd : BitVec 6) (index : BitVec 14) (s : State) : Host.Outcome State Fault Refusal := s.one 5 pr (.prb rd index)
def execGPrbx (pr : Pred) (rd ra : BitVec 6) (imm : BitVec 8) (s : State) : Host.Outcome State Fault Refusal := s.one 5 pr (.prbx rd ra imm)
def execGPst (pr : Pred) (rs : BitVec 6) (index : BitVec 14) (s : State) : Host.Outcome State Fault Refusal := s.one 5 pr (.pst rs index)
def execGPstx (pr : Pred) (rs ra : BitVec 6) (imm : BitVec 8) (s : State) : Host.Outcome State Fault Refusal := s.one 5 pr (.pstx rs ra imm)
def execGDbset (pr : Pred) (target : Bool) (bell : BitVec 5) (s : State) : Host.Outcome State Fault Refusal := s.one 6 pr (.dbset target bell)
def execGDbsetr (pr : Pred) (target : Bool) (ra : BitVec 6) (s : State) : Host.Outcome State Fault Refusal := s.one 6 pr (.dbsetr target ra)
def execGDbclr (pr : Pred) (target : Bool) (ra : BitVec 6) (s : State) : Host.Outcome State Fault Refusal := s.one 6 pr (.dbclr target ra)
def execGKsig (pr : Pred) (ra rb : BitVec 6) (s : State) : Host.Outcome State Fault Refusal := s.one 6 pr (.ksig ra rb)
def execGSlog (pr : Pred) (ra rb : BitVec 6) (s : State) : Host.Outcome State Fault Refusal := s.one 6 pr (.slog ra rb)
def execGVack (pr : Pred) (ra : BitVec 6) (s : State) : Host.Outcome State Fault Refusal := s.one 6 pr (.vack ra)
def execGRailok (pr : Pred) (s : State) : Host.Outcome State Fault Refusal := s.one 6 pr .railok
def execGPset (pr : Pred) (pd cond : BitVec 3) (ra rb : BitVec 6) (s : State) : Host.Outcome State Fault Refusal := s.one 7 pr (.pset pd cond ra rb)
def execGPseti (pr : Pred) (pd cond : BitVec 3) (ra : BitVec 6) (imm : BitVec 8) (s : State) : Host.Outcome State Fault Refusal := s.one 7 pr (.pseti pd cond ra imm)
def execGPlog (pr : Pred) (pd : BitVec 3) (lop : BitVec 2) (pa pb : BitVec 3) (s : State) : Host.Outcome State Fault Refusal := s.one 7 pr (.plog pd lop pa pb)
def execGLoop (trip body : BitVec 10) (s : State) : Host.Outcome State Fault Refusal := s.one 7 {} (.loop trip body)
def execGRowEnd (s : State) : Host.Outcome State Fault Refusal := s.one 7 {} .rowEnd
def execIllegalStitch (word : BitVec 256) (bad : BitVec 8) (s : State) : Host.Outcome State Fault Refusal := .next (s.stitch (stitchOps word bad))

end Sys2Proof.Machine
end

