-- ==== Sys2Proof/Machine/ShippedRow.lean ====
section
/-! DEFINITION. The shipped row program: what it computes from the snapshot of a row and what it stages (R575 to R589, R594; log entry 49). Its
image's stitches, tensors and row-memory layout are the image's own and open here; the rules say what a row of it does. -/
namespace Sys2Proof.Machine

/-- What the program reads: the snapshot, the sensor offsets of TRIM, row memory and what it kept from the last row. -/
structure ShipIn where
  snap : SMap W64
  off : Nat → BitVec 12
  mem : Mem
  vars : ShipVars

def ShipIn.word (x : ShipIn) (i : Nat) : W64 := SMap.get 0 x.snap i
/-- The row number (R549). -/
def ShipIn.row (x : ShipIn) : Nat := (x.word 0x001).toNat
/-- A field of parameter-page word `i` (R576). -/
def ShipIn.page (x : ShipIn) (i lo n : Nat) : Nat := (field (x.word (0xA00 + i)) lo n).toNat
/-- An open quantity of this row. -/
def ShipIn.unstated (x : ShipIn) (k n : Nat) : Int := Config.shipOpen k n x.row

/-! ### Sensors (R573 to R575) -/

/-- The sensor map entry of address `a` (R574). -/
def ShipIn.entry (x : ShipIn) (a : Nat) : BitVec 32 := BitVec.ofNat 32 (x.page (a / 2) (32 * (a % 2)) 32)
def mapKind (e : BitVec 32) : Nat := (field e 0 3).toNat
def mapRegion (e : BitVec 32) : Nat := (field e 3 6).toNat
def mapPart (e : BitVec 32) : Nat := (field e 9 6).toNat
def mapPeriod (e : BitVec 32) : Nat := (field e 15 8).toNat
def mapAlert (e : BitVec 32) : Bool := bit e 23
def mapCal (e : BitVec 32) : Bool := bit e 24

/-- Addresses whose entry satisfies `keep`, in address order. -/
def ShipIn.mapped (x : ShipIn) (keep : BitVec 32 → Bool) : List Nat := (List.range 256).filter fun a => keep (x.entry a)
/-- Sensors of a kind that serve a region. -/
def ShipIn.serving (x : ShipIn) (kind r : Nat) : List Nat := x.mapped fun e => mapKind e = kind && mapRegion e = r
/-- A reading with its TRIM offset applied. -/
def ShipIn.reading (x : ShipIn) (a : Nat) : BitVec 16 := field (x.word (0x100 + a)) 0 16 + (x.off a).signExtend 16
def ShipIn.fresh (x : ShipIn) (a : Nat) : Bool := bit (x.word (0x100 + a)) 19

/-- The highest thermal reading of the sensors, 1/64 °C. -/
def ShipIn.hottest (x : ShipIn) (as : List Nat) : Option Int := (as.map fun a => (x.reading a).toInt).max?

/-- Sensor commands of the row's schedule, and the program's turns after it (R575). Turns kept from earlier rows come before those of this row. -/
def ShipIn.schedule (x : ShipIn) (slots : List Nat) : List (Nat × Nat) × ShipVars :=
  let y := x.vars
  let alerts := if bit (x.word 0x011) 32 then x.mapped fun e => mapAlert e && (mapKind e = 1 || mapKind e = 2) else []
  let due := (x.mapped fun e => mapKind e ≠ 0 && mapPeriod e ≠ 0).filter fun a => SMap.get 0 y.turn a ≤ x.row
  let kept := bitsSet y.waiting
  let turns := (kept ++ due.filter fun a => !kept.contains a).filter fun a => !(alerts.take slots.length).contains a
  let free := slots.length - alerts.length
  ((slots.zip (alerts ++ turns)),
    { y with turn := due.foldl (fun m a => SMap.set 0 m a (x.row + mapPeriod (x.entry a))) y.turn, waiting := ofBits 256 (turns.drop free) })

/-- The calibrate command of the row: of the sensors marked CAL, one at a time, a start and then a read. -/
def ShipIn.calibrate (x : ShipIn) (slots : List Nat) (y : ShipVars) : Option (Nat × W64) × ShipVars :=
  let cals := x.mapped fun e => mapKind e ≠ 0 && mapCal e
  match slots, cals[y.calAt % cals.length]? with
  | k :: _, some a =>
    (some (k, pack [(11, a), (9, if y.calRead then 2 else 1), (20, 1)]), { y with calRead := !y.calRead, calAt := if y.calRead then y.calAt + 1 else y.calAt })
  | _, _ => (none, y)

/-- Calibrated values: the fresh readings that answer a calibrate read (R550). -/
def ShipIn.learnCal (x : ShipIn) : ShipVars :=
  { x.vars with calVal := ((x.mapped fun e => mapKind e ≠ 0 && mapCal e).filter fun a => x.fresh a && bit (x.word (0x100 + a)) 20).foldl (fun m a => SMap.put m a (x.reading a)) x.vars.calVal }

/-! ### A region's quantities (R578, R580, R582) -/

/-- Currents are held in 1/32 A · 2^-16, so that the Q16.16 output scale stays exact. -/
def ampOne : Int := 65536
/-- One watt in mV · (1/32 A · 2^-16). -/
def wattOne : Int := 1000 * 32 * 65536

structure ShipRegion where
  n : Nat
  word : W64                          -- region state word
  temp : Int                          -- highest thermal reading, 1/64 °C
  amps : Int                          -- measured current, 1/32 A
  dom : Option Nat                    -- d of R582
  drives : Bool                       -- the predictor drives it (R581)
  cur : Int                           -- i of R582

def ShipRegion.step (g : ShipRegion) : Nat := (field g.word 0 6).toNat
def ShipRegion.mv (g : ShipRegion) : Int := ((field g.word 32 16).toNat : Int)
/-- Released and not failed. -/
def ShipRegion.on (g : ShipRegion) : Bool := bit g.word 7 && !bit g.word 9
def ShipRegion.powering (g : ShipRegion) : Bool := bit g.word 8

def ShipIn.siteMap (x : ShipIn) (r : Nat) : BitVec 24 := BitVec.ofNat 24 (x.page (0x0C0 + r) 0 24)
def ShipIn.stackMap (x : ShipIn) (r : Nat) : BitVec 16 := BitVec.ofNat 16 (x.page (0x0C0 + r) 24 16)

def ShipIn.temp (x : ShipIn) (r : Nat) : Int := (x.hottest (x.serving 1 r)).getD (x.unstated 0 r)
def ShipIn.amps (x : ShipIn) (r : Nat) : Int := ((x.serving 4 r).map fun a => ((x.reading a).toNat : Int)).sum
/-- Droop events and the deepest droop, summed over the detectors (R573). -/
def ShipIn.droops (x : ShipIn) (as : List Nat) : Nat × Nat :=
  ((as.map fun a => (field (x.reading a) 8 8).toNat).sum, (as.map fun a => (field (x.reading a) 0 8).toNat).sum)

/-- d of R582: the partition of the VALID current marker in domains 0 to 63 of the lowest-numbered site of the region that holds one. -/
def ShipIn.dom (x : ShipIn) (r : Nat) : Option Nat :=
  (bitsSet (x.siteMap r)).findSome? fun n =>
    let w := x.word (0x800 + 16 * n)
    if bit w 63 ∧ (field w 56 7).toNat < 64 then some (field w 56 7).toNat else none

/-- The announced markers of the region's sites by AHEAD: (AHEAD, OPERATOR[7:0]). -/
def ShipIn.announced (x : ShipIn) (r : Nat) : List (Nat × Nat) :=
  let all := (bitsSet (x.siteMap r)).flatMap fun n => (List.range 4).filterMap fun k =>
    let w1 := x.word (0x803 + 16 * n + 2 * k)
    if bit (x.word (0x802 + 16 * n + 2 * k)) 63 then some ((field w1 16 7).toNat, (field w1 0 8).toNat) else none
  (List.range 128).flatMap fun h => all.filter fun m => m.1 = h

/-- V/F voltage of step `s` for region `r`, mV. -/
def ShipIn.vf (x : ShipIn) (r s : Nat) : Int := (x.page (0x100 + s) 0 16 : Int) + 2 * (BitVec.ofNat 8 (x.page (0x080 + r) 32 8)).toInt

/-- Counter-delta input `k` of region `r`: a site counter counts for the regions of its site (R580). -/
def ShipIn.deltaInput (x : ShipIn) (k r : Nat) : Int :=
  let w := (x.page 0x15A 0 64 + 2 ^ 64 * x.page 0x15B 0 64) / 2 ^ (12 * k) % 4096
  let v := (field (x.word w) 0 48).toNat
  if 0x280 ≤ w ∧ w < 0x2E0 then (if bit (x.siteMap r) ((w - 0x280) / 4) then (v : Int) else 0) else Config.shipShare w r v

/-! ### Predictor (R579 to R581) -/

def sat8 (v : Int) : Int := max (-128) (min v 127)
def ShipIn.byteAt (x : ShipIn) (a : Nat) : Int := (SMap.get 0 x.mem a).toInt

/-- The 32 raw inputs of region `g` (R580). Rows before the window has filled are open. -/
def ShipIn.raw (x : ShipIn) (g : ShipRegion) : List Int :=
  let r := g.n
  let y := x.vars
  let past (k : Nat) (h : List (List Int)) (age : Nat) : Int := ((h[age]?).bind (·[r]?)).getD (x.unstated k (64 * age + r))
  let onStack := x.mapped fun e => mapKind e = 1 && 24 ≤ mapPart e && bit (x.stackMap r) (mapPart e - 24)
  let d := x.droops (x.serving 2 r)
  let ring := ((x.serving 3 r).map fun a => ((x.reading a).toNat : Int) - (match y.calVal.find? fun e => e.1 = a with | some e => (e.2.toNat : Int) | none => x.unstated 3 a)).sum
  let zst (lo : Nat) : Int := match g.dom with | some d => ((field (x.word (0x700 + d)) lo 8).toNat : Int) | none => x.unstated 4 (256 * lo + r)
  let ann := x.announced r
  let emb (m j : Nat) : Int := match ann[m]? with | some e => x.byteAt (Config.shipTile 4 0 0 + 4 * e.2 + j) | none => x.unstated 5 (64 * (4 * m + j) + r)
  [g.temp, g.temp - past 1 y.temps 15, (x.hottest onStack).getD (x.unstated 6 r), d.1, d.2, ring,
    g.amps, g.amps - past 2 y.amps 0, (g.amps + ((List.range 15).map (past 2 y.amps)).sum) / 16,
    g.step, (g.step : Int) - (match y.steps[r]? with | some s => (s : Int) | none => x.unstated 7 r), g.mv - x.vf r g.step] ++
  (List.range 8).map (fun k => x.deltaInput k r) ++ [zst 0, zst 8] ++ (List.range 8).map (fun j => emb (j / 4) (j % 4)) ++
  [match ann with | e :: _ => ((min 127 e.1 : Nat) : Int) | [] => 127, 64]

/-- X[r]: each raw input shifted and saturated. -/
def ShipIn.inputs (x : ShipIn) (g : ShipRegion) : List Int :=
  (x.raw g).zipIdx.map fun e => sat8 (e.1 / 2 ^ (x.page (0x158 + e.2 / 16) (4 * (e.2 % 16)) 4))

/-- Element (i, j) of an INT8 tensor and of a 32-bit bias tile in row memory (R538). -/
def ShipIn.weight (x : ShipIn) (t i j : Nat) : Int := x.byteAt (Config.shipTile t (i / 8) (j / 8) + 8 * (i % 8) + j % 8)
def ShipIn.bias (x : ShipIn) (t i j : Nat) : Int :=
  (ofLeBytes 32 (Mem.read 0 x.mem (Config.shipTile t 0 (j / 8) + 32 * (i % 8) + 4 * (j % 8)) 4)).toInt

/-- Column `j` of row `r` of a layer, a 32-bit wrapping sum. -/
def ShipIn.layer (x : ShipIn) (t r j : Nat) (xs : List Int) : BitVec 32 :=
  BitVec.ofInt 32 ((xs.zipIdx.map fun e => e.1 * x.weight t e.2 j).sum + x.bias (t + 2) r j)

/-- Y[r][0] and Y[r][1] (R579). -/
def ShipIn.predict (x : ShipIn) (g : ShipRegion) : Int × Int :=
  let h := (List.range 32).map fun j => (requantise (x.layer 0 g.n j (x.inputs g)) Config.shipShift true).toInt
  ((x.layer 1 g.n 0 h).toInt, (x.layer 1 g.n 1 h).toInt)

/-- A predicted current in 1/32 A · 2^-16: units of the output scale × 1/4 A. -/
def ShipIn.predicted (x : ShipIn) (y : Int) : Int := y * (BitVec.ofNat 32 (x.page 0x15C 0 32)).toInt * 8
/-- I_MAX of a region in the same units. -/
def ShipIn.iMax (x : ShipIn) (r : Nat) : Int := (x.page (0x080 + r) 0 16 : Int) * 8 * ampOne

/-- The last row's prediction lies beyond PRED_TOL of the measured current (R581). -/
def ShipIn.beyond (x : ShipIn) (r : Nat) (amps : Int) : Bool :=
  match x.vars.y[r]? with
  | some y => decide ((x.page 0x142 4 8 : Int) * x.iMax r < 256 * (x.predicted y - amps * ampOne).natAbs)
  | none => false

/-- Rows beyond the tolerance, and the rows for which a miss still counts; a run of 16 is a miss and begins anew. -/
def ShipIn.missNow (x : ShipIn) (r : Nat) (amps : Int) : Nat × Nat :=
  let run := if x.beyond r amps then SMap.get 0 x.vars.missRun r + 1 else 0
  if run = 16 then (0, 64) else (run, SMap.get 0 x.vars.missLeft r - 1)

/-! ### Wear (R586 to R589) -/

/-- BUDGET of a part in stress-ms. -/
def ShipIn.budget (x : ShipIn) (p : Nat) : Nat := x.page (0x198 + p) 0 16 * 14400000
/-- BASE of a part, W_INIT until Steward has written the word. -/
def ShipIn.base (x : ShipIn) (p : Nat) : Nat :=
  if x.word (0xB70 + p) = BitVec.allOnes 64 then x.page (0x198 + p) 16 16 * 14400000 else (x.word (0xB70 + p)).toNat

/-- The regions whose map names a part, in order. -/
def ShipIn.partRegions (x : ShipIn) (p : Nat) : List Nat :=
  (List.range 64).filter fun r => if p < 24 then bit (x.siteMap r) p else bit (x.stackMap r) (p - 24)

/-- The Q8.8 rate of a part in the row (R586). -/
def ShipIn.wearRate (x : ShipIn) (p : Nat) : Nat :=
  let t := (x.hottest (x.mapped fun e => mapKind e = 1 && mapPart e = p)).getD (x.unstated 8 p)
  let bT := (max 0 (min 15 ((t - 25 * 64) / 512))).toNat
  let bV := match x.partRegions p with
    | r :: _ => (max 0 (min 7 (((field (x.word (0x020 + r)) 32 16).toNat - 600 : Int) / 25))).toNat
    | [] => x.page (0x198 + p) 32 3
  min 4096 (x.page (0x160 + bT / 4) (16 * (bT % 4)) 16 * x.page (0x164 + bV / 4) (16 * (bV % 4)) 16 / 256)

/-- The accumulators of a row, and SINCE after every 65,536 of them. -/
def ShipIn.wear (x : ShipIn) (y : ShipVars) : ShipVars :=
  let parts := List.range 40
  let y := { y with accRows := y.accRows + 1
                    acc := parts.foldl (fun m p => if x.budget p = 0 then m else SMap.set 0 m p (SMap.get 0 m p + x.wearRate p)) y.acc }
  if y.accRows < 65536 then y
  else { y with accRows := 0
                since := parts.foldl (fun m p => SMap.set 0 m p (SMap.get 0 m p + SMap.get 0 y.acc p / 256000)) y.since
                acc := SMap.mapVals 0 y.acc fun _ a => a % 256000 }

/-- The accrued stress that it publishes, and a part's derate count (R586, R589). -/
def ShipIn.accrued (x : ShipIn) (y : ShipVars) (p : Nat) : Nat := x.base p + SMap.get 0 y.since p
def ShipIn.derates (x : ShipIn) (y : ShipVars) (p : Nat) : Nat :=
  let b := x.budget p
  if b = 0 ∨ 10 * x.accrued y p < 9 * b then 0 else if x.accrued y p < b then 1 else 2

/-- w of R582: the derate count of the most derated site of region `r`; and T_LIMIT in 1/64 °C, lowered by its stacks' counts (R589). -/
def ShipIn.siteDerate (x : ShipIn) (y : ShipVars) (r : Nat) : Nat := ((bitsSet (x.siteMap r)).map fun n => SMap.get 0 y.derate n).foldl max 0
def ShipIn.tLimit (x : ShipIn) (y : ShipVars) (r : Nat) : Int :=
  64 * ((x.page (0x080 + r) 16 8 : Int) - x.page 0x142 20 8 * ((bitsSet (x.stackMap r)).map fun k => SMap.get 0 y.derate (24 + k)).sum)

/-! ### Control law (R582 to R585) -/

/-- ⌊a / b⌋ − 1, 63 where the divisor is 0. -/
def quotient (a b : Int) : Int := if b = 0 then 63 else Int.fdiv a b - 1

/-- The sums of V × i: over the released regions, with P_FIXED, and over those of partition `d` (R582). -/
def ShipIn.pkgPower (x : ShipIn) (gs : List ShipRegion) : Int := (x.page 0x140 16 16 : Int) * wattOne + ((gs.filter (·.on)).map fun g => g.mv * g.cur).sum
def domPower (gs : List ShipRegion) (d : Nat) : Int := ((gs.filter fun g => g.on && g.dom = some d).map fun g => g.mv * g.cur).sum

/-- The budget of partition `d`: fields of 0.25 W. -/
def ShipIn.domBudget (x : ShipIn) (d : Nat) : Int := (x.page (0x148 + d / 4) (16 * (d % 4)) 16 : Int) * (wattOne / 4)

/-- A ratio in Q16.16 over 0.85 of its limit, open where the limit is 0. -/
def ShipIn.ratio (x : ShipIn) (k n : Nat) (a b : Int) : Int := if b = 0 then x.unstated k n else Int.fdiv (a * 65536 * 20) (17 * b)

/-- The candidates common to both controllers. -/
structure ShipCandidates where
  temp : Int
  cur : Int
  wear : Int
  part : Int
  pkg : Int
  set : Int
  up : Int
  volt : Int

def ShipIn.candidates (x : ShipIn) (y : ShipVars) (gs : List ShipRegion) (g : ShipRegion) : ShipCandidates :=
  let step : Int := g.step
  let f (lim : Int) : Int := (step + 1) * (if g.drives then 20 else 17) * lim
  let excess := g.temp - (x.tLimit y g.n - 256)
  { temp := if excess ≤ 0 then 63 else step + Int.fdiv (-excess) 32
    cur := quotient (f (x.iMax g.n)) (20 * g.cur)
    wear := ((field (x.word 0x007) 0 6).toNat : Int) - x.page 0x142 12 8 * x.siteDerate y g.n
    part := match g.dom with | some d => if x.domBudget d = 0 then 63 else quotient (f (x.domBudget d)) (20 * domPower gs d) | none => 63
    pkg := quotient (f ((x.page 0x140 0 16 : Int) * wattOne)) (20 * x.pkgPower gs)
    set := x.page (0x080 + g.n) 24 6
    up := step + x.page 0x142 0 4
    volt := match (List.range 64).reverse.find? fun s => x.vf g.n s ≤ g.mv with | some s => (s : Int) | none => -1 }

/-- E of region `g` after the reactive controller's row, and its step before the other limits. -/
def ShipIn.reactive (x : ShipIn) (y : ShipVars) (gs : List ShipRegion) (g : ShipRegion) : Int × Int :=
  let qd := match g.dom with | some d => if x.domBudget d = 0 then 0 else x.ratio 9 d (domPower gs d) (x.domBudget d) | none => 0
  let e := 65536 - max (max (x.ratio 10 g.n (g.amps * ampOne) (x.iMax g.n)) (x.ratio 11 g.n (x.pkgPower gs) ((x.page 0x140 0 16 : Int) * wattOne))) qd
  let i := max (-262144) (min 262144 (SMap.get 0 y.integral g.n + e))
  let gain (lo : Nat) : Int := (BitVec.ofNat 32 (x.page 0x141 lo 32)).toInt
  (i, (g.step : Int) + Int.fdiv (64 * (gain 0 * e + gain 32 * i)) (2 ^ 32))

/-- The step staged for a region, its LIMITER code and E (R582, R583, R585). Code 0: the reactive controller's own term set the minimum. -/
def ShipIn.control (x : ShipIn) (y : ShipVars) (gs : List ShipRegion) (g : ShipRegion) : Nat × Nat × Int :=
  let old := SMap.get 0 y.integral g.n
  if ¬ g.on then (0, 0, old)
  else
    let c := x.candidates y gs g
    let pi := x.reactive y gs g
    let l : List (Nat × Int) :=
      if g.drives then [(1, c.temp), (2, c.cur), (3, c.wear), (4, c.part), (5, c.pkg), (6, c.set), (7, c.up), (8, c.volt)]
      else [(1, c.temp), (3, c.wear), (6, c.set), (7, c.up), (8, c.volt), (0, pi.2)]
    let m := (l.map (·.2)).foldl min 63
    let code := ((l.find? fun e => e.2 = m).map (·.1)).getD 0
    let droopy := x.page 0x142 28 8 < (x.droops ((x.serving 2 g.n).filter x.fresh)).1
    ((max 0 (if droopy then min m ((g.step : Int) - 2) else m)).toNat, code, if g.drives then old else pi.1)

/-! ### The row -/

/-- What the program reads in this row. -/
def State.shipIn (s : State) : ShipIn :=
  let words := (List.range 32).map fun i => s.otp.trim (0x080 + i)
  { snap := s.re.snap, off := fun a => Config.trimOffset words a, mem := s.re.mem, vars := s.re.vars }

/-- The regions as the row finds them, with their predictions and misses. -/
def ShipIn.regions (x : ShipIn) : List (ShipRegion × (Int × Int) × (Nat × Nat)) :=
  (List.range 64).map fun r =>
    let w := x.word (0x020 + r)
    let g : ShipRegion := { n := r, word := w, temp := x.temp r, amps := x.amps r, dom := x.dom r, drives := false, cur := 0 }
    let y := x.predict g
    let m := x.missNow r g.amps
    let drives := decide (64 ≤ (field (x.word 0x002) 16 16).toNat ∧ 64 ≤ (field w 48 8).toNat ∧ m.2 = 0)
    ({ g with drives := drives, cur := if drives then x.predicted y.1 else g.amps * ampOne }, y, m)

/-- Stage a Sinter entry of the program, within S6's capacity (R544). -/
def RowEngine.stageLog (x : RowEngine) (code : BitVec 23) (v : W64) : RowEngine :=
  if x.events.slogs.length < 8 then { x with events := { x.events with slogs := x.events.slogs ++ [(code, v)] } } else x.drop

def RowEngine.put (x : RowEngine) (i : Nat) (v : W64) : RowEngine := { x with stage := SMap.set 0 x.stage i v }

/-- The target of rail `q`, none where R557 does not let it be sent at the coming seam or no region has the rail (R584). -/
def State.railTarget (s : State) (x : ShipIn) (y : ShipVars) (gs : List ShipRegion) (q : Nat) : Option Int :=
  let on := gs.filter fun g => let k := s.gov.reg g.n; k.railEn && decide (k.rail.toNat = q)
  if ¬ bit s.bnd.avsEn (q / 16) ∨ (s.gov.rail q).sentRow.any (fun n => s.row + 1 < n + 64) ∨ on.isEmpty then none
  else
    let hi := (on.map fun g =>
      (max 0 (min (min (x.page (0x080 + g.n) 24 6 : Int) (((field (x.word 0x007) 0 6).toNat : Int) - x.page 0x142 12 8 * x.siteDerate y g.n)) (g.step + 16))).toNat).foldl max 0
    let pow := on.filter (·.powering)
    if pow.isEmpty then (on.map fun g => x.vf g.n hi).max? else (pow.map fun g => x.vf g.n 0).max?

/-- Every POWERING region's rail has come within 10 mV of its start voltage. -/
def ShipIn.railsUp (x : ShipIn) (gs : List ShipRegion) : Bool := (gs.filter (·.powering)).all fun g => decide ((g.mv - x.vf g.n 0).natAbs ≤ 10)

/-- Region commands and the publication area: step, LIMITER and i (1/32 A) of region r in word 0x100 + r, accrued stress of part p in word
0x140 + p, and the mean power of partition d in word 0x1C0 + d (R583, R585, R586, R594). -/
def ShipIn.stageWords (x : ShipIn) (y : ShipVars) (rs : List (ShipRegion × Nat × Nat × Int)) (e : RowEngine) : RowEngine :=
  let e := rs.foldl (fun e r =>
    (e.put r.1.n (pack [(0, r.2.1), (6, b2n r.1.on)])).put (0x100 + r.1.n)
      (pack [(0, r.2.1), (8, r.2.2.1), (32, (BitVec.ofInt 32 (r.1.cur / ampOne)).toNat)])) e
  let e := (List.range 40).foldl (fun e p => e.put (0x140 + p) (BitVec.ofNat 64 (x.accrued y p))) e
  let mw (d : Nat) : Int := ((rs.filter fun r => r.1.on && r.1.dom = some d).map fun r => r.1.mv * r.1.amps).sum / 32
  (List.range 64).foldl (fun e d => e.put (0x1C0 + d) (BitVec.ofInt 64 (mw d))) e

/-- The row of the shipped program: it reads the snapshot, computes every region, and stages (R575 to R589). -/
def State.shipRow (s : State) : State :=
  let x := s.shipIn
  let all := x.regions
  let gs := all.map (·.1)
  -- wear first: the counts of this row lower its limits
  let y := x.wear x.learnCal
  let counts := (List.range 40).map fun p => (p, x.derates y p)
  let newly := counts.filter fun c => SMap.get 0 y.derate c.1 < c.2
  let y := { y with derate := counts.foldl (fun m c => SMap.set 0 m c.1 c.2) [] }
  let rs := gs.map fun g => (g, x.control y gs g)
  let missed := all.filter fun a => a.2.2.2 = 64
  -- schedule
  let cal := (s.re.hdr s.re.bank).calSlots
  let slot (b : Bool) : List Nat := (List.range 24).filter fun k => bit cal k = b
  let sch := { x with vars := y }.schedule (slot false)
  let cl := { x with vars := sch.2 }.calibrate (slot true) sch.2
  let words : List (Nat × W64) := sch.1.map (fun e => (e.1, pack [(11, e.2), (20, 1)])) ++ cl.1.toList
  let wave := x.word 0x005
  let up := (gs.any (·.powering)) && x.railsUp gs && wave ≠ y.railFor
  -- what the next row needs
  let z := { cl.2 with
    temps := (gs.map (·.temp) :: y.temps).take 16, amps := (gs.map (·.amps) :: y.amps).take 16, steps := gs.map (·.step), y := all.map (·.2.1.1)
    missRun := all.foldl (fun m a => SMap.set 0 m a.1.n a.2.2.1) [], missLeft := all.foldl (fun m a => SMap.set 0 m a.1.n a.2.2.2) []
    integral := rs.foldl (fun m r => SMap.set 0 m r.1.n r.2.2.2) [], railFor := if up then wave else if wave = 0 then 0 else y.railFor }
  let e := x.stageWords y rs s.re
  let e := (List.range 24).foldl (fun e k => e.put (0x40 + k) (((words.find? fun w => w.1 = k).map (·.2)).getD 0)) e
  let e := (List.range 64).foldl (fun e q => match s.railTarget x y gs q with
    | some t => e.put (0x60 + q) (pack [(0, min 65535 t.toNat), (16, 1)])
    | none => e) e
  let e := missed.foldl (fun (e : RowEngine) a => e.stageLog 1 (BitVec.ofNat 64 a.1.n)) e
  let e := newly.foldl (fun (e : RowEngine) c => e.stageLog 2 (Config.eventWord 0x0C800002 0 [c.1, c.2])) e
  let n := (s.re.hdr s.re.bank).maxIssue.toNat
  let e := if up then { e with events := { e.events with railOk := true } } else e
  { s with re := { e with vars := z, ended := true, issued := n, lastEnd := BitVec.ofNat 12 (15 + n) } }

end Sys2Proof.Machine
end

