-- ==== Sys2Proof/Machine/WeightGate.lean ====
section
/-! DEFINITION. The weight gate: packages, segment loads, ingest contexts and ranges (R189 to R217). -/
namespace Sys2Proof.Machine

/-! ### Manifest (R189, R190, R201) -/

/-- What the gate keeps of a manifest. -/
structure Manifest where
  nonce : List Byte
  chunks : List Nat

/-- One segment map: exactly the keys 1, 2 and 3. -/
def parseSegment (bs : List Byte) : Option (Nat × List Byte) := do
  let (n, bs) ← cborOf 5 bs
  let bs ← cborKey 1 bs
  let (c, bs) ← cborUint bs
  let bs ← cborKey 2 bs
  let (k, bs) ← cborUint bs
  let bs ← cborKey 3 bs
  let (t, bs) ← cborUint bs
  if n = 3 ∧ 1 ≤ c ∧ c ≤ 1048576 ∧ k ≤ 2 ∧ t < 4294967296 then some (c, bs) else none

def parseSegments : Nat → List Byte → Option (List Nat × List Byte)
  | 0, bs => some ([], bs)
  | n + 1, bs => do
    let (c, bs) ← parseSegment bs
    let (l, bs) ← parseSegments n bs
    some (c :: l, bs)

/-- A manifest under R189 and R190. -/
def parseManifest (bs : List Byte) : Option Manifest := do
  let (n, bs) ← cborOf 5 bs
  let bs ← cborKey 1 bs
  let (v, bs) ← cborUint bs
  let bs ← cborKey 2 bs
  let (nonce, bs) ← cborBytes bs
  let bs ← cborKey 3 bs
  let (label, bs) ← cborBytes bs
  let bs ← cborKey 4 bs
  let (k, bs) ← cborOf 4 bs
  if v ≠ 1 ∨ nonce.length ≠ 8 ∨ label.length = 0 ∨ 32 < label.length ∨ k = 0 ∨ 4096 < k then none
  else do
    let (l, bs) ← parseSegments k bs
    if 4294967296 < l.sum then none
    else if n = 4 then (if bs.isEmpty then some { nonce := nonce, chunks := l } else none)
    else if n = 5 then do
      let bs ← cborKey 5 bs
      let (d, bs) ← cborBytes bs
      if d.length ≤ 32768 ∧ bs.isEmpty then some { nonce := nonce, chunks := l } else none
    else none

/-- Checks 3 and 4 of R199 on the LENGTH bytes. -/
def judgeManifest (bs : List Byte) : Except Status Manifest :=
  match cborItem bs with
  | .bad => .error 0x0603
  | .short => .error St.lengthShort
  | .item r =>
    if ¬ r.isEmpty then .error St.lengthLong
    else match parseManifest bs with
      | some m => .ok m
      | none => .error 0x0603

/-! ### Accessors -/

def Wg.part (w : Wg) (d : Nat) : WgPart := SMap.get {} w.parts d
def Wg.setPart (w : Wg) (d : Nat) (x : WgPart) : Wg := { w with parts := SMap.set {} w.parts d x }
def Wg.ctx (w : Wg) (c : Nat) : WgCtx := SMap.get {} w.ctxs c
def WgPart.pkg (p : WgPart) (k : Nat) : WgPkg := SMap.get {} p.pkgs k
def WgPart.setPkg (p : WgPart) (k : Nat) (x : WgPkg) : WgPart := { p with pkgs := SMap.set {} p.pkgs k x }
def WgPart.seg (p : WgPart) (k i : Nat) : WgSeg := SMap.get {} p.segs (4096 * k + i)
def WgPart.setSeg (p : WgPart) (k i : Nat) (x : WgSeg) : WgPart := { p with segs := SMap.set {} p.segs (4096 * k + i) x }
def State.wgPart (s : State) (d : Nat) : WgPart := s.wg.part d
def State.setWgPart (s : State) (d : Nat) (x : WgPart) : State := { s with wg := s.wg.setPart d x }
def State.wgCtx (s : State) (c : Nat) : WgCtx := s.wg.ctx c
def State.setWgCtx (s : State) (c : Nat) (x : WgCtx) : State := { s with wg := { s.wg with ctxs := SMap.set {} s.wg.ctxs c x } }

/-- The context holds a command. -/
def WgCtx.busy (x : WgCtx) : Bool := decide (x ≠ {})
/-- Segment entries that a partition holds (R200). -/
def WgPart.poolUsed (p : WgPart) : Nat := (p.pkgs.map fun e => e.2.segments).sum
/-- Loaded segments of a package. -/
def WgPart.loadedSegs (p : WgPart) (k : Nat) : Nat :=
  ((List.range (p.pkg k).segments).filter fun i => (p.seg k i).loaded).length

/-- Codes hidden from callers other than Keeper (R166, R215). -/
def wgHidden : List Status := 0x0608 :: guardHidden

/-- A Sinter event of the gate (R216): partition in DOM, slot, segment and status. -/
def State.wgEvent (s : State) (code : BitVec 32) (x : WgCtx) (st : Status) : State :=
  s.logItems code [x.pkg.toNat, x.seg.toNat, st.toNat] 0 (x.dom.setWidth 8)

/-- Complete the command of a context and free the context and its stream. -/
def State.wgDone (s : State) (c : Nat) (st : Status) (result : Option W64) : State :=
  let x := s.wgCtx c
  let s := s.setWgCtx c {}
  match s.cmd.flight x.tag with
  | some f =>
    let st := hideFor f.queue wgHidden st
    let seen := match x.stream with
      | some k => if (s.stream k).tag = some x.tag then (s.stream k).f else f.seen.toNat
      | none => if x.load then 4112 * x.done else f.seen.toNat
    (s.complete { f with seen := BitVec.ofNat 32 seen } st result).endStream x.stream x.tag st
  | none => s.endStream x.stream x.tag st

/-- Change the segment entry that a context loads. -/
def State.wgSegUpd (s : State) (x : WgCtx) (f : WgSeg → WgSeg) : State :=
  let p := s.wgPart x.dom.toNat
  s.setWgPart x.dom.toNat (p.setSeg x.pkg.toNat x.seg.toNat (f (p.seg x.pkg.toNat x.seg.toNat)))

/-- End an open: the reservation ends. -/
def State.wgOpenEnd (s : State) (c : Nat) (st : Status) (result : Option W64 := none) : State :=
  let x := s.wgCtx c
  let p := s.wgPart x.dom.toNat
  let s := if x.phase = .opening then s.setWgPart x.dom.toNat (p.setPkg x.pkg.toNat { p.pkg x.pkg.toNat with reserved := false }) else s
  (s.ownDrop (.wgSource c)).wgDone c st result

/-! ### Rollback (R210, R211) -/

/-- The lines that a context has written, in increasing address. -/
def WgCtx.wroteLines (x : WgCtx) : List Addr :=
  x.wrote.flatMap fun e => (bitsSet e.2).map fun i => BitVec.ofNat 52 (4096 * (x.dst + e.1) + 64 * i)

/-- The rollback has ended: the segment leaves LOADING, the range waits for the next seam. -/
def State.wgRolledBack (s : State) (c : Nat) : State :=
  let x := s.wgCtx c
  let s := (s.ownDrop (.wgZero c)).setWgCtx c { x with phase := .release }
  let s := s.wgSegUpd x fun e => { e with loading := false }
  ({ s with wg := { s.wg with cntRollback := s.wg.cntRollback + 1 } }).wgEvent 0x06000081 x x.status

/-- Advance a rollback as far as the answers allow. -/
def State.wgRollback (s : State) (c : Nat) : State :=
  let x := s.wgCtx c
  if x.phase ≠ .rollback ∨ x.stopped then s
  else if (s.ownOf (.wgLine c)).any (·.live) then s
  else if ¬ x.zeroed then
    let s := (s.ownDrop (.wgLine c)).setWgCtx c { x with zeroed := true }
    if x.wroteLines.isEmpty then s.wgRolledBack c else s.requestAll (.wgZero c) 1 (x.dom.setWidth 7) (x.wroteLines.map fun a => (a, 0))
  else if ¬ s.ownDone (.wgZero c) then s
  else if (s.ownOf (.wgZero c)).any fun r => r.answer.any fun a => a.1 = .frozen then
    (s.ownDrop (.wgZero c)).setWgCtx c { x with stopped := true, zeroed := false }
  else s.wgRolledBack c

/-- End a load with a status other than OK: roll it back. The first failure decides. -/
def State.wgFail (s : State) (c : Nat) (st : Status) (result : Option W64 := none) : State :=
  let x := s.wgCtx c
  match x.phase with
  | .idle => s.wgDone c st result
  | .opening => s.wgOpenEnd c st result
  | .rollback | .release => s
  | _ =>
    let s := ((s.ownDrop (.wgSource c)).ownDrop (.wgDest c)).setWgCtx c { x with phase := .rollback, status := st, result := result }
    s.wgRollback c

/-- PART_THAW lets the held rollbacks of `d` go on (R211). -/
def State.wgThaw (s : State) (d : Nat) : List Nat → State
  | [] => s
  | c :: l =>
    let x := s.wgCtx c
    let s := if x.stopped ∧ x.dom.toNat = d then (s.setWgCtx c { x with stopped := false }).wgRollback c else s
    s.wgThaw d l

/-! ### WG_OPEN (R199) -/

/-- Check 1 of R199 and R202. -/
def State.wgKeyed (s : State) (d : Dom) : Bool :=
  d.toNat < 64 && ((s.part d.toNat).state = .keyed || (s.part d.toNat).state = .running) && (s.wgPart d.toNat).keyValid

/-- The manifest bytes have arrived: checks 3 to 6 and the commit. -/
def State.wgManifest (s : State) (c : Nat) (bs : List Byte) : State :=
  let x := s.wgCtx c
  let d := x.dom.toNat
  let s := s.sawBytes x.tag bs.length
  match judgeManifest bs with
  | .error st => s.wgOpenEnd c st
  | .ok m =>
    let p := s.wgPart d
    let nonce : W64 := ofLeBytes 64 m.nonce
    if ¬ s.wgKeyed (x.dom.setWidth 7) then s.wgOpenEnd c 0x0601
    else if p.pkgs.any fun e => e.2.state ≠ 0 ∧ e.2.nonce = nonce then s.wgOpenEnd c 0x0604
    else if 49152 < p.poolUsed + m.chunks.length then s.wgOpenEnd c 0x0605
    else
      let pkg : WgPkg := { state := 1, nonce := nonce, mdigest := ofLeBytes 384 (sha384 bs), segments := m.chunks.length, totalChunks := m.chunks.sum }
      let segs := m.chunks.zipIdx.foldl (fun l e => SMap.set {} l (4096 * x.pkg.toNat + e.2) ({ chunks := BitVec.ofNat 21 e.1 } : WgSeg)) p.segs
      (s.setWgPart d { p.setPkg x.pkg.toNat pkg with segs := segs }).wgOpenEnd c 0 (pack [(0, m.chunks.length), (16, m.chunks.sum)])

/-- Advance an open as far as its source allows. -/
def State.wgOpenStep (s : State) (c : Nat) : State :=
  let x := s.wgCtx c
  match s.cmd.flight x.tag with
  | none => s
  | some f =>
    let n := (Desc.length f.desc).toNat
    match x.stream with
    | some k =>
      let t := s.stream k
      if t.state ≠ .closed then s
      else if t.closeResult ≠ 0 then s.wgOpenEnd c t.closeResult
      else let r := t.take n; (s.setStream k r.2).wgManifest c r.1
    | none =>
      let l := s.ownOf (.wgSource c)
      if l.any fun r => r.answer.any fun a => a.1 ≠ .ok then s.wgOpenEnd c 0x060B
      else if ¬ s.ownDone (.wgSource c) then s
      else s.wgManifest c (spanBytes l (field (Desc.src0 f.desc) 0 52).toNat n)

/-- The context of a command. -/
def State.wgCtxOf (s : State) (t : Tag) : Option Nat := (List.range 4).find? fun c => (s.wgCtx c).busy ∧ (s.wgCtx c).tag = t

/-- WG_OPEN: checks 1 to 3 and the start of the read. -/
def wgOpen (f : Flight) (s : State) : State :=
  match s.wgCtxOf f.tag with
  | none => s
  | some c =>
    let x := s.wgCtx c
    let d := f.desc
    let dom := (Desc.dom d).toNat
    let k := (Desc.argField d 0 4).toNat
    let n := (Desc.length d).toNat
    if x.phase ≠ .idle then s
    else if ¬ s.wgKeyed (Desc.dom d) then s.wgFail c 0x0601
    else
      let p := s.wgPart dom
      if (p.pkg k).state ≠ 0 ∨ (p.pkg k).reserved then s.wgFail c 0x0602
      else if n = 0 ∨ 65536 < n then s.wgFail c 0x0603
      else
        let s := (s.setWgPart dom (p.setPkg k { p.pkg k with reserved := true })).setWgCtx c
          { x with phase := .opening, load := false, dom := Desc.dom d, pkg := BitVec.ofNat 4 k }
        if bit (Desc.src0 d) 63 then
          match s.bindStream (field (Desc.src0 d) 0 8).toNat f.tag (Desc.length d) with
          | none => s.wgOpenEnd c 0x0E01
          | some s => (s.setWgCtx c { s.wgCtx c with stream := some (field (Desc.src0 d) 0 8).toNat }).wgOpenStep c
        else s.requestSpan (.wgSource c) 65 (field (Desc.src0 d) 0 52).toNat n

/-! ### WG_LOAD (R202 to R208) -/

/-- The judgement of a load's source: none while its stream is not closed, otherwise the close result, then the bytes against the segment's
(R106, R207, R664). A memory source was judged by R202. -/
def State.wgClosed (s : State) (x : WgCtx) : Option Status :=
  match x.stream with
  | none => some 0
  | some k =>
    let t := s.stream k
    if t.state ≠ .closed then none
    else if t.closeResult ≠ 0 then some t.closeResult
    else if t.len.toNat < 4112 * x.chunks then some St.lengthShort
    else if 4112 * x.chunks < t.len.toNat then some St.lengthLong else some 0

/-- A load whose stream has closed on any other result than OK ends with it, whatever the load still waits for (R106, R664). -/
def State.wgJudge (s : State) (c : Nat) : State :=
  let x := s.wgCtx c
  match x.phase, s.wgClosed x with
  | .activation, some st | .destCheck, some st | .ingest, some st => if st ≠ 0 then s.wgFail c st else s
  | _, _ => s

/-- The ranges `a`, `a + n` and `b`, `b + m` overlap. -/
def overlaps (a n b m : Nat) : Bool := a < b + m && b < a + n

/-- WG_LOAD: the six checks of R202; the range is held at once. -/
def wgLoad (f : Flight) (s : State) : State :=
  match s.wgCtxOf f.tag with
  | none => s
  | some c =>
    let x := s.wgCtx c
    let d := f.desc
    let dom := (Desc.dom d).toNat
    let k := (Desc.argField d 0 4).toNat
    let i := (Desc.argField d 4 12).toNat
    let n := (Desc.length d).toNat
    let memory := ¬ bit (Desc.src0 d) 63
    let p := s.wgPart dom
    let q := p.pkg k
    let e := p.seg k i
    let chunks := e.chunks.toNat
    let dst := (field (Desc.dst d) 0 52).toNat
    let g := s.guard
    let held := (List.range 4).any fun j => (s.wgCtx j).rangeHeld ∧ overlaps (dst / 4096) chunks (s.wgCtx j).dst (s.wgCtx j).chunks
    if x.phase ≠ .idle then s
    else
      match firstFail [
        if ¬ s.wgKeyed (Desc.dom d) then some 0x0601 else none,
        if q.state = 0 ∨ q.reserved then some 0x0602 else none,
        if q.segments ≤ i ∨ e.loading then some 0x0606 else none,
        if memory ∧ n < 4112 * chunks then some St.lengthShort else if memory ∧ 4112 * chunks < n then some St.lengthLong else none,
        if dst % 4096 ≠ 0 ∨ ¬ g.inWindow (dst / 4096) ∨ ¬ g.inWindow (dst / 4096 + chunks - 1) ∨ held then some 0x0607 else none,
        if memory ∧ ((field (Desc.src0 d) 0 52).toNat % 4096 ≠ 0 ∨ (field (Desc.src1 d) 0 52).toNat % 64 ≠ 0) then some 0x060B else none] with
      | some st => s.wgFail c st
      | none =>
        let x : WgCtx := { x with phase := .activation, load := true, dom := Desc.dom d, pkg := BitVec.ofNat 4 k, seg := BitVec.ofNat 12 i,
                                  dst := dst / 4096, chunks := chunks, first := ((List.range i).map fun j => (p.seg k j).chunks.toNat).sum, rangeHeld := true }
        let hold (s : State) (x : WgCtx) : State := (s.setWgCtx c x).wgSegUpd x fun e => { e with loading := true }
        if memory then hold s x
        else match s.bindStream (field (Desc.src0 d) 0 8).toNat f.tag (Desc.length d) with
          | none => s.wgFail c 0x0E01
          | some s => (hold s { x with stream := some (field (Desc.src0 d) 0 8).toNat }).wgJudge c

/-- Issue the reads of the next chunk of a memory source: 64 ciphertext lines, then the line that holds its tag (R196, R197). -/
def State.wgFetch (s : State) (c : Nat) : State :=
  let x := s.wgCtx c
  if x.phase ≠ .ingest ∨ x.fetched ∨ x.chunks ≤ x.done ∨ x.stream.isSome then s
  else match s.cmd.flight x.tag with
    | none => s
    | some f =>
      let s := s.setWgCtx c { x with fetched := true }
      (s.requestSpan (.wgSource c) 65 ((field (Desc.src0 f.desc) 0 52).toNat + 4096 * x.done) 4096).requestSpan (.wgSource c) 65
        ((field (Desc.src1 f.desc) 0 52).toNat + 16 * x.done) 16

/-- A spare takes over an engine: the chunk in progress on it is fetched again (R214). Which context's chunk that is no rule says: `c` is drawn. The
chunk of a stream still stands in its buffer and needs no fetch. -/
def State.wgRefetch (s : State) (c : Nat) : State :=
  let x := s.wgCtx c
  if x.phase = .ingest ∧ x.fetched then ((s.ownDrop (.wgSource c)).setWgCtx c { x with fetched := false }).wgFetch c else s

/-- The work in flight on a fenced engine ends: the load of the drawn context `c`, where it ingests (R99, R634). -/
def State.wgRetried (s : State) (c : Nat) : State := if (s.wgCtx c).phase = .ingest then s.wgFail c St.cmdRetry else s

/-- WG_DEST_CHECK: one zero query per destination page (R204). -/
def wgDestCheck (s : State) (c : Nat) : State :=
  let x := s.wgCtx c
  if x.phase ≠ .destCheck ∨ x.queried then s
  else (s.setWgCtx c { x with queried := true }).requestAll (.wgDest c) 3 (x.dom.setWidth 7)
    ((List.range x.chunks).map fun i => (BitVec.ofNat 52 (4096 * (x.dst + i)), 0))

/-- The status of a query or a line write that was refused, or that is still RETRY after its reissues (R167, R209). -/
def wgCode (a : Resp) (code : Status) : Status := if a = .retry then 0x050C else respCode a code

/-- What an answered query says of its page. -/
def destVerdict (r : OwnReq) : Option Status :=
  match r.answer with
  | some (.ok, d) => if bit d 64 ∧ field d 72 7 = 64 then none else some 0x0608
  | some (a, _) => some (wgCode a r.code)
  | none => none

/-- Every query has been answered: the first failing page in increasing address decides (R204). -/
def State.wgDestStep (s : State) (c : Nat) : State :=
  let x := s.wgCtx c
  if x.phase ≠ .destCheck ∨ ¬ x.queried ∨ ¬ s.ownDone (.wgDest c) then s
  else match (s.ownOf (.wgDest c)).findSome? destVerdict with
    | some st => s.wgFail c st
    | none => ((s.ownDrop (.wgDest c)).setWgCtx c { x with phase := .ingest }).wgFetch c

/-- The measurement of the segment that a context has read (R193, R206). -/
def State.wgMeasure (s : State) (x : WgCtx) : BitVec 384 :=
  ofLeBytes 384 (sha384 (leBytes 48 ((s.wgPart x.dom.toNat).pkg x.pkg.toNat).mdigest ++ x.tags))

/-- Commit a segment when every chunk has passed, every line has been answered and the stream has closed on its LENGTH (R207, R208). -/
def State.wgCommit (s : State) (c : Nat) : State :=
  let x := s.wgCtx c
  let d := x.dom.toNat
  if x.phase ≠ .ingest then s
  else match s.wgClosed x with
    | none => s
    | some st =>
      if st ≠ 0 then s.wgFail c st
      else if x.done < x.chunks ∨ ¬ (s.ownOf (.wgLine c)).isEmpty then s
      else
        let p := s.wgPart d
        let e := p.seg x.pkg.toNat x.seg.toNat
        let m := s.wgMeasure x
        if e.loaded ∧ e.meas ≠ m then s.wgFail c 0x060A
        else
          let e' : WgSeg := { e with meas := m, dst := BitVec.ofNat 40 x.dst, loaded := true, loading := false, loads := satAdd e.loads 1 }
          let p := p.setSeg x.pkg.toNat x.seg.toNat e'
          let q := p.pkg x.pkg.toNat
          let q := if p.loadedSegs x.pkg.toNat = q.segments then
              { q with state := 2, pmeas := ofLeBytes 384 (sha384 ((List.range q.segments).flatMap fun i => leBytes 48 (p.seg x.pkg.toNat i).meas)) }
            else q
          ((s.setWgPart d (p.setPkg x.pkg.toNat q)).setWgCtx c
            { x with phase := .release, undo := some e, status := 0, result := pack [(0, x.chunks), (32, e'.loads.toNat)] }).wgEvent 0x06000080 x 0

/-- WG_CHUNK: the next chunk has arrived; decrypt it, check its tag, write its lines (R191, R205). -/
def wgChunk (s : State) (c : Nat) : State :=
  let x := s.wgCtx c
  let d := x.dom.toNat
  let p := s.wgPart d
  let run (s : State) (ct : List Byte) (tag : List Byte) : State :=
    let n := x.first + x.done
    let iv := leBytes 8 (p.pkg x.pkg.toNat).nonce ++ beBytes 4 (BitVec.ofNat 32 n)
    let aad := leBytes 48 (p.pkg x.pkg.toNat).mdigest ++ beBytes 4 (BitVec.ofNat 32 x.seg.toNat)
    match gcmOpen p.key iv aad ct (ofLeBytes 128 tag) with
    | none => ({ s with wg := { s.wg with cntTagfail := s.wg.cntTagfail + 1 } }).wgFail c 0x0609 (BitVec.ofNat 64 n)
    | some pt =>
      let s := (({ s with wg := { s.wg with cntChunk := s.wg.cntChunk + 1 } }).pcount x.dom.toNat 8).worked (unitKind · = 6)
      let s := s.engineWork x.tag
      let s := (s.ownDrop (.wgSource c)).setWgCtx c { x with done := x.done + 1, fetched := false, tags := x.tags ++ tag }
      let lines := (List.range 64).map fun i => (BitVec.ofNat 52 (4096 * (x.dst + x.done) + 64 * i), (ofLeBytes 512 ((pt.drop (64 * i)).take 64) : Line))
      (s.requestAll (.wgLine c) 1 (x.dom.setWidth 7) lines).wgFetch c
  if x.phase ≠ .ingest ∨ x.chunks ≤ x.done then s
  else match x.stream with
    | some k =>
      let t := s.stream k
      if t.avail < 4112 then s
      else let r := t.take 4112; run (s.setStream k r.2) (r.1.take 4096) (r.1.drop 4096)
    | none =>
      if ¬ x.fetched ∨ ¬ s.ownDone (.wgSource c) then s
      else match s.cmd.flight x.tag with
        | none => s
        | some f =>
          let l := s.ownOf (.wgSource c)
          run s (spanBytes l ((field (Desc.src0 f.desc) 0 52).toNat + 4096 * x.done) 4096)
            (spanBytes l ((field (Desc.src1 f.desc) 0 52).toNat + 16 * x.done) 16)

/-! ### Responses, streams, seams -/

/-- The answer of a gate access, RETRY after 16 reissues included (R205, R207, R209, R210). -/
def State.wgAnswer (s : State) (c : Nat) (r : OwnReq) : State :=
  let x := s.wgCtx c
  let a := (r.answer.map (·.1)).getD .refused
  let gone (s : State) : State := { s with own := s.own.erase r }
  match r.purpose with
  | .wgSource _ =>
    if x.phase = .opening then s.wgOpenStep c
    else if a ≠ .ok then s.wgFail c 0x060B else s
  | .wgDest _ => s.wgDestStep c
  | .wgLine _ =>
    if a = .ok then
      let i := r.addr.toNat / 4096 - x.dst
      let s := ((gone s).bump 15 64).setWgCtx c { x with wrote := SMap.set 0 x.wrote i (putBit (SMap.get 0 x.wrote i) (lineOf r.addr) true) }
      (s.wgCommit c).wgRollback c
    else ((gone s).wgFail c (wgCode a r.code)).wgRollback c
  | .wgZero _ => s.wgRollback c
  | _ => s

/-- A stream has closed: its consumer goes on (R664). -/
def State.wgStreamClosed (s : State) (n : Nat) : State :=
  match (List.range 4).find? fun c => (s.wgCtx c).stream = some n ∧ (s.stream n).tag = some (s.wgCtx c).tag with
  | some c => if (s.wgCtx c).phase = .opening then s.wgOpenStep c else (s.wgJudge c).wgCommit c
  | none => s

/-- A stream ends its consumer with `st` (R665, R666). -/
def State.wgStreamEnds (s : State) (n : Nat) (st : Status) : State :=
  match (List.range 4).find? fun c => (s.wgCtx c).stream = some n ∧ (s.stream n).tag = some (s.wgCtx c).tag with
  | some c => s.wgFail c st
  | none => s

/-- The seam: ranges checked since the last one become active, released ones end and their commands complete (R203, R207, R210). -/
def State.wgSeam (s : State) : List Nat → State
  | [] => s
  | c :: l =>
    let x := s.wgCtx c
    let s := match x.phase with
      | .activation => s.setWgCtx c { x with rangeActive := true, phase := .destCheck }
      | .release => s.wgDone c x.status x.result
      | _ => s
    s.wgSeam l

/-- A segment entry goes back to `e`; a package that is no longer loaded whole is OPEN without a measurement. -/
def WgPart.uncommit (p : WgPart) (k i : Nat) (e : WgSeg) : WgPart :=
  let p := p.setSeg k i { e with loading := true }
  if p.loadedSegs k = (p.pkg k).segments then p else p.setPkg k { p.pkg k with state := 1, pmeas := 0 }

/-- A reset ends what a context runs with `st`: a load that is already rolling back takes that status, and one that has committed without a
completion commits nothing after all (R33, R212, R213). -/
def State.wgReset (s : State) (c : Nat) (st : Status) : State :=
  let x := s.wgCtx c
  let x' := { x with phase := .rollback, status := st, result := none }
  match x.phase, x.undo with
  | .rollback, _ => s.setWgCtx c x'
  | .release, some e =>
    ((s.setWgPart x.dom.toNat ((s.wgPart x.dom.toNat).uncommit x.pkg.toNat x.seg.toNat e)).setWgCtx c { x' with undo := none, zeroed := false }).wgRollback c
  | .release, none => s.setWgCtx c { x with status := st, result := none }
  | _, _ => s.wgFail c st

/-- Stop every open and load of `d`, or of all partitions, with `st` (R212, R213). -/
def State.wgStop (s : State) (d : Option Nat) (st : Status) : List Nat → State
  | [] => s
  | c :: l =>
    let x := s.wgCtx c
    let s := if x.busy ∧ (d = none ∨ d = some x.dom.toNat) then s.wgReset c st else s
    s.wgStop d st l

/-- The rollbacks of `d` have ended or are held (R213). -/
def State.wgQuiet (s : State) (d : Nat) : Bool :=
  (List.range 4).all fun c => let x := s.wgCtx c; !(x.busy && x.dom.toNat = d && x.phase ≠ .idle) || x.stopped || x.phase = .release

/-- The key entries of `d` are withdrawn: held rollbacks are abandoned, every slot returns to FREE (R211, R213). -/
def State.wgTeardown (s : State) (d : Nat) : State :=
  let drop (s : State) (c : Nat) : State :=
    let x := s.wgCtx c
    if ¬ x.busy ∨ x.dom.toNat ≠ d then s
    else
      let s := (s.ownDrop (.wgZero c)).ownDrop (.wgLine c)
      (if x.phase = .rollback then s.wgEvent 0x06000081 x St.cmdAborted else s).wgDone c St.cmdAborted none
  let s := (List.range 4).foldl drop s
  s.setWgPart d { s.wgPart d with pkgs := [], segs := [], keyValid := false, key := 0 }

/-- WG_RETRY_REISSUE: an access answered RETRY at least 1 us ago is issued again (R209). -/
def wgReissue (s : State) (c : Nat) (a : Addr) : State :=
  let mine (r : OwnReq) : Bool := r.asleep && r.addr = a && (r.purpose = .wgSource c || r.purpose = .wgDest c || r.purpose = .wgLine c || r.purpose = .wgZero c)
  match s.own.findIdx? mine with
  | none => s
  | some i =>
    match s.own[i]? with
    | none => s
    | some r =>
      let s := s.at (r.since.toNat + 1000)
      State.pump 1 { s with own := s.own.set i { r with asleep := false, sent := false, behind := false, tries := r.tries + 1 } }

/-- WG_CONTEXT_START: the first waiting WGATE command takes the lowest free context (R198). -/
def wgContextStart (s : State) : State :=
  match (List.range 4).find? (fun c => ¬ (s.wgCtx c).busy), s.cmd.flights.find? (fun f => (Desc.opcode f.desc).toNat / 16 = 4 ∧ ¬ f.started) with
  | some c, some f =>
    let d := f.desc
    ({ s with cmd := s.cmd.setFlight { f with started := true } }).setWgCtx c
      { tag := f.tag, load := true, dom := Desc.dom d, pkg := Desc.argField d 0 4,
        seg := if Desc.opcode d = 0x41 then Desc.argField d 4 12 else 0 }
  | _, _ => s

def execWgOpen (tag : Tag) (s : State) : Host.Outcome State Fault Refusal := .next (s.withFlight tag 0x40 wgOpen)
def execWgLoad (tag : Tag) (s : State) : Host.Outcome State Fault Refusal := .next (s.withFlight tag 0x41 wgLoad)
def execWgContextStart (s : State) : Host.Outcome State Fault Refusal := .next (wgContextStart s)
def execWgDestCheck (ctx : BitVec 2) (s : State) : Host.Outcome State Fault Refusal := .next (wgDestCheck s ctx.toNat)
def execWgChunk (ctx : BitVec 2) (s : State) : Host.Outcome State Fault Refusal := .next (wgChunk s ctx.toNat)
def execWgRetryReissue (ctx : BitVec 2) (addr : Addr) (s : State) : Host.Outcome State Fault Refusal := .next (wgReissue s ctx.toNat addr)

/-! ### Registers -/

def WgPhase.code : WgPhase → Nat
  | .idle => 0 | .opening => 1 | .activation => 2 | .destCheck => 3 | .ingest => 4 | .commit => 5 | .rollback => 6 | .release => 7

/-- A page of partition `d` is reached by its own class P besides the listed classes. -/
def capPart (l : List Cls) : Nat → Cls → State → Bool := fun d c _ => match c with | .P p => p.toNat = d | _ => l.contains c

def wgRegs : List Reg :=
  [ { base := 0x0C00000, count := 64, allow := capPart [.K, .S, .H, .O]                                                    -- WG_PSTAT
      get := fun d _ s =>
        let p := s.wgPart d
        let n := ((List.range 4).filter fun c => (s.wgCtx c).busy ∧ (s.wgCtx c).dom.toNat = d ∧ (s.wgCtx c).phase ≠ .idle).length
        pack [(0, b2n p.keyValid), (1, p.poolUsed), (17, n)] },
    { base := 0x0C00008, count := 64, allow := capPart [.K, .S, .H, .O]                                                    -- WG_SEGSEL
      get := fun d c s => (SMap.get 0 (s.wgPart d).sel (clsNum c)).setWidth 64
      put := fun d c v m s =>
        let p := s.wgPart d
        s.setWgPart d { p with sel := SMap.set 0 p.sel (clsNum c) (mrg (SMap.get 0 p.sel (clsNum c)) 0 v m) } },
    { base := 0x0CFF000, stride := 8, count := 4, allow := capKSO                                                          -- WG_CTX
      get := fun c _ s =>
        let x := s.wgCtx c
        pack [(0, b2n x.busy), (1, x.phase.code), (4, x.dom.toNat), (11, x.pkg.toNat), (15, x.seg.toNat), (27, x.done)] },
    { base := 0x0CFF020, allow := capKSO                                                                                   -- WG_CFG
      get := fun _ _ s =>
        let out (i : Nat) : Bool := (s.vent.unitRec (unitOf 6 i)).state ≠ 0
        pack [(0, s.vent.count 6 16), (5, b2n (!out 16)), (6, 4)] },
    { base := 0x0CFF028, allow := capKSO, get := fun _ _ s => s.wg.cntChunk.setWidth 64 },
    { base := 0x0CFF030, allow := capKSO, get := fun _ _ s => s.wg.cntTagfail.setWidth 64 },
    { base := 0x0CFF038, allow := capKSO, get := fun _ _ s => s.wg.cntRollback.setWidth 64 } ]

/-- WG_SEGENT of the segment that the class selects. -/
def State.wgSegEnt (s : State) (d : Nat) (c : Cls) : BitVec 512 :=
  let p := s.wgPart d
  let sel := (SMap.get 0 p.sel (clsNum c)).toNat
  if (p.pkg (sel % 16)).segments ≤ sel / 16 then 0
  else
    let e := p.seg (sel % 16) (sel / 16)
    BitVec.ofNat 512 (packN [(0, e.meas.toNat), (384, e.dst.toNat), (448, e.chunks.toNat), (469, e.loads.toNat), (485, b2n e.loaded), (486, b2n e.loading)])

/-- WG_PKG of a slot. -/
def WgPart.pkgWord (p : WgPart) (k : Nat) : BitVec 1024 :=
  let q := p.pkg k
  BitVec.ofNat 1024 (packN [(0, q.state.toNat), (2, q.segments), (15, p.loadedSegs k), (64, q.nonce.toNat), (128, q.mdigest.toNat), (512, q.pmeas.toNat), (896, q.totalChunks)])

def wgWindows : List Window :=
  [ { base := 0x0C00040, span := 0x40, count := 64, allow := capPart [.K, .S, .H, .O]
      get := fun d o n c s => (List.range n).map fun i => field (s.wgSegEnt d c) (8 * (o + i)) 8 },
    { base := 0x0C00100, span := 0x800, count := 64, allow := capPart [.K, .S, .H, .O]
      get := fun d o n _ s => (List.range n).map fun i => field ((s.wgPart d).pkgWord ((o + i) / 128)) (8 * ((o + i) % 128)) 8 } ]

end Sys2Proof.Machine
end

