-- ==== Sys2Proof/Machine/Vent.lean ====
section
/-! DEFINITION. Vent and the Sinter log: reports, storms, targeted self-tests, darning, fences and retirement (R626 to R649, R719). -/
namespace Sys2Proof.Machine

def State.setVent (s : State) (v : Vent) : State := { s with vent := v }

/-! ### The intake (R627, R628) -/

/-- The record of a report write is well formed. -/
def reportOk (size : Nat) (d : W128) : Bool :=
  size = 16 && 1 ≤ (field d 0 8).toNat && (field d 0 8).toNat ≤ 15 && field d 47 17 = 0 &&
  ((field d 40 7).toNat ≤ 65 || (field d 40 7).toNat = 127)

/-- A write at the intake. -/
def ventReport (s : State) (h : NocHdr) (size : Nat) (d : W128) : State :=
  if h.dom ≠ 65 ∨ (24 ≤ h.site.toNat ∧ h.site.toNat ≠ 30) then s.respond h .refused
  else if ¬ reportOk size d then ({ s with vent := { s.vent with refused := satAdd s.vent.refused 1 } }).respond h .refused
  else (s.ventFrom (h.site.setWidth 6) (field d 0 8) (field d 8 16) (field d 24 16) (field d 40 7) (field d 64 64)).respond h .ok

def execVentReport (h : NocHdr) (size : BitVec 7) (data : W128) (s : State) : Host.Outcome State Fault Refusal := .next (s.posted h 0x07E0000 fun s => ventReport s h size.toNat data)

/-! ### The end of a row (R630, R631, R647) -/

/-- Append a record of the row; a row-routed one is open from then on, under the index that its entry has, or will have once the log opens. -/
def State.ventRecord (s : State) (r : VentRec) : State :=
  let waiting := s.snt.prod + BitVec.ofNat 21 s.snt.queue.length
  let s := s.logEntry {
    time := r.time, code := 0x0D0000C0, unitId := r.peer, dom := r.dom.setWidth 8, flags := 3, p0 := r.detail
    p1 := pack [(0, r.cls.toNat), (8, r.code.toNat), (24, r.reporter.toNat), (32, r.count.toNat)] }
  let idx := if s.snt.opened then s.snt.prod - 1 else waiting
  if r.cls = 8 ∨ r.cls = 10 then
    s.setVent { s.vent with opens := s.vent.opens ++ [{ handle := idx.setWidth 16, unitId := r.peer, cls := r.cls, code := r.code, rows := 0 }] }
  else s

/-- The (CLASS, CODE) pairs of the row, each once. -/
def ventPairs (l : List VentRec) : List (BitVec 8 × BitVec 16) := (l.map fun r => (r.cls, r.code)).eraseDups

/-- Reports of a pair in the row, over all peers. -/
def pairCount (l : List VentRec) (p : BitVec 8 × BitVec 16) : Nat := ((l.filter fun r => (r.cls, r.code) = p).map (·.count.toNat)).sum

/-- The peer with the most reports, the lowest identifier on a tie. -/
def suspect (l : List VentRec) (p : BitVec 8 × BitVec 16) : UnitId :=
  ((l.filter fun r => (r.cls, r.code) = p).foldl (fun (b : Nat × UnitId) r =>
    if b.1 < r.count.toNat ∨ (b.1 = r.count.toNat ∧ r.peer.toNat < b.2.toNat) then (r.count.toNat, r.peer) else b) (0, 0)).2

/-- Evaluate the storms of the row that closes. -/
def State.ventStorms (s : State) (l : List VentRec) : State :=
  let stormy := (ventPairs l).filter fun p => 16 < pairCount l p
  let s := stormy.foldl (fun s p =>
    if s.vent.storms.any fun x => (x.cls, x.code) = p then
      s.setVent { s.vent with storms := s.vent.storms.map fun x => if (x.cls, x.code) = p then { x with rows := x.rows + 1 } else x }
    else
      let u := suspect l p
      let s := s.log 0x0D0000C1 u 127 (BitVec.ofNat 64 (pairCount l p))
      s.setVent (Vent.requestTest { s.vent with storms := s.vent.storms ++ [{ cls := p.1, code := p.2, rows := 1 }] } u p.1)) s
  let ended := s.vent.storms.filter fun x => ¬ stormy.contains (x.cls, x.code)
  let s := ended.foldl (fun s x => s.log 0x0D0000C2 0 127 (BitVec.ofNat 64 x.rows)) s
  s.setVent { s.vent with storms := s.vent.storms.filter fun x => stormy.contains (x.cls, x.code) }

/-- A unit of pool kind `k` is fenced or under test. -/
def Vent.kindOut (v : Vent) (k : Nat) : Bool := v.units.any fun e => e.1 / 2048 = k && (e.2.state = 2 || e.2.state = 3)

/-- The words that the tick latches for the snapshot. -/
def Vent.latch (v : Vent) (alert : Bool) : SMap W64 :=
  let w11 := pack [(0, min v.accepted 65535), (16, min (v.table.map fun r => r.count.toNat - 1).sum 65535), (32, b2n alert), (33, b2n v.stallFlag), (34, b2n (!v.storms.isEmpty)),
    (35, b2n v.overflowRow), (36, min (v.opens.length - 8) 255)]
  let o (i : Nat) : W64 := match v.opens[i]? with
    | some r => pack [(0, r.handle.toNat), (16, r.unitId.toNat), (32, r.cls.toNat), (40, r.code.toNat), (56, min r.rows 255)]
    | none => 0
  let bad (i : Nat) : W64 := field v.sensorBad (64 * i) 64
  let words := [w11] ++ (List.range 8).map o ++ (List.range 4).map bad ++ [pack ((List.range 19).map fun p => (p, b2n (v.kindOut (p + 1)))), 0]
  words.zipIdx.foldl (fun m x => SMap.set 0 m (0x011 + x.2) x.1) []

/-- The row tick at Vent: close the row, latch the summary, open the next row. -/
def State.ventTick (s : State) : State :=
  let l := s.vent.table
  let s := l.foldl State.ventRecord s
  let s := s.ventStorms l
  let v := s.vent
  let v := { v with summary := v.latch s.bnd.snsAlert }
  let s := s.setVent { v with table := [], accepted := 0, overflowRow := false, stallFlag := false, sensorBad := 0,
                              opens := v.opens.map fun r => { r with rows := r.rows + 1 } }
  if s.bnd.snsAlert then s.report 8 0 (Config.reportCode 8) else s

/-- VENT_REPORT_EXPIRE: a row-routed report open for 256 rows is left to Steward (R648). -/
def execVentReportExpire (handle : BitVec 16) (s : State) : Host.Outcome State Fault Refusal :=
  .next (s.setVent { s.vent with opens := s.vent.opens.filter fun r => ¬ (r.handle = handle ∧ 256 ≤ r.rows) })

/-- VACK of a handle (R544, R648). -/
def State.ventAck (s : State) (handle : BitVec 16) : State := s.setVent { s.vent with opens := s.vent.opens.filter fun r => r.handle ≠ handle }

/-! ### Units -/

/-- The test class of a kind (R626): 0 A, 1 B, 2 C, 3 D. -/
def testClassOf (u : UnitId) : Nat :=
  match unitKind u with | 2 | 6 | 8 | 9 | 10 => 0 | 3 | 5 | 12 | 19 => 1 | 11 => 3 | _ => 2

/-- The logical number of a unit in service. -/
def Vent.logicalOf (v : Vent) (u : UnitId) : Nat := ((v.unitRec u).logical).getD (unitIdx u)

/-- Advance the placement epoch of a logical number (R638). -/
def Vent.advance (v : Vent) (kind n : Nat) : Vent := { v with epochs := SMap.set 0 v.epochs (2048 * kind + n) (SMap.get 0 v.epochs (2048 * kind + n) + 1) }

/-- Change a unit's state. -/
def Vent.setState (v : Vent) (u : UnitId) (st : BitVec 4) : Vent := v.setUnit u { v.unitRec u with state := st }

/-- Put the spare in the place of `u`, which goes to state `st` (R638). -/
def Vent.substitute (v : Vent) (u sp : UnitId) (st : BitVec 4) : Vent :=
  let n := v.logicalOf u
  ((v.setUnit sp { v.unitRec sp with state := 0, logical := some n }).setState u st).advance (unitKind u) n

/-- Give `u` its number back and free the spare. -/
def Vent.restore (v : Vent) (u sp : UnitId) : Vent :=
  let n := v.logicalOf sp
  ((v.setUnit u { v.unitRec u with state := 0, logical := some n }).setUnit sp { v.unitRec sp with state := 1, logical := none }).advance (unitKind u) n

/-- A replaced digest core hands its context to the spare at a block boundary (R309), and a replaced engine of the weight gate has its chunk
fetched again (R214). What a fenced core, lane or engine works on ends under R99: no chapter marks a function restartable, so the command completes
with CMD_RETRY and commits nothing (R97, R634). Of the values 0 to 7 that are drawn for an engine, 4 to 7 say that no context's chunk ran on it. -/
def State.moveWork (s : State) (u : UnitId) (dest : Option UnitId) : State :=
  match unitKind u, dest with
  | 8, some w => (s.setDigCore (unitIdx w) (s.digCore (unitIdx u))).setDigCore (unitIdx u) {}
  | 8, none =>
    let t := (s.setDigCore (unitIdx u) {})
    (match (s.digCore (unitIdx u)).ctx.bind fun c => (s.digCtx c).func.bind s.cmd.flight with
      | some f => t.digDone f St.cmdRetry
      | none => t).digFeed
  | 6, some _ => (s.drawn 1).wgRefetch (s.drawAt 3 0).toNat
  | 6, none => (s.drawn 1).wgRetried (s.drawAt 3 0).toNat
  | 9, none => match s.pkeTimed with | some f => let t := s.pkeDone f St.cmdRetry; t.setPke { t.pke with late := true } | none => s
  | _, _ => s

/-- Darn `u` with `sp` (R638): event 0x0D00_00C4 with unit, logical number and epoch. -/
def State.darn (s : State) (u sp : UnitId) (st : BitVec 4) : State :=
  let n := s.vent.logicalOf u
  let s := ((s.setVent (s.vent.substitute u sp st)).moveWork u (some sp)).defect u 1 (some n)
  s.logItems 0x0D0000C4 [u.toNat, n, (SMap.get 0 s.vent.epochs (2048 * unitKind u + n)).toNat] u

/-- Fence a unit (R634). -/
def State.fence (s : State) (u : UnitId) : State := (((s.setVent (s.vent.setState u 3)).moveWork u none).defect u 2 none).log 0x0D0000C5 u

/-! ### Self-tests -/

def Vent.dropTest (v : Vent) (t : Test) : Vent := { v with tests := v.tests.erase t }
def Vent.putTest (v : Vent) (t t' : Test) : Vent := { v with tests := v.tests.map fun x => if x = t then t' else x }

/-- The test outcome event (R635). -/
def State.testEvent (s : State) (t : Test) (outcome : Nat) : State :=
  s.logItems 0x0D0000C3 [outcome, testClassOf t.unitId] t.unitId

/-- Complete the TEST_UNIT that asked, if one did. -/
def State.testComplete (s : State) (t : Test) (outcome : Nat) : State :=
  match t.byCmd with
  | none => s
  | some tag =>
    match s.cmd.flight tag with
    | some f => s.complete f 0 (pack [(0, outcome), (4, (Config.testClass (testClassOf t.unitId)).toNat), (8, b2n t.deferredRun), (32, t.start.toNat % 2 ^ 32)])
    | none => s

/-- Write the interim record of a two-part completion (R98). -/
def State.interim (s : State) (tag : Tag) : State :=
  match s.cmd.flight tag with
  | some f =>
    { s with
      freeCount := s.freeCount + 1
      cmd := (s.cmd.writeRecord s.bnd.timebase f.queue f.slot f.desc { status := St.cmdDeferred, tag := f.tag, interim := true, result := s.draw 64 }).setFlight { f with need := 1 } }
  | none => s

/-- A lasting fault: with a spare the unit is darned out, without one its fence stays (R635). -/
def State.lasting (s : State) (t : Test) : State :=
  let r := s.vent.unitRec t.unitId
  let v := s.vent.dropTest t
  match t.spare with
  | some _ => s.setVent (v.setUnit t.unitId { r with state := 4, lasting := true })
  | none => s.setVent (v.setUnit t.unitId { r with state := if t.was = 4 then 4 else 3, lasting := true })

/-- The test may start now where the unit sets a condition (R632). -/
def State.testable (s : State) (u : UnitId) : Bool :=
  match unitKind u with | 12 => s.bnd.warmRunning | 17 => !s.bnd.bypass | _ => true

/-- SELF_TEST_START: the first ready test whose pool runs none, while fewer than 16 run (R633). -/
def selfTestStart (s : State) : State :=
  let running := s.vent.tests.filter fun t => t.phase = .running
  if 16 ≤ running.length then s
  else match s.vent.tests.find? fun t => t.phase = .ready ∧ s.testable t.unitId ∧ ¬ running.any fun r => unitPool r.unitId = unitPool t.unitId with
    | some t => s.setVent ((s.vent.putTest t { t with phase := .running, start := s.bnd.timebase }).setState t.unitId 2)
    | none => s

def execSelfTestStart (s : State) : Host.Outcome State Fault Refusal := .next (selfTestStart s)

/-- SELF_TEST_END: a first failure repeats the test, a second is lasting, a pass is transient where a fault had been found (R635, R636). -/
def selfTestEnd (s : State) (u : UnitId) (pass : Bool) : State :=
  match s.vent.tests.find? fun t => t.unitId = u ∧ t.phase = .running with
  | none => s
  | some t =>
    if ¬ pass ∧ ¬ t.again then s.setVent (s.vent.putTest t { t with again := true })
    else if ¬ pass then ((s.lasting t).testEvent t 2).testComplete t 2
    else if t.byCmd.isSome ∧ ¬ t.again then
      ((s.setVent (s.vent.putTest t { t with phase := .passed })).testEvent t 0).testComplete t 0
    else
      let r := s.vent.unitRec u
      let rows := BitVec.ofNat 64 s.row :: r.transients.filter fun x => s.row < x.toNat + 1048576
      let s := s.setVent (s.vent.setUnit u { r with transients := rows, fresh := r.fresh + 1 })
      let outcome := if t.again then 1 else 0
      if 3 ≤ rows.length then ((s.lasting t).testEvent t 2).testComplete t 2
      else ((s.setVent (s.vent.putTest t { t with phase := .passed })).testEvent t outcome).testComplete t outcome

def execSelfTestEnd (unitId : UnitId) (pass : Bool) (s : State) : Host.Outcome State Fault Refusal := .next (selfTestEnd s unitId pass)

/-- DEFERRED_TEST_START: the unit has had no work for one full row; it is fenced while the test runs (R636). It waits while another test of the
unit is placed (R633) and while its kind's condition fails (R632); a unit that has been retired meanwhile gives TST_RETIRED. -/
def deferredTestStart (s : State) (u : UnitId) : State :=
  let r := s.vent.unitRec u
  match s.vent.tests.find? fun t => t.unitId = u ∧ t.phase = .deferred with
  | none => s
  | some t =>
    if r.state = 5 then (s.setVent (s.vent.dropTest t)).testComplete t 5
    else if s.row < t.asked.toNat / 1000 + 2 ∨ ¬ s.testable u ∨ s.vent.tests.any (fun q => q.unitId = u ∧ q.phase ≠ .deferred) then s
    else
      let s := s.setVent (s.vent.putTest t { t with phase := .ready, deferredRun := true, was := r.state })
      if r.state = 0 then s.fence u else s

def execDeferredTestStart (unitId : UnitId) (s : State) : Host.Outcome State Fault Refusal := .next (deferredTestStart s unitId)

/-- CALDERA_COPY_END: the bank's copy is complete; the spare serves from the next seam (R639). -/
def execCalderaCopyEnd (bank : UnitId) (s : State) : Host.Outcome State Fault Refusal :=
  .next (s.setVent { s.vent with copying := s.vent.copying.filter (fun c => c.1 ≠ bank), copyDone := s.vent.copyDone ++ s.vent.copying.filter (fun c => c.1 = bank) })

/-! ### The seam (R634 to R639) -/

/-- Units that passed return to service. -/
def State.ventReturn (s : State) (t : Test) : State :=
  let v := s.vent.dropTest t
  match t.spare with
  | some sp => (s.setVent (v.restore t.unitId sp)).moveWork sp (some t.unitId)
  | none => (s.setVent (v.setState t.unitId (if (v.unitRec t.unitId).lasting ∧ t.was = 0 then 3 else t.was))).digFeed

/-- The unit has its spare or its fence: a TEST_FENCE completes, a test is ready. -/
def State.ventPlaced (s : State) (t t' : Test) : State :=
  if t.fence then
    let s := s.setVent (s.vent.putTest t t')
    let s := (s.lasting t').testEvent t' 2
    match t.byCmd.bind s.cmd.flight with
    | some f => s.complete f 0 (pack [(0, 2), (4, (s.vent.unitRec t.unitId).state.toNat)])
    | none => s
  else s.setVent (s.vent.putTest t { t' with phase := .ready })

/-- A requested test continues without a spare: interim record, then deferral (R636, R637). -/
def State.ventDefer (s : State) (t : Test) : State :=
  let s := s.setVent (s.vent.putTest t { t with phase := .deferred, spare := none, asked := s.bnd.timebase, start := 0 })
  match t.byCmd with | some tag => s.interim tag | none => s

/-- Place one waiting test; `used` are the pools that this seam has darned. -/
def State.ventPlace (s : State) (used : List (Nat × Nat)) (t : Test) : State × List (Nat × Nat) :=
  let u := t.unitId
  let pool := unitPool u
  if (s.vent.unitRec u).state ≠ 0 then (s.ventPlaced t { t with was := (s.vent.unitRec u).state }, used)
  else if unitKind u = 9 ∧ s.pkeTimed.isSome ∧ s.vent.replaces t then (s, used)
  else match s.vent.freeSpares u with
    | sp :: _ =>
      if used.contains pool then (s, used)
      else if unitKind u = 5 then
        (if (s.vent.copying ++ s.vent.copyDone).any fun c => c.1 = u then s else s.setVent { s.vent with copying := s.vent.copying ++ [(u, sp)] }, used)
      else ((s.darn u sp 2).ventPlaced t { t with spare := some sp }, pool :: used)
    | [] =>
      if (s.vent.copying ++ s.vent.copyDone).any fun c => c.1 = u then (s, used)
      else if t.byCmd.isSome ∧ ¬ t.fence then (s.ventDefer t, used)
      else match s.vent.tests.find? fun q => q.byCmd.isSome ∧ q.spare.isSome ∧ unitPool q.unitId = pool ∧ q.phase ≠ .passed ∧ ¬ q.fence with
        | some q =>
          -- the spare of a requested test moves to the faulty unit (R637)
          if used.contains pool then (s, used)
          else
            let sp := q.spare.getD 0
            let s := ((s.setVent (s.vent.restore q.unitId sp)).moveWork sp (some q.unitId)).ventDefer q
            if unitKind u = 5 then (s.setVent { s.vent with copying := s.vent.copying ++ [(u, sp)] }, used)
            else ((s.darn u sp 2).ventPlaced t { t with spare := some sp }, pool :: used)
        | none => ((s.fence u).ventPlaced t t, used)

/-- The bank whose copy has ended and whose spare this seam swaps in: the lowest one (R638, R639). -/
def Vent.copied (v : Vent) : Option (UnitId × UnitId) :=
  (v.copyDone.mergeSort fun a b => a.1.toNat ≤ b.1.toNat).head?

/-- Swap in the spare of a bank whose copy has ended, one at a seam (R638, R639). -/
def State.ventCopies (s : State) : State :=
  match s.vent.copied with
  | none => s
  | some c =>
    let s := (s.setVent { s.vent with copyDone := s.vent.copyDone.erase c }).darn c.1 c.2 2
    match s.vent.tests.find? fun t => t.unitId = c.1 ∧ t.phase = .waiting with
    | some t => s.ventPlaced t { t with spare := some c.2 }
    | none => s

/-- Waiting tests, the lowest unit of a pool first; a second request of one unit waits for the first, unless that one is deferred (R633, R634). -/
def Vent.waitingTests (v : Vent) : List Test :=
  let w := v.tests.filter fun t => t.phase = .waiting ∧ ¬ (v.tests.takeWhile (· ≠ t)).any fun q => q.unitId = t.unitId ∧ q.phase ≠ .deferred
  w.mergeSort fun a b => a.unitId.toNat ≤ b.unitId.toNat

/-- The unit works across this seam. Which engine of the weight gate works on a chunk is not said, and each counts while a context ingests; so does
every Caldera bank while a slice has a request in hand. -/
def State.unitBusy (s : State) (u : UnitId) : Bool :=
  match unitKind u with
  | 1 | 2 | 3 | 4 | 5 => (List.range 64).any fun n => sliceWork n u && (let x := s.slice n; !(x.reads.isEmpty && x.waiting.isEmpty && x.port.isEmpty && x.held.isEmpty && x.knits.isEmpty))
  | 6 => (List.range 4).any fun c => (s.wgCtx c).phase ≠ .idle
  | 8 => (s.digCore (unitIdx u)).ctx.isSome
  | 9 => s.pke.state = 1
  | 12 => s.re.run
  | _ => false

/-- Seam cycle 14: returns, copies, then the waiting tests. -/
def State.ventSeam (s : State) : State :=
  let s := s.worked s.unitBusy
  let s := (s.vent.tests.filter fun t => t.phase = .passed).foldl State.ventReturn s
  let used : List (Nat × Nat) := if s.vent.copied.isSome then [(5, 0)] else []
  let s := s.ventCopies
  (s.vent.waitingTests.foldl (fun (x : State × List (Nat × Nat)) t => x.1.ventPlace x.2 t) (s, used)).1

/-- The units of a pool of interchangeable units, spares included (R626, R640). -/
def poolMembers (pool : Nat × Nat) : List UnitId :=
  match pool.1 with
  | 2 => (List.range 6).map fun i => unitOf 2 (8 * pool.2 + i)
  | 3 => (List.range 9).map fun i => unitOf 3 (16 * pool.2 + i)
  | 6 => (List.range 17).map (unitOf 6)
  | 8 => (List.range 5).map (unitOf 8)
  | 9 => (List.range 5).map (unitOf 9)
  | _ => []

/-- The unit holds a logical number: it serves, or is out for a test or by a fence with no spare in its place. A spare has one only in service. -/
def Vent.holdsNumber (v : Vent) (u : UnitId) : Bool :=
  ((v.unitRec u).logical.isSome || !(poolSpares u).contains u) && ((v.unitRec u).state = 0 || (((v.unitRec u).state = 2 || (v.unitRec u).state = 3) && !v.tests.any fun t => t.unitId = u && t.spare.isSome))

/-- Compact a pool's logical numbering: the remaining units take 0, 1, 2, … in the order of their numbers (R640). -/
def Vent.compact (v : Vent) (pool : Nat × Nat) : Vent :=
  let up := ((poolMembers pool).filter v.holdsNumber).mergeSort fun a b => v.logicalOf a ≤ v.logicalOf b
  up.zipIdx.foldl (fun v x => v.setUnit x.1 { v.unitRec x.1 with logical := some x.2 }) v

/-- Retire the units of lasting faults that no spare covers; compact the pools while every partition but `d` is FREE (R640). -/
def State.retire (s : State) (d : Option Nat) : State :=
  let due := s.vent.units.filter fun e => e.2.lasting ∧ e.2.state = 3
  let s := due.foldl (fun s e => (s.setVent (s.vent.setUnit (BitVec.ofNat 16 e.1) { e.2 with state := 5 })).defect (BitVec.ofNat 16 e.1) 3 none |>.log 0x0D0000C6 (BitVec.ofNat 16 e.1)) s
  if s.parts.all fun e => e.2.state = .free ∨ d = some e.1 then
    let gone (k : Nat) : Nat := (poolMembers (k, 0)).length - 1 - ((poolMembers (k, 0)).filter s.vent.holdsNumber).length
    let pools := ((s.vent.units.filter fun e => e.2.state = 5).map fun e => unitPool (BitVec.ofNat 16 e.1)).eraseDups
    let v := pools.foldl Vent.compact s.vent
    s.setVent { v with shrunk := [6, 8, 9].foldl (fun m k => SMap.set 0 m k (gone k)) v.shrunk }
  else s

/-! ### TEST functions (R646) -/

def Desc.unit (d : Desc) : UnitId := Desc.argField d 0 16

/-- The outcome that a unit identifier alone decides. -/
def unitOutcome (s : State) (u : UnitId) : Option Nat :=
  if unitExternal u then some 4 else if ¬ unitConfigured u then some 3 else if (s.vent.unitRec u).state = 5 then some 5 else none

/-- TEST_UNIT: swap in a spare at a seam, or defer until the unit has been idle for a row (R636). -/
def testUnit (f : Flight) (s : State) : State :=
  if f.started then s
  else
    let u := Desc.unit f.desc
    match unitOutcome s u with
    | some o => s.complete f 0 (BitVec.ofNat 64 o)
    | none =>
      let s := { s with cmd := s.cmd.setFlight { f with started := true } }
      let r := s.vent.unitRec u
      let t : Test := { unitId := u, byCmd := some f.tag, was := r.state, asked := s.bnd.timebase }
      if (r.state = 0#4) ∧ (s.vent.freeSpares u).isEmpty then
        (s.setVent { s.vent with tests := s.vent.tests ++ [{ t with phase := .deferred }] }).interim f.tag
      else s.setVent { s.vent with tests := s.vent.tests ++ [t] }

/-- TEST_PROBE: state and logical number; a unit out of service has none, and the field is then free. -/
def testProbe (f : Flight) (s : State) : State :=
  let u := Desc.unit f.desc
  let r := s.vent.unitRec u
  match unitOutcome s u with
  | some o => (s.drawn 1).complete f 0 (pack [(0, o), (4, if o = 5 then 5 else (s.drawAt 4 0).toNat), (16, (s.drawAt 32 0).toNat / 65536)])
  | none =>
    let n := if r.state = 0 then s.vent.logicalOf u else (s.draw 16).toNat
    (s.drawn 1).complete f 0 (pack [(4, r.state.toNat), (16, n)])

/-- TEST_FENCE: lasting without a test, at the next seam (R634, R646). -/
def testFence (f : Flight) (s : State) : State :=
  if f.started then s
  else
    let u := Desc.unit f.desc
    match unitOutcome s u with
    | some o => (s.drawn 1).complete f 0 (pack [(0, o), (4, if o = 5 then 5 else (s.drawAt 4 0).toNat)])
    | none =>
      let s := { s with cmd := s.cmd.setFlight { f with started := true } }
      s.setVent { s.vent with tests := s.vent.tests ++ [{ unitId := u, byCmd := some f.tag, fence := true, was := (s.vent.unitRec u).state, asked := s.bnd.timebase }] }

def execTestUnit (tag : Tag) (s : State) : Host.Outcome State Fault Refusal := .next (s.withFlight tag 0xA0 testUnit)
def execTestProbe (tag : Tag) (s : State) : Host.Outcome State Fault Refusal := .next (s.withFlight tag 0xA1 testProbe)
def execTestFence (tag : Tag) (s : State) : Host.Outcome State Fault Refusal := .next (s.withFlight tag 0xA2 testFence)

/-! ### Sinter log access (R642, R719) -/

/-- SNT_APPEND: bytes 8 to 31 of the entry; the block supplies TIMEBASE. -/
def sntAppend (s : State) (c : Cls) (d : BitVec 256) : State :=
  if c = .K ∨ c = .S then
    s.logEntry { time := s.bnd.timebase, code := field d 64 32, unitId := field d 96 16, dom := field d 112 8, flags := field d 120 8, p0 := field d 128 64, p1 := field d 192 64 }
  else s

/-- A write of CKPT (R719). -/
def sntCkpt (s : State) (c : Cls) (v : BitVec 21) : State :=
  let n := (v - s.snt.ckpt).toNat
  if c = .S ∧ n ≤ s.snt.pend then { s with snt := { s.snt with ckpt := v, pend := s.snt.pend - n } } else s

def execSntAppend (cls : Cls) (data : BitVec 256) (s : State) : Host.Outcome State Fault Refusal := .next (sntAppend s cls data)
def execSntCkptWrite (cls : Cls) (value : BitVec 21) (s : State) : Host.Outcome State Fault Refusal := .next (sntCkpt s cls value)

/-- An entry as its 32 bytes (R642). -/
def SntEntry.bytes (e : SntEntry) : List Byte :=
  leBytes 8 e.time ++ leBytes 4 e.code ++ leBytes 2 e.unitId ++ [e.dom, e.flags] ++ leBytes 8 e.p0 ++ leBytes 8 e.p1

def ventRegs : List Reg :=
  [ { base := 0x07E1008, allow := capKSO                                                                                -- VNT_STAT
      get := fun _ _ s =>
        let n (p : TestPhase) : Nat := (s.vent.tests.filter fun t => t.phase = p).length
        pack [(0, s.vent.refused.toNat), (16, s.vent.overflow.toNat), (32, n .running), (37, n .waiting + n .ready + n .deferred), (47, b2n (!s.vent.storms.isEmpty))]
      onRead := fun _ _ m s => { s with vent := { s.vent with refused := if bit m 0 then 0 else s.vent.refused, overflow := if bit m 16 then 0 else s.vent.overflow } } },
    { base := 0x07F0000, allow := capKSO                                                                                -- SNT_PTR
      get := fun _ _ s => pack [(0, s.snt.prod.toNat), (21, s.snt.ckpt.toNat), (42, s.snt.lost.toNat)]
      put := fun _ c v m s => sntCkpt s c (mrg s.snt.ckpt 21 v m) },
    { base := 0x07F0008, allow := capKSO                                                                                -- SNT_WSEL
      get := fun _ c s => (SMap.get 0 s.snt.wsel (clsNum c)).setWidth 64
      put := fun _ c v m s => { s with snt := { s.snt with wsel := SMap.set 0 s.snt.wsel (clsNum c) (mrg (SMap.get 0 s.snt.wsel (clsNum c)) 0 v m) } } } ]

def ventWindows : List Window :=
  [ { base := 0x07F0040, span := 0x20, allow := capKS                                                                   -- SNT_APPEND
      get := fun _ _ n _ _ => List.replicate n 0
      put := fun _ o c bs s => if o = 0 ∧ bs.length = 32 then sntAppend s c (ofLeBytes 256 bs) else s },
    { base := 0x07F1000, span := 0x1000, allow := capKSO                                                                -- SNT_WIN
      get := fun _ o n c s =>
        let b := (SMap.get 0 s.snt.wsel (clsNum c)).toNat
        (List.range n).map fun i => ((SMap.get {} s.snt.ring ((b + (o + i) / 32) % sntSize)).bytes).getD ((o + i) % 32) 0 } ]

end Sys2Proof.Machine
end

