-- ==== Sys2Proof/Machine/RowEngine.lean ====
section
/-! DEFINITION. The row engine around its stitches: loading, banks, parameters, sensors, the snapshot, the seam's commits and the row itself
(R23 to R28, R60, R61, R523 to R530, R548 to R563). -/
namespace Sys2Proof.Machine

def State.setRe (s : State) (x : RowEngine) : State := { s with re := x }
def State.reStatus (s : State) (st : Status) : State := s.setRe { s.re with status := st }

/-! ### Loading (R559 to R562) -/

/-- A header is valid (R559); rsvd bits of RE_HDR cannot be written. -/
def RowHdr.valid (h : RowHdr) : Bool :=
  1 ≤ h.length.toNat && h.length.toNat ≤ 1024 && 1 ≤ h.maxIssue.toNat && h.maxIssue.toNat ≤ 1008 && h.calFirst.toNat + h.calCount.toNat ≤ h.length.toNat

/-- RUN written (R561). The bank becomes active at once, the first row begins at the next tick. -/
def reRun (s : State) (c : Cls) : State :=
  if c ≠ .K then s
  else if s.re.clearing then s.reStatus 0x0C04
  else if s.re.run then s
  else if ¬ s.re.hdr0.valid then s.reStatus 0x0C02
  else s.setRe { s.re with run := true, bank := false, first := true }

/-- BANK_REQ written (R563). -/
def reBankReq (s : State) (c : Cls) : State :=
  let x := s.re
  if ¬ (c = .K ∨ c = .S) ∨ ¬ x.run ∨ x.switching then s
  else
    let h := x.hdr (!x.bank)
    if ¬ h.valid ∨ h.layout ≠ (x.hdr x.bank).layout then s.reStatus 0x0C03 else s.setRe { x with switching := true }

/-- CLEAR written (R560). -/
def reClear (s : State) (c : Cls) : State :=
  if c ≠ .K then s
  else if s.re.run then s.reStatus 0x0C01
  else if s.re.clearing then s.reStatus 0x0C04
  else s.setRe { s.re with clearing := true }

/-- The engine's state after a clear. -/
def RowEngine.cleared (x : RowEngine) : RowEngine :=
  { x with regs := [], preds := 1, accs := [], loops := [], mem := [], prog := [], flights := [], hdr0 := {}, hdr1 := {}, clearing := false
           vars := {}, shipped := false
           pc := 0, issued := 0, ended := false, fault := false }

def reClearDone (s : State) : State := if s.re.clearing then s.setRe s.re.cleared else s

/-- A load write: program memory, headers and row memory take it from Keeper while RUN and CLEARING are 0 (R560). -/
def State.reLoad (s : State) (c : Cls) (f : RowEngine → RowEngine) : State :=
  if c ≠ .K then s
  else if s.re.run then s.reStatus 0x0C01
  else if s.re.clearing then s.reStatus 0x0C04
  else s.setRe { f s.re with shipped := false, vars := {} }

/-- COMMIT of RE_PARAM_CTL (R552). -/
def reParamCommit (s : State) (c : Cls) : State := if c = .K ∨ c = .S then s.setRe { s.re with paramReq := true } else s

def execReRun (cls : Cls) (s : State) : Host.Outcome State Fault Refusal := .next (reRun s cls)
def execReBankReq (cls : Cls) (s : State) : Host.Outcome State Fault Refusal := .next (reBankReq s cls)
def execReClear (cls : Cls) (s : State) : Host.Outcome State Fault Refusal := .next (reClear s cls)
def execReClearDone (s : State) : Host.Outcome State Fault Refusal := .next (reClearDone s)
def execReParamCommit (cls : Cls) (s : State) : Host.Outcome State Fault Refusal := .next (reParamCommit s cls)

/-- The t0 of a warm reset at the engine (R562). -/
def RowEngine.stopped (x : RowEngine) : RowEngine :=
  { x with run := false, running := false, first := false, switching := false, bank := false, clearing := false, paramReq := false, consec := 0, prevOverrun := false
           prevFault := false, prevDrop := false, dropped := false, lastIssue := 0, lastEnd := 0, rows := 0, stage := x.committed, events := {}, flights := []
           loops := [], ended := false, fault := false, pc := 0, issued := 0, hdr0 := {}, hdr1 := {} }

/-- The row-program payload (R558): headers, stitches of each bank and the data segment, when its fields are right. -/
structure RowPayload where
  hdr0 : RowHdr
  hdr1 : RowHdr
  prog : SMap (BitVec 256)
  dataAt : Nat
  data : List Byte

/-- A bank header from its two words, and whether a rsvd bit of them is set. VALID is no rsvd bit. -/
def rowHdrOf (bs : List Byte) : RowHdr × Bool :=
  let w0 : W64 := ofLeBytes 64 (bs.take 8)
  let w1 : W64 := ofLeBytes 64 ((bs.drop 8).take 8)
  ({ length := field w0 0 11, maxIssue := field w0 11 10, calFirst := field w0 21 10, calCount := field w0 31 10, calSlots := field w1 0 24, layout := field w1 24 16 },
    decide (field w0 41 23 ≠ 0 ∨ field w1 41 23 ≠ 0))

/-- The payload that the bytes hold, none where they break R558 or the bank 0 header is not valid (R559). A bank 1 header that is not valid is
loaded as it stands, and its bank is never switched to (R563); the rsvd bits of RE_HDR take nothing. -/
def rowPayload (bs : List Byte) : Option RowPayload :=
  let w (o n : Nat) : Nat := (ofLeBytes 64 ((bs.drop o).take n)).toNat
  if bs.take 4 ≠ [0x52, 0x44, 0x53, 0x52] ∨ w 4 2 ≠ 1 ∨ ¬ (w 6 2 = 1 ∨ w 6 2 = 2) ∨ (bs.drop 48).take 16 ≠ List.replicate 16 0 then none
  else
      let h0 := (rowHdrOf ((bs.drop 8).take 16)).1
      let h1 := (rowHdrOf ((bs.drop 24).take 16)).1
      let two := w 6 2 = 2
      let o := w 40 4
      let n := w 44 4
      let len0 := h0.length.toNat
      let len1 := if two then h1.length.toNat else 0
      if ¬ h0.valid ∨ (rowHdrOf ((bs.drop 8).take 16)).2 ∨ (¬ two ∧ (bs.drop 24).take 16 ≠ List.replicate 16 0) ∨ o % 8 ≠ 0 ∨ 262144 < o + n ∨ bs.length ≠ 64 + 32 * (len0 + len1) + n then none
      else
        let st (base k : Nat) : BitVec 256 := ofLeBytes 256 ((bs.drop (64 + 32 * (base + k))).take 32)
        let put (m : SMap (BitVec 256)) (bank base len : Nat) := (List.range (min len 1024)).foldl (fun m k => SMap.set 0 m (1024 * bank + k) (st base k)) m
        some { hdr0 := h0, hdr1 := h1, prog := put (put [] 0 0 len0) 1 len0 len1, dataAt := o, data := (bs.drop (64 + 32 * (len0 + len1))).take n }

/-- The payload's bank 0 holds the stitches of the shipped program under its own MAX_ISSUE and calibration range (log entry 49). -/
def RowPayload.isShipped (p : RowPayload) : Bool :=
  decide ((List.range p.hdr0.length.toNat).map (SMap.get 0 p.prog) = Config.shippedProgram ∧
    (p.hdr0.maxIssue.toNat, p.hdr0.calFirst.toNat, p.hdr0.calCount.toNat) = Config.shippedIssue)

/-- The ROM's load at CO5: clear, write and set RUN (R558 to R561). -/
def State.loadRow (s : State) (p : RowPayload) : State :=
  reRun (s.setRe { s.re.cleared with hdr0 := p.hdr0, hdr1 := p.hdr1, prog := p.prog, mem := Mem.write 0 [] p.dataAt p.data, shipped := p.isShipped }) .K

/-! ### Sensors (R60, R61, R550, R555) -/

/-- Even parity over bits [19:1] in bit 0. -/
def parityOk (w : BitVec 20) : Bool := (popCount w) % 2 = 0

/-- SENSOR_READING: the answer of the command sent in the slot before (R60). A slot without a command names no sensor. -/
def sensorReading (s : State) (slot : Nat) (w : BitVec 20) : State :=
  let cmd := SMap.get 0 s.re.sensLive (0x40 + (slot - 1))
  if slot = 0 ∨ 24 < slot ∨ ¬ bit cmd 20 then s
  else
    let a := (field cmd 11 8).toNat
    let x := SMap.get ({} : Sensor) s.re.sensors a
    let st : BitVec 2 := field w 17 2
    let ok := parityOk w && bit w 19 && decide (st = 0)
    let y := if ok then { x with reading := field w 1 16, status := st, stale := false, fresh := true, cal := field cmd 9 2 = 2, age := 0 }
             else { x with status := st, stale := true, unused := satAdd x.unused 1 }
    let s := s.setRe { s.re with sensors := SMap.set {} s.re.sensors a y }
    if parityOk w ∧ bit w 19 ∧ st = 2 then s.setVent { s.vent with sensorBad := putBit s.vent.sensorBad a true } else s

def execSensorReading (slot : BitVec 5) (word : BitVec 20) (s : State) : Host.Outcome State Fault Refusal := .next (sensorReading s slot.toNat word)

/-- The command word as the bus carries it: start bit, fields and parity. -/
def sensorWord (w : W64) : BitVec 20 :=
  let v : BitVec 20 := BitVec.ofNat 20 (packN [(19, 1), (11, (field w 11 8).toNat), (9, (field w 9 2).toNat), (1, (field w 1 8).toNat)])
  putBit v 0 (popCount v % 2 = 1)

/-- The slots of the row that begins (R555): the table committed at the last seam drives them. -/
def State.sensorRow (s : State) : State :=
  let s := s.setRe { s.re with sensLive := s.re.sensNext }
  (List.range 24).foldl (fun s k => let w := SMap.get 0 s.re.sensLive (0x40 + k); if bit w 20 then s.emit (.sns k (sensorWord w)) else s) s

/-- Seam cycle 2: commit the sensor table; a calibrate command outside CAL_SLOTS is sent as a read (R556). -/
def State.commitSensors (s : State) (word : Nat → W64) : State :=
  let cal := (s.re.hdr s.re.bank).calSlots
  (List.range 24).foldl (fun s k =>
    let w := word (0x40 + k)
    let conv := bit w 20 && calWord w && !(bit cal k)
    let w := if conv then putField w 9 2 0 else w
    s.setRe { s.re with sensNext := SMap.set 0 s.re.sensNext (0x40 + k) w, cntCalconv := if conv then s.re.cntCalconv + 1 else s.re.cntCalconv })
    (s.setRe { s.re with sensNext := [] })

/-! ### Zero statistics of a row (R180) -/

def fraction (n d : Nat) : BitVec 8 := BitVec.ofNat 8 (if d = 0 then 0 else min 255 (256 * n / d))

def State.zstTick (s : State) : State :=
  { s with guard := { s.guard with zst := SMap.mapVals {} s.guard.zst fun _ z =>
      { z with fracRes := fraction z.zlines.toNat z.lines.toNat, fracRd := fraction z.rowZrd z.rowRd, rowRd := 0, rowZrd := 0 } } }

/-! ### Snapshot (R548 to R551, R578, R595, R601, R647) -/

/-- Region state word (R578). -/
def State.regionWord (s : State) (n : Nat) : W64 :=
  let r := s.gov.reg n
  let q := s.gov.rail r.rail.toNat
  pack [(0, r.step.toNat), (6, b2n r.stretch), (7, b2n (bit s.co.released n)), (8, b2n (bit s.co.waveSet n && !bit s.co.released n)), (9, b2n (bit s.co.failed n)),
    (10, b2n s.bnd.clamp), (11, b2n s.gov.hold), (12, r.holdCeil.toNat), (18, r.rail.toNat), (24, b2n (r.railEn && q.fault)),
    (32, if r.railEn then q.readback.toNat else 0), (48, r.age.toNat), (56, (SMap.get 0 s.fum.regionLoss n).toNat)]

/-- The snapshot that the tick latches. -/
def State.snapshot (s : State) (paramNew : Bool) : SMap W64 :=
  let x := s.re
  let flags := pack [(0, b2n x.prevOverrun), (1, x.consec.toNat), (3, b2n s.gov.hold), (4, b2n s.bnd.thermTrip), (5, b2n s.bnd.clamp), (6, b2n s.bnd.pwrWarn),
    (7, b2n x.prevFault), (8, b2n x.bank), (9, b2n s.bnd.isolated), (10, b2n x.prevDrop), (11, b2n paramNew), (16, min x.rows 65535), (32, x.lastIssue.toNat)]
  let status : List W64 := [s.bnd.timebase, BitVec.ofNat 64 s.row, flags, s.co.released, s.co.failed, s.co.waveSet, x.seq.setWidth 64, s.otpFeat]
  let bells := pack [(0, (s.cmd.mailbox 78).down.db.toNat), (32, (s.cmd.mailbox 79).down.db.toNat)]
  let sensor (e : Nat × Sensor) : Nat × W64 :=
    (0x100 + e.1, pack [(0, e.2.reading.toNat), (16, e.2.status.toNat), (18, b2n e.2.stale), (19, b2n e.2.fresh), (20, b2n e.2.cal), (24, e.2.age.toNat)])
  let zst (d : Nat) : Nat × W64 :=
    let z := s.zst d
    (0x700 + d, pack [(0, z.fracRes.toNat), (8, z.fracRd.toNat), (16, b2n ((s.part d).state ≠ .free))])
  let words := (status.zipIdx.map fun e => (e.2, e.1)) ++ [(0x010, bells)] ++ s.vent.summary ++ (List.range 64).map (fun n => (0x020 + n, s.regionWord n)) ++
    x.sensors.map sensor ++ s.fum.deltas.map (fun e => (0x200 + e.1, e.2)) ++ (List.range 64).map zst ++ s.lookahead ++ x.paramNow.map (fun e => (0xA00 + e.1, e.2))
  words.foldl (fun m e => SMap.set 0 m e.1 e.2) []

/-! ### The tick at the engine -/

/-- How the previous row ended (R26, R529, R530): flags and CONSEC, before the snapshot is latched. -/
def RowEngine.judge (x : RowEngine) : RowEngine :=
  if ¬ x.running then x
  else
    let bad := x.fault || !x.ended
    { x with prevOverrun := bad, prevFault := x.fault, prevDrop := x.dropped, consec := if bad then (if x.consec = 3 then 3 else x.consec + 1) else 0
             lastIssue := BitVec.ofNat 11 (min x.issued 2047), rows := x.rows + 1 }

/-- The parameter copy of a tick; PKG_LIMIT is bounded by POWER_CAP (R552, R576). -/
def State.paramCopy (s : State) : State :=
  if ¬ s.re.paramReq then s
  else
    let p := s.re.param
    let w := SMap.get 0 p 0x140
    let lim : BitVec 16 := BitVec.ofNat 16 (min (field w 0 16).toNat s.otp.powerCap.toNat)
    s.setRe { s.re with paramNow := SMap.set 0 p 0x140 (putField w 0 16 lim), paramReq := false, seq := s.re.seq + 1 }

/-- Sensors age by a row once their words have been latched. -/
def RowEngine.sensorAge (x : RowEngine) : RowEngine :=
  { x with sensors := SMap.mapVals {} x.sensors fun _ y => { y with fresh := false, age := satAdd y.age 1 } }

/-- Ring doorbells in the up direction or clear them in the down direction of a row-engine mailbox. -/
def State.rowBells (s : State) (m : Nat) (up down : BitVec 32) : State :=
  let s := if up = 0 then s else { s with cmd := s.cmd.ring1 m false up }
  if down = 0 then s else s.mbUpd m true fun d => { d with db := d.db &&& ~~~down }

/-- A knot signal of the row program, as domain 64 (R545). -/
def State.rowSignal (s : State) (k : Nat) (addend : BitVec 48) : State :=
  let refuse := s.setRe { s.re with cntKnot := s.re.cntKnot + 1 }
  let x := s.cmd.knot k
  if Config.knots ≤ k ∨ ¬ x.active ∨ x.owner ≠ 64 then refuse
  else match s.cmd.signal s.bnd.timebase s.freeCount k addend with
    | none => refuse
    | some c => ({ s with cmd := c, freeCount := s.freeCount + 4 }).countSignal k

/-- Cycles 1 to 13 of a seam that commits (R528). Region and sensor words are kept as the seam commits them (R554, R556, R566). -/
def State.commitRow (s : State) : State :=
  let x := s.re
  let word (i : Nat) : W64 := SMap.get 0 x.stage i
  let e := x.events
  let region (n : Nat) : W64 := pack [(0, (s.commitStep n (word n)).toNat), (6, b2n (!s.regionHeld n && bit (word n) 6))]
  let regions := (List.range Config.regions).map fun n => (n, region n)
  let s := s.commitRegions word
  let s := s.commitSensors word
  let s := (List.range 64).foldl (fun s q => s.avsTarget q (word (0x60 + q))) s
  let keep : SMap W64 := x.stage.filter fun w => w.1 < 0x40 ∨ 0x100 ≤ w.1
  let s := s.setRe { s.re with committed := (regions ++ s.re.sensNext).foldl (fun m w => SMap.set 0 m w.1 w.2) keep }
  let s := (s.rowBells 78 e.up78 e.down78).rowBells 79 e.up79 e.down79
  let s := e.ksigs.foldl (fun s k => s.rowSignal k.1.toNat k.2) s
  let s := e.slogs.foldl (fun s l => s.log (0x0C800000 ||| l.1.setWidth 32) govUnit 127 l.2) s
  let s := e.vacks.foldl State.ventAck s
  let s := if e.railOk then { s with co := { s.co with railOk := true } } else s
  let s := if s.co.seamDone then s else s.setGov s.gov.restart
  { s with co := { s.co with seamDone := true } }

/-- Cycles 0 to 13: the overrun check, the commit or the discard, the new staging (R26, R27, R528, R530, R554, R567). -/
def State.engineSeam (s : State) : State :=
  let x := s.re
  let s :=
    if x.running then
      let clean := !x.prevOverrun
      let s := s.setGov { s.gov with cleanRows := if clean then BitVec.ofNat 11 (min 1024 (s.gov.cleanRows.toNat + 1)) else 0 }
      let s := s.setRe { s.re with cntRows := s.re.cntRows + 1 }
      if clean then s
      else
        let s := s.logItems 0x0C000080 [s.row - 1, x.issued, b2n x.fault] govUnit
        s.setRe { s.re with cntOverrun := s.re.cntOverrun + 1, cntFault := if x.fault then s.re.cntFault + 1 else s.re.cntFault }
    else s
  let s := if x.running ∧ x.consec = 3 then s.holdEnter 1 else if s.gov.forceHold then s.holdEnter 2 else s
  let s := (if x.running ∧ ¬ x.prevOverrun then s.commitRow else s).clampSeam
  s.setRe { s.re with stage := s.re.committed, events := {}, dropped := false, flights := [] }

/-- Cycle 15: a pending bank switch (R563). -/
def State.bankSwitch (s : State) : State :=
  if s.re.switching then
    (s.setRe { s.re with switching := false, bank := !s.re.bank }).log 0x0C000083 govUnit 127 (BitVec.ofNat 64 (b2n (!s.re.bank)))
  else s

/-- Issue stitches of the active bank until ROW_END, a fault or the next seam. -/
def State.issueRow : Nat → State → State
  | 0, s => s
  | k + 1, s =>
    if s.re.ended ∨ s.re.fault then s
    else State.issueRow k (s.stitch (stitchOps (SMap.get 0 s.re.prog (1024 * b2n s.re.bank + s.re.pc)) 0))

/-- The row: the first stitch issues in seam cycle 16, the first of all with event 0082 (R561); the row's `cycles` core cycles leave one stitch for each cycle after it. A row of the
shipped program that has the cycles for its MAX_ISSUE stitches does what its rules say. -/
def State.runRow (s : State) (cycles : Nat) : State :=
  if ¬ s.re.run then s
  else
    let s := if s.re.first then s.log 0x0C000082 govUnit 127 (0 : W64) ((s.re.hdr s.re.bank).maxIssue.setWidth 64) else s
    let t := s.setRe { s.re with running := true, first := false, pc := 0, issued := 0, loops := [], ended := false, fault := false, rows := if s.re.first then 0 else s.re.rows }
    if t.re.shipped ∧ ¬ t.re.bank ∧ (t.re.hdr false).maxIssue.toNat ≤ cycles - 16 then t.shipRow else State.issueRow (cycles - 16) t

/-! ### Registers -/

def capKsoRead : Nat → Cls → State → Bool := capKSO

def RowHdr.words (h : RowHdr) : W64 × W64 :=
  (pack [(0, h.length.toNat), (11, h.maxIssue.toNat), (21, h.calFirst.toNat), (31, h.calCount.toNat)], pack [(0, h.calSlots.toNat), (24, h.layout.toNat), (40, b2n h.valid)])

def RowEngine.setHdr (x : RowEngine) (b : Bool) (h : RowHdr) : RowEngine := if b then { x with hdr1 := h } else { x with hdr0 := h }

def rowRegs : List Reg :=
  [ { base := 0x0800000, allow := capKSO                                                                               -- RE_CTL
      get := fun _ _ s => let x := s.re; pack [(0, b2n x.run), (1, b2n x.bank), (4, b2n x.clearing), (16, x.status.toNat)]
      put := fun _ c v m s =>
        let on (i : Nat) : Bool := bit (v &&& m) i
        let s := if on 0 then reRun s c else s
        let s := if on 2 then reBankReq s c else s
        if on 3 then reClear s c else s },
    { base := 0x0800008, allow := capKSO                                                                               -- RE_STAT
      get := fun _ _ s => let x := s.re
        pack [(0, b2n x.running), (1, b2n x.switching), (2, x.consec.toNat), (4, b2n x.prevOverrun), (5, b2n x.prevFault), (6, x.lastIssue.toNat), (17, x.lastEnd.toNat),
          (32, min x.rows 65535)] },
    { base := 0x0800010, stride := 0x10, count := 2, allow := capKSO                                                   -- RE_HDR word 0
      get := fun b _ s => (s.re.hdr (b = 1)).words.1
      put := fun b c v m s => s.reLoad c fun x =>
        let h := x.hdr (b = 1)
        x.setHdr (b = 1) { h with length := mrg h.length 0 v m, maxIssue := mrg h.maxIssue 11 v m, calFirst := mrg h.calFirst 21 v m, calCount := mrg h.calCount 31 v m } },
    { base := 0x0800018, stride := 0x10, count := 2, allow := capKSO                                                   -- RE_HDR word 1
      get := fun b _ s => (s.re.hdr (b = 1)).words.2
      put := fun b c v m s => s.reLoad c fun x => let h := x.hdr (b = 1); x.setHdr (b = 1) { h with calSlots := mrg h.calSlots 0 v m, layout := mrg h.layout 24 v m } },
    { base := 0x0800030, allow := capKS                                                                                -- RE_PARAM_CTL
      get := fun _ _ s => pack [(0, b2n s.re.paramReq), (16, s.re.seq.toNat)]
      put := fun _ c v m s => if bit (v &&& m) 0 then reParamCommit s c else s } ]
  ++ ([(fun x => x.cntRows), (fun x => x.cntOverrun), (fun x => x.cntFault), (fun x => x.cntDrop), (fun x => x.cntCalconv), (fun x => x.cntKnot), (fun x => x.cntAvs),
      (fun x => x.cntEcc)] : List (RowEngine → BitVec 48)).zipIdx.map fun f =>
    { base := 0x0800040 + 8 * f.2, allow := capKSO, get := fun _ _ s => (f.1 s.re).setWidth 64 }

/-- Bytes of 64-bit words kept by index. -/
def wordBytes (m : SMap W64) (o n : Nat) : List Byte := (List.range n).map fun i => field (SMap.get 0 m ((o + i) / 8)) (8 * ((o + i) % 8)) 8
/-- Write bytes into words kept by index. -/
def pokeWords (m : SMap W64) (o : Nat) (bs : List Byte) : SMap W64 :=
  bs.zipIdx.foldl (fun m b => let i := (o + b.2) / 8; SMap.set 0 m i (putField (SMap.get 0 m i) (8 * ((o + b.2) % 8)) 8 b.1)) m

def rowWindows : List Window :=
  [ { base := 0x0810000, span := 0x1000, allow := capKS                                                                -- RE_PARAM
      get := fun _ o n _ s => wordBytes s.re.param o n
      put := fun _ o c bs s => if c = .K ∨ c = .S then s.setRe { s.re with param := pokeWords s.re.param o bs } else s },
    { base := 0x0820000, span := 0x800, allow := capKS                                                                 -- RE_PUB
      get := fun _ o n _ s => (List.range n).map fun i => field (s.pubWord ((o + i) / 8)) (8 * ((o + i) % 8)) 8 },
    { base := 0x0840000, span := 0x10000, allow := capKS                                                               -- RE_PROG
      get := fun _ o n _ s => (List.range n).map fun i => field (SMap.get 0 s.re.prog ((o + i) / 32)) (8 * ((o + i) % 32)) 8
      put := fun _ o c bs s => s.reLoad c fun x => { x with prog := bs.zipIdx.foldl (fun m b =>
        let i := (o + b.2) / 32; SMap.set 0 m i (putField (SMap.get 0 m i) (8 * ((o + b.2) % 32)) 8 b.1)) x.prog } },
    { base := 0x0880000, span := 0x40000, allow := capKS                                                               -- RE_MEM
      get := fun _ o n _ s => Mem.read 0 s.re.mem o n
      put := fun _ o c bs s => s.reLoad c fun x => { x with mem := Mem.write 0 x.mem o bs } } ]

end Sys2Proof.Machine
end

