-- ==== Sys2Proof/Machine/Flash.lean ====
section
/-! DEFINITION. The flash device and its controller, the cast-on header, images and their verification, sealed records, the ledgers
and the Sinter checkpoints (R431 to R461, R590, R644, R699, R700). -/
namespace Sys2Proof.Machine

def State.setFl (s : State) (f : Flash) : State := { s with fl := f }

/-! ### The device -/

/-- Device size in bytes: the reference 1 Gbit device (R431). -/
def flashBytes : Nat := Config.flashMiB * 2 ^ 20

/-- The bytes `a` to `a + n - 1` of the device. -/
def Flash.read (f : Flash) (a n : Nat) : List Byte := Mem.read 0xFF f.dev a n

/-- Replace the bytes from `a` on. -/
def placeBytes (m : Mem) (a : Nat) (bs : List Byte) : Mem :=
  m.filter (fun e => e.1 < a) ++ (bs.zipIdx.filterMap fun x => if x.1 = 0xFF then none else some (a + x.2, x.1)) ++ m.filter fun e => a + bs.length ≤ e.1

/-- Erase `n` bytes from `a`. -/
def eraseBytes (m : Mem) (a n : Nat) : Mem := m.filter fun e => ¬ (a ≤ e.1 ∧ e.1 < a + n)

/-- Copy `n` bytes from `a` to `b`, which does not overlap them. -/
def copyBytes (m : Mem) (a b n : Nat) : Mem :=
  m.filter (fun e => e.1 < b) ++ ((m.filter fun e => a ≤ e.1 ∧ e.1 < a + n).map fun e => (e.1 - a + b, e.2)) ++ m.filter fun e => b + n ≤ e.1

/-- Program bytes, page by page; FL_CNT_PROG counts the pages. -/
def Flash.place (f : Flash) (a : Nat) (bs : List Byte) : Flash :=
  { f with dev := placeBytes f.dev a bs, progs := f.progs + BitVec.ofNat 48 ((a % 256 + bs.length + 255) / 256) }
/-- Erase the sectors of `n` bytes; FL_CNT_ERASE counts them. -/
def Flash.erase (f : Flash) (a n : Nat) : Flash := { f with dev := eraseBytes f.dev a n, erases := f.erases + BitVec.ofNat 48 ((n + 4095) / 4096) }

/-- The region code of an address, none in the rsvd range (R431). -/
def flashRegion (a : Nat) : Option Nat :=
  if a < 0x2000 then some 0
  else if a < 0x100000 then none
  else ([(0x200000, 1), (0x400000, 2), (0x500000, 3), (0x600000, 4), (0x800000, 5), (0x900000, 6), (0xA00000, 7), (0xB00000, 8), (0xC00000, 9), (0xD00000, 10)].find?
    fun e => a < e.1).map (·.2) |>.getD 11 |> some

/-! ### The controller (R431, R444, R445) -/

def Flash.chan (f : Flash) (c : Nat) : FlChan := if c = 0 then f.ch0 else f.ch1
def Flash.setChan (f : Flash) (c : Nat) (x : FlChan) : Flash := if c = 0 then { f with ch0 := x } else { f with ch1 := x }

/-- The channel's core SRAM: `n` bytes from `a`; a byte beyond the SRAM is a free value (log entry 30). -/
def State.coreSram (s : State) (c a n : Nat) : List Byte :=
  let m := if c = 0 then s.skn.keeperSram else s.skn.stewardSram
  let size := if c = 0 then 524288 else 1048576
  (List.range n).map fun i => if a + i < size then SMap.get 0 m (a + i) else s.drawAt 8 i

/-- Write the channel's core SRAM; bytes beyond the SRAM are not written. -/
def State.setCoreSram (s : State) (c a : Nat) (bs : List Byte) : State :=
  if c = 0 then { s with skn := { s.skn with keeperSram := Mem.write 0 s.skn.keeperSram a (bs.take (524288 - a)) } }
  else { s with skn := { s.skn with stewardSram := Mem.write 0 s.skn.stewardSram a (bs.take (1048576 - a)) } }

/-- The refusal of an operation at GO; the rsvd range is open to neither channel (log entry 30). -/
def flCheck (s : State) (c : Nat) (x : FlChan) : Option Status :=
  let a := x.addr.toNat
  let n := if x.op = 3 then 4096 else x.len.toNat
  if ¬ s.fl.ok then some 0x0A05
  else if flashBytes < a + n ∨ (x.op = 3 ∧ a % 4096 ≠ 0) ∨ (x.op = 2 ∧ (n = 0 ∨ 256 < a % 256 + n)) ∨ (x.op = 1 ∧ (n = 0 ∨ 65536 < n)) then some 0x0A01
  else if x.op ≠ 1 ∧ (match flashRegion a with | none => true | some r => decide (c = 1) && !bit s.fl.acl r : Bool) then some 0x0A02
  else if x.op = 3 ∧ s.bnd.pwrWarn then some 0x0A06
  else none

/-- Begin the next pending operation: the channels alternate. -/
def State.flBegin (s : State) : State :=
  let f := s.fl
  if f.run.isSome then s
  else
    let pick : Option Nat := [1 - f.last, f.last].find? fun c => (f.chan c).busy
    match pick with
    | none => s
    | some c =>
      let x := f.chan c
      let data := if x.op = 2 then s.coreSram c x.sram.toNat x.len.toNat else []
      { s with freeCount := s.freeCount + data.length, fl := { f with last := c, run := some { chan := c, op := x.op, addr := x.addr.toNat, len := x.len.toNat, sram := x.sram.toNat, data := data } } }.emit
        (.flash (Config.sfdpOpcode x.op.toNat) x.addr.toNat)

/-- GO of a channel by class `cls` (channel 0 K, channel 1 K and S). -/
def flGo (s : State) (cls : Cls) (c : Nat) (op : BitVec 2) (addr : BitVec 32) (len : BitVec 17) (sram : BitVec 20) : State :=
  if ¬ (cls = .K ∨ (cls = .S ∧ c = 1)) then s
  else
    let x := s.fl.chan c
    if x.busy then s
    else
      let x := { x with op := op, addr := addr, len := len, sram := sram }
      if op = 0 then s.setFl (s.fl.setChan c { x with status := 0 })
      else match flCheck s c x with
        | some st => s.setFl (s.fl.setChan c { x with status := st })
        | none => (s.setFl (s.fl.setChan c { x with busy := true })).flBegin

def flChanOf (c : Bool) : Nat := if c then 1 else 0

def execFlRead (cls : Cls) (chan : Bool) (addr : BitVec 32) (len : BitVec 17) (sram : BitVec 20) (s : State) : Host.Outcome State Fault Refusal :=
  .next (flGo s cls (flChanOf chan) 1 addr len sram)
def execFlProgram (cls : Cls) (chan : Bool) (addr : BitVec 32) (len : BitVec 17) (sram : BitVec 20) (s : State) : Host.Outcome State Fault Refusal :=
  .next (flGo s cls (flChanOf chan) 2 addr len sram)
def execFlErase (cls : Cls) (chan : Bool) (addr : BitVec 32) (s : State) : Host.Outcome State Fault Refusal :=
  .next (flGo s cls (flChanOf chan) 3 addr (s.fl.chan (flChanOf chan)).len (s.fl.chan (flChanOf chan)).sram)

/-- What the device holds after an operation that verified, or after one that did not: a program only clears bits and an erase only sets
them; which of them took effect in an operation that failed or was cut is open (log entry 30). -/
def FlRun.effect (r : FlRun) (f : Flash) (ok : Bool) (noise : List Byte) : Flash :=
  let old := f.read r.addr (if r.op = 3 then 4096 else r.len)
  match r.op.toNat with
  | 2 => f.place r.addr ((old.zip (r.data.zip noise)).map fun x => x.1 &&& (if ok then x.2.1 else x.2.1 ||| x.2.2))
  | 3 => if ok then f.erase r.addr 4096 else f.place r.addr ((old.zip noise).map fun x => x.1 ||| x.2)
  | _ => f

/-- The sector with which a failed erase or program at `a` is marked bad: the first of its slot in a two-copy region, its own in the Sinter
ring and elsewhere (R461). -/
def badSector (a : Nat) : Option Nat :=
  match flashRegion a with
  | some 7 | some 9 => some (a / 0x4000 * 4)
  | some 8 => some (a / 0x10000 * 16)
  | _ => some (a / 4096)

/-- Mark a sector bad in the defect ledger (R461, R644). -/
def State.markSector (s : State) (n : Nat) : State := (s.setFl { s.fl with bad := s.fl.bad ++ [n] }).defect 0 4 (some n)

/-- FL_OP_COMPLETE: the running device operation ends, verified or not (R444, R461). -/
def flComplete (s : State) (ok : Bool) : State :=
  match s.fl.run with
  | none => s
  | some r =>
    let n := if r.op = 3 then 4096 else r.len
    let noise := (List.range n).map fun i => s.drawAt 8 i
    let s := if ok then s else s.drawn n
    let f := r.effect s.fl ok noise
    let f := { f with run := none, erases := if r.op = 3 then s.fl.erases + 1 else s.fl.erases, progs := if r.op = 2 then s.fl.progs + 1 else s.fl.progs }
    let st : Status := if ok ∨ r.op = 1 then 0 else if r.op = 3 then 0x0A03 else 0x0A04
    let s := s.setFl (f.setChan r.chan { f.chan r.chan with busy := false, status := st })
    let s := match (if st = 0 then none else badSector r.addr) with | some n => s.markSector n | none => s
    (if r.op = 1 then s.setCoreSram r.chan r.sram (s.fl.read r.addr r.len) else s).flBegin

def execFlOpComplete (ok : Bool) (s : State) : Host.Outcome State Fault Refusal := .next (flComplete s ok)

/-- A cold reset cuts the operation that runs. -/
def State.flCut (s : State) : State :=
  match s.fl.run with
  | none => s
  | some r =>
    let n := if r.op = 3 then 4096 else r.len
    let f := r.effect s.fl false ((List.range n).map fun i => s.drawAt 8 i)
    (s.drawn n).setFl { f with run := none }

/-! ### The cast-on header (R433 to R436) -/

/-- One image kind's entry. -/
structure HdrKind where
  state : Nat := 0
  attempts : Nat := 0
  bytes : Nat := 0
  sdigest : List Byte := List.replicate 48 0
  deriving DecidableEq, Repr

/-- A header copy. -/
structure Header where
  seq : Nat
  mib : Nat
  kinds : List HdrKind := [{}, {}, {}]
  deriving DecidableEq, Repr

/-- A little-endian number. -/
def leNat (bs : List Byte) : Nat := bs.foldr (fun b a => b.toNat + 256 * a) 0
/-- `n` bytes from `o`. -/
def sub (bs : List Byte) (o n : Nat) : List Byte := (bs.drop o).take n
def zeros (n : Nat) : List Byte := List.replicate n 0

def Header.bytes (h : Header) : List Byte :=
  let b := [0x52, 0x44, 0x53, 0x48, 1, 0, 0, 0] ++ leBytes 8 (BitVec.ofNat 64 h.seq) ++ leBytes 4 (BitVec.ofNat 32 h.mib) ++ zeros 12 ++
    h.kinds.flatMap fun k => [BitVec.ofNat 8 k.state, BitVec.ofNat 8 k.attempts, 0, 0] ++ leBytes 4 (BitVec.ofNat 32 k.bytes) ++ k.sdigest ++ zeros 8
  b ++ sha384 b

/-- A header copy that is valid. -/
def headerOf (bs : List Byte) : Option Header :=
  if sub bs 0 4 ≠ [0x52, 0x44, 0x53, 0x48] ∨ sub bs 224 48 ≠ sha384 (sub bs 0 224) then none
  else some {
    seq := leNat (sub bs 8 8), mib := leNat (sub bs 16 4)
    kinds := (List.range 3).map fun k =>
      let o := 32 + 64 * k
      { state := leNat (sub bs o 1), attempts := leNat (sub bs (o + 1) 1), bytes := leNat (sub bs (o + 4) 4), sdigest := sub bs (o + 8) 48 } }

/-- The copy in use and its header (R434). -/
def Flash.header (f : Flash) : Option (Nat × Header) :=
  match headerOf (f.read 0 272), headerOf (f.read 0x1000 272) with
  | some a, some b => if a.seq < b.seq then some (1, b) else some (0, a)
  | some a, none => some (0, a)
  | none, some b => some (1, b)
  | none, none => none

/-- Kind `k` of the header in use. -/
def Flash.hdrKind (f : Flash) (k : Nat) : HdrKind := match f.header with | some (_, h) => h.kinds.getD k {} | none => {}

/-- Program a header copy at `a`: the erased sector's pages 1 to 15, then page 0; `noise` says which bits of page 0 did not take (R435). -/
def Flash.placeHeader (f : Flash) (a : Nat) (h : Header) (noise : List Byte) : Flash :=
  let bs := h.bytes ++ List.replicate (4096 - h.bytes.length) 0xFF
  ((f.erase a 4096).place (a + 256) (bs.drop 256)).place a (((bs.take 256).zip noise).map fun x => x.1 ||| x.2)

/-- A header commit (R435): the copy not in use, SEQ one above, read back and checked. `torn`: page 0 does not verify, which of its bits took is
open, and the sector is marked bad (R461). Answers whether the copy reads back. -/
def State.commitHeader (s : State) (k : Nat) (x : HdrKind) (torn : Bool := false) : State × Bool :=
  match s.fl.header with
  | some (c, h) =>
    let a := if c = 0 then 0x1000 else 0
    let h := { h with seq := h.seq + 1, kinds := h.kinds.set k x }
    let noise := if torn then (List.range 256).map fun i => s.drawAt 8 i else List.replicate 256 0
    let s := s.setFl (s.fl.placeHeader a h noise)
    (if torn then (s.drawn 256).markSector (a / 4096) else s, decide (headerOf (s.fl.read a 272) = some h))
  | none => (s, false)

/-- With neither copy valid the ROM writes a new header: SEQ 1, every STATE IDLE (R434). -/
def State.headerReady (s : State) : State :=
  if s.fl.header.isSome then s
  else (s.setFl (s.fl.placeHeader 0 { seq := 1, mib := Config.flashMiB } (List.replicate 256 0))).log 0x0A000085

/-! ### Images (R699, R700) -/

/-- Image region and staging region of kind `k`: base and size. -/
def imageRegion (k : Nat) : Nat × Nat := [(0x100000, 0x100000), (0x200000, 0x200000), (0x400000, 0x100000)].getD k (0x400000, 0x100000)
def stageRegion (k : Nat) : Nat × Nat := [(0x500000, 0x100000), (0x600000, 0x200000), (0x800000, 0x100000)].getD k (0x800000, 0x100000)

/-- A manifest and the image behind it. -/
structure Image where
  man : List Byte
  body : List Byte

def Image.svn (i : Image) : Nat := leNat (sub i.man 14 2)
def Image.entry (i : Image) : Nat := leNat (sub i.man 20 4)
def Image.digest (i : Image) : List Byte := sha384 i.body
def imageBytes (man : List Byte) : Nat := leNat (sub man 16 4)

/-- What a region holds, read as a manifest and its image. -/
def Flash.image (f : Flash) (region : Nat × Nat) : Image :=
  let man := f.read region.1 8192
  { man := man, body := f.read (region.1 + 8192) (min (imageBytes man) (region.2 - 8192)) }

/-- Condition 7: a row program is a payload, an image of kinds 0 and 1 fits its SRAM. -/
def Image.fits (i : Image) (k : Nat) : Bool :=
  if k = 2 then (rowPayload i.body).isSome else i.body.length ≤ (if k = 0 then 524288 else 1048576)

/-- Well formed for kind `k` in a region of `size` bytes: conditions 1, 2, 3 and 7. -/
def Image.wellFormed (i : Image) (k size : Nat) : Bool :=
  let n := imageBytes i.man
  sub i.man 0 4 = [0x52, 0x44, 0x53, 0x4D] && leNat (sub i.man 4 2) = 1 && leNat (sub i.man 6 1) = k && leNat (sub i.man 8 2) = 0x0E4B &&
  leNat (sub i.man 10 2) = 0x0D52 && leNat (sub i.man 12 1) ≤ 0x21 && sub i.man 13 1 = [0] && sub i.man 72 56 = zeros 56 && sub i.man 7539 653 = zeros 653 &&
  1 ≤ n && 8192 + n ≤ size && (k = 2 || (i.entry % 4 = 0 && i.entry < n)) && (k ≠ 2 || i.entry = 0) && i.digest = sub i.man 24 48 && i.fits k

/-- The message representative of ML-DSA with an empty context (FIPS 204). -/
def mldsaMu (pub msg : List Byte) : List Byte := shake256 (shake256 pub 64 ++ [0, 0] ++ msg) 64

/-- A P-384 signature over SHA-384 of `msg` and an ML-DSA-87 signature over `msg`, under the two public keys. -/
def hybridVerify (pubP pubM sigP sigM msg : List Byte) : Bool :=
  let q := (number (pubP.take 48), number (pubP.drop 48))
  p384.accepts q (number (sigP.take 48)) (number (sigP.drop 48)) (sha384 msg) && mldsaVerify 3 pubM (mldsaMu pubM msg) sigM

/-- ROOT_KEY_HASHES is LOCKED, and the bytes hash to the root that SIGNER names; an owner root of zero verifies nothing. -/
def State.rootMatches (s : State) (signer : Nat) (keys : List Byte) : Bool :=
  let h := s.otp.bytes (if signer = 0 then 0x018 else 0x024) 48
  s.otp.pst 3 = 1 && signer ≤ 1 && (signer = 0 || h ≠ zeros 48) && sha384 keys = h

/-- The image verifies: conditions 4, 5 and 6 besides. -/
def State.verifies (s : State) (k : Nat) (i : Image) (size : Nat) : Bool :=
  let m := i.man
  i.wellFormed k size && s.rootMatches (leNat (sub m 7 1)) (sub m 128 2688) &&
  hybridVerify (sub m 128 96) (sub m 224 2592) (sub m 2816 96) (sub m 2912 4627) (sub m 0 2816) && s.otp.counter k ≤ i.svn

/-! ### Records (R437 to R443) -/

/-- A two-copy structure: KIND, base of copy A, slots and slot size; copy B lies 0x8_0000 behind (R431, R432). -/
structure Store where
  kind : Nat
  base : Nat
  slots : Nat
  size : Nat

def storeOf (kind : Nat) : Store :=
  match kind with
  | 1 => ⟨1, 0xB00000, 32, 0x4000⟩
  | 2 => ⟨2, 0xC00000, 128, 0x1000⟩
  | 4 => ⟨4, 0x900000, 32, 0x4000⟩
  | _ => ⟨5, 0xA00000, 8, 0x10000⟩

def Store.addr (t : Store) (copy slot : Nat) : Nat := t.base + 0x80000 * copy + t.size * slot

/-- A record read from flash. -/
structure Rec where
  kind : Nat
  copy : Nat
  fmt : Nat
  seq : Nat
  epoch : Nat
  unlocks : Nat
  flags : BitVec 8
  optime : Nat
  compactAt : Nat
  payload : List Byte
  deriving DecidableEq, Repr

/-- Bytes 0 to 63. -/
def Rec.head (r : Rec) : List Byte :=
  [0x52, 0x44, 0x53, 0x4C, BitVec.ofNat 8 r.kind, BitVec.ofNat 8 r.copy] ++ leBytes 2 (BitVec.ofNat 16 r.fmt) ++ leBytes 8 (BitVec.ofNat 64 r.seq) ++
  leBytes 2 (BitVec.ofNat 16 r.epoch) ++ [BitVec.ofNat 8 r.unlocks, r.flags] ++ leBytes 4 (BitVec.ofNat 32 r.payload.length) ++
  leBytes 8 (BitVec.ofNat 64 r.optime) ++ leBytes 8 (BitVec.ofNat 64 r.compactAt) ++ zeros 24

/-- Records are sealed now: the state permits secret use, slot 3 holds the sealing root, no debug grant since the cold reset (R440, R442, R459). -/
def State.canSeal (s : State) : Bool := s.secretOk && (s.skn.slot 3).valid && !s.lc.dbgSince

/-- The label and the derivation input of a record's key (R438). -/
def keyName (kind fmt epoch : Nat) : Nat × List Byte :=
  if kind = 4 then (4, leBytes 2 (BitVec.ofNat 16 fmt)) else (3, BitVec.ofNat 8 kind :: leBytes 2 (BitVec.ofNat 16 epoch))

/-- Keeper derives a ledger or configuration key into the highest free slot, where it does not hold it and may (R439, R459): ENCRYPT_ONLY,
engine DIG, owner 64, 256 bits. -/
def State.deriveStoreKey (s : State) (n : Nat × List Byte) : State :=
  if ¬ s.canSeal ∨ (s.storeKey n.1 n.2).isSome then s
  else match (List.range' 64 192).reverse.find? fun i => !s.skn.locked i with
    | none => s
    | some t =>
      let x := { s.skn.slot t with
        mat := ofLeBytes 512 (derive (s.skn.slot 3).bytes ((deriveLabel n.1).getD "") [] n.2 32), valid := true, written := true, usage := 0
        engines := ofBits 9 [engDig], owner := 64, len := 0, exportable := false, origin := 4 }
      (s.setSkn (s.skn.setSlot t x)).noteStoreKey n.1 n.2 t

/-- TAG (R438), as Steward's DIG_FINISH with the key in its slot gives it; none without the key. -/
def State.recTag (s : State) (r : Rec) : Option (List Byte) :=
  let n := keyName r.kind r.fmt r.epoch
  (s.storeKey n.1 n.2).map fun t => kmac256 (s.skn.slot t).bytes (r.head ++ r.payload) 32 (ascii "RDSL")

/-- The record as written. -/
def State.recBytes (s : State) (r : Rec) : List Byte := r.head ++ (if bit r.flags 0 then (s.recTag r).getD (zeros 32) else zeros 32) ++ r.payload

/-- The record at an address of a slot of `size` bytes, valid under R440. -/
def State.recAt (s : State) (kind copy a size : Nat) : Option Rec :=
  let h := s.fl.read a 96
  let len := leNat (sub h 20 4)
  if sub h 0 4 ≠ [0x52, 0x44, 0x53, 0x4C] ∨ leNat (sub h 4 1) ≠ kind ∨ leNat (sub h 5 1) ≠ copy ∨ size < 96 + len then none
  else
    let r : Rec := { kind := kind, copy := copy, fmt := leNat (sub h 6 2), seq := leNat (sub h 8 8), epoch := leNat (sub h 16 2), unlocks := leNat (sub h 18 1)
                     flags := (sub h 19 1).headD 0, optime := leNat (sub h 24 8), compactAt := leNat (sub h 32 8), payload := s.fl.read (a + 96) len }
    let e := s.otp.counter 3
    let sealedOk := kind = 5 ∨ ¬ s.secretOk ∨ (bit r.flags 0 ∧ r.head = sub h 0 64 ∧ s.recTag r = some (sub h 64 32))
    let epochOk := 4 ≤ kind ∨ r.epoch = e ∨ (e < 256 ∧ r.epoch = e + 1)
    if sealedOk ∧ epochOk then some r else none

/-- The one with the highest SEQ, the earlier of equals. -/
def newestOf (l : List (Nat × Rec)) : Option (Nat × Rec) :=
  l.foldl (fun b x => match b with | some y => if y.2.seq < x.2.seq then some x else some y | none => some x) none

/-- A sector that is not marked bad (R461). -/
def State.sectorGood (s : State) (n : Nat) : Bool := !(s.fl.bad.contains n || s.fl.defects.any fun d => d.state = 4 && d.number.toNat = n)

/-- A slot none of whose sectors is marked bad. -/
def State.slotGood (s : State) (t : Store) (copy slot : Nat) : Bool := (List.range' (t.addr copy slot / 4096) (t.size / 4096)).all s.sectorGood

/-- The valid records of a copy with their slots, bad slots left aside. -/
def State.recsOf (s : State) (t : Store) (copy : Nat) : List (Nat × Rec) :=
  ((List.range t.slots).filter (s.slotGood t copy)).filterMap fun i => (s.recAt t.kind copy (t.addr copy i) t.size).map fun r => (i, r)

/-- The newest record of a structure (R441); none of a kind that the life-cycle state does not let Steward read (R442). -/
def State.newest (s : State) (kind : Nat) : Option Rec :=
  let t := storeOf kind
  if kind ≠ 5 ∧ ¬ s.secretOk then none else (newestOf (s.recsOf t 0 ++ s.recsOf t 1)).map (·.2)

/-- Write a record into the next good slot of a copy; the first `fails` attempts do not verify: what they leave is open, and their slot is
marked bad (R443, R461). Answers whether an attempt verified. -/
def State.writeCopy (t : Store) (copy : Nat) (r : Rec) : Nat → Nat → Nat → State → State × Bool
  | 0, _, _, s => (s, false)
  | k + 1, fails, slot, s =>
    let next := (slot + 1) % t.slots
    let bs := s.recBytes { r with copy := copy }
    let a := t.addr copy slot
    let f := s.fl.erase a ((bs.length + 4095) / 4096 * 4096)
    if ¬ s.slotGood t copy slot then State.writeCopy t copy r k fails next s
    else if 0 < fails then
      let s' := (s.drawn bs.length).setFl (f.place a (bs.zipIdx.map fun x => x.1 ||| s.drawAt 8 x.2))
      State.writeCopy t copy r k (fails - 1) next (s'.markSector (a / 4096))
    else (s.setFl (f.place a bs), true)

/-- The slot after the copy's newest valid record, slot 0 if none. -/
def State.nextSlot (s : State) (t : Store) (copy : Nat) : Nat :=
  match newestOf (s.recsOf t copy) with | some (i, _) => (i + 1) % t.slots | none => 0

/-- Fewer than two good slots in either copy (R461). -/
def State.storeFailed (s : State) (t : Store) : Bool := [0, 1].any fun c => ((List.range t.slots).filter (s.slotGood t c)).length < 2

/-- Attempts of a write that do not verify before one does, where no command says how many: a free value (R461, log entry 30). -/
def State.writeFails (s : State) (i : Nat) : Nat := (s.drawAt 3 i).toNat

/-- The repair before the first commit after a cold reset (R442). -/
def State.repairStore (s : State) (t : Store) : State :=
  if bit s.fl.repaired t.kind then s
  else
    let blank (a : Nat) : Bool := (s.fl.read a 256).all (· = 0xFF)
    let torn := [0, 1].flatMap fun c => ((List.range t.slots).filter fun i => (s.recAt t.kind c (t.addr c i) t.size).isNone && !blank (t.addr c i)).map fun i => t.addr c i
    let s := s.setFl { torn.foldl (fun f a => f.erase a t.size) s.fl with repaired := putBit s.fl.repaired t.kind true }
    match newestOf (s.recsOf t 0 ++ s.recsOf t 1), newestOf (s.recsOf t 1) with
    | some (_, r), b =>
      if (match b with | some (_, q) => decide (q.seq < r.seq) | none => true : Bool) then
        let w := State.writeCopy t 1 r (2 * t.slots) (s.writeFails 0) (s.nextSlot t 1) (s.drawn 1)
        if w.2 then w.1.log 0x0A000081 else w.1
      else s
    | none, _ => s

/-- A compaction has begun and its counter bit is not yet programmed (R457). -/
def State.compactionOpen (s : State) : Bool :=
  [1, 2].any fun k => match s.newest k with | some r => r.epoch = s.otp.counter 3 + 1 | none => false

/-- A commit takes OPTIME on (R437). -/
def State.tickOptime (s : State) : State := s.setFl { s.fl with optime := s.optime, optimeAt := some s.bnd.timebase }

/-- A commit of records of `kind` may begin: it erases, so PWR_WARN_N is high (R445), and a sealed kind may be written and its key is there. -/
def State.mayCommit (s : State) (kind fmt epoch : Nat) : Bool :=
  let n := keyName kind fmt epoch
  !s.bnd.pwrWarn && (kind = 5 || (s.canSeal && (s.storeKey n.1 n.2).isSome))

/-- How the latest commit or compaction ended. -/
def State.flStatus (s : State) (st : Status) : State := s.setFl { s.fl with status := st }

/-- Commit a record of a two-copy structure (R443): repair first, copy A, copy B; `fails` counts the slots of each copy that do not verify, free
where the command does not say.
A structure that is failed, or in which a copy runs out of good slots, ends it with PS_REGION_FAILED (R461). -/
def State.commitRec (s : State) (kind fmt epoch : Nat) (flags : BitVec 8) (compactAt : Option Nat) (payload : List Byte) (fails : Option (Nat × Nat) := none) : State :=
  let t := storeOf kind
  let s := if kind = 5 then s else s.deriveStoreKey (keyName kind fmt epoch)
  if ¬ s.mayCommit kind fmt epoch then s
  else
    let s := s.repairStore t
    let fails := fails.getD (s.writeFails 0, s.writeFails 1)
    let s := s.drawn 2
    let seq := match s.newest kind with | some r => r.seq | none => 0
    let s := s.tickOptime
    let r : Rec := { kind := kind, copy := 0, fmt := fmt, seq := seq + 1, epoch := epoch, unlocks := s.lc.unlocks.toNat
                     flags := if kind = 5 then flags else flags ||| 1, optime := s.fl.optime
                     compactAt := compactAt.getD s.fl.compactAt, payload := payload }
    let failed (s : State) : State := (s.flStatus 0x0A09).log 0x0A000088
    if s.storeFailed t then failed s
    else match State.writeCopy t 0 r (2 * t.slots) fails.1 (s.nextSlot t 0) s with
      | (s, false) => failed s
      | (s, true) => match State.writeCopy t 1 r (2 * t.slots) fails.2 (s.nextSlot t 1) s with
        | (s, false) => failed s
        | (s, true) =>
          let s := if kind = 2 then s.setFl { s.fl with wearAt := s.bnd.timebase } else s
          (s.flStatus 0).log 0x0A000080

/-- The keys of the ledgers under the epochs that are read, and of the configuration records that the store holds (R439). -/
def State.storeKeysIn (s : State) : State :=
  let e := s.otp.counter 3
  let t := storeOf 4
  let fmts := [0, 1].flatMap fun c => (List.range t.slots).filterMap fun i =>
    let h := s.fl.read (t.addr c i) 8
    if sub h 0 4 = [0x52, 0x44, 0x53, 0x4C] ∧ leNat (sub h 4 1) = 4 then some (leNat (sub h 6 2)) else none
  let ledger := [1, 2, 3].flatMap fun k => keyName k 0 e :: (if e < 256 then [keyName k 0 (e + 1)] else [])
  (ledger ++ (Config.cfgFormat :: fmts).eraseDups.map fun f => keyName 4 f 0).foldl State.deriveStoreKey s

/-! ### Defect ledger (R644, R645) -/

def Defect.bytes (d : Defect) : List Byte :=
  leBytes 2 d.unitId ++ [d.state, d.cls] ++ leBytes 4 d.number ++ leBytes 4 d.optime ++ leBytes 2 d.transients ++ [0, 0]
def defectOf (bs : List Byte) : Defect :=
  { unitId := ofLeBytes 16 (sub bs 0 2), state := ofLeBytes 8 (sub bs 2 1), cls := ofLeBytes 8 (sub bs 3 1), number := ofLeBytes 32 (sub bs 4 4)
    optime := ofLeBytes 32 (sub bs 8 4), transients := ofLeBytes 16 (sub bs 12 2) }

def State.defectPayload (s : State) : List Byte :=
  leBytes 4 (BitVec.ofNat 32 s.fl.defects.length) ++ zeros 12 ++ s.fl.defects.flatMap Defect.bytes

/-- Commit the defect ledger when entries are due and Steward runs; COMPACT marks the record that first dropped one (R645). -/
def State.commitDefects (s : State) : State :=
  if ¬ s.fl.defectsDue ∨ ¬ s.canSeal ∨ s.compactionOpen ∨ s.bnd.pwrWarn then s
  else (s.setFl { s.fl with defectsDue := false, defectsTold := s.fl.defectsTold || s.fl.defectsDropped }).commitRec 1 1 (s.otp.counter 3)
    (if s.fl.defectsDropped ∧ ¬ s.fl.defectsTold then 2 else 0) none s.defectPayload

/-- The entries of the newest record, which Steward takes up at a cold start ahead of those that the start has made. A full ledger under COMPACT has dropped one before (log entry 48). -/
def State.loadDefects (s : State) : State :=
  match s.newest 1 with
  | some r =>
    let l := ((List.range (leNat (sub r.payload 0 4))).map fun i => defectOf (sub r.payload (16 + 16 * i) 16)) ++ s.fl.defects
    s.setFl { s.fl with
      defects := l.drop (l.length - 1000)
      defectsDropped := s.fl.defectsDropped || 1000 < l.length
      defectsTold := bit r.flags 1 && leNat (sub r.payload 0 4) = 1000 }
  | none => s

/-! ### Wear ledger (R448, R586 to R590) -/

/-- The BUDGET and W_INIT of a wear part, in units of 4 stress-hours (R587). -/
def State.wearBudget (s : State) (p : Nat) : Nat := (field (SMap.get 0 s.re.paramNow (0x198 + p)) 0 16).toNat
def State.wearInit (s : State) (p : Nat) : Nat := (field (SMap.get 0 s.re.paramNow (0x198 + p)) 16 16).toNat
/-- 4 stress-hours in stress-ms. -/
def wearUnit : Nat := 14400000

/-- IDENT of a part: the start of the site's leaf-certificate digest, zero for stacks. -/
def State.wearIdent (s : State) (p : Nat) : List Byte := if p < 24 then ((SMap.get {} s.att.sites p : AttSite).leafDigest).take 16 ++ zeros (16 - ((SMap.get {} s.att.sites p : AttSite).leafDigest).length) else zeros 16

/-- An entry of the payload for a part of identity `ident` (R590, R589). -/
def State.wearEntry (s : State) (p : Nat) (accrued : W64) (ident : List Byte) : List Byte :=
  let b := s.wearBudget p
  let past (tenths : Nat) : Bool := b ≠ 0 && tenths * b * wearUnit ≤ 10 * accrued.toNat
  [if p < 24 then 0 else 1, BitVec.ofNat 8 (if p < 24 then p else p - 24), BitVec.ofNat 8 (b2n (bit s.fl.assumed p) + 2 * b2n (past 9) + 4 * b2n (past 10)), 0] ++
  leBytes 8 accrued ++ leBytes 4 (BitVec.ofNat 32 b) ++ ident

/-- ACCRUED and IDENT of part `p` in a record. -/
def wearOf (r : Rec) (p : Nat) : Nat := leNat (sub r.payload (32 * p + 4) 8)
def wearName (r : Rec) (p : Nat) : List Byte := sub r.payload (32 * p + 16) 16

/-- The accrued stress of part `p` as the row program publishes it: the shipped program's word, a free value of any other (R586, log entry 31). -/
def State.accruedPub (s : State) (p : Nat) : W64 := if s.re.shipped ∧ ¬ s.re.bank then SMap.get 0 s.re.committed (0x140 + p) else s.drawAt 64 p

/-- WEAR_LEDGER_COMMIT: a record of the published accruals (R590). -/
def wearCommit (s : State) (fails : Nat × Nat) : State :=
  if s.compactionOpen ∨ ¬ s.bnd.ready ∨ s.bnd.pwrWarn then s
  else
    let payload := (List.range 40).flatMap fun p => s.wearEntry p (s.accruedPub p) (s.wearIdent p)
    ((s.drawn 40).commitRec 2 1 (s.otp.counter 3) 0 none payload (some fails)).commitDefects

def execWearLedgerCommit (failsA failsB : BitVec 3) (s : State) : Host.Outcome State Fault Refusal := .next (wearCommit s (failsA.toNat, failsB.toNat))

/-- The LOST_INTERVAL record of a cold start (R448): the entries of the newest record, charged, under the identities that it holds; once no compaction is open and it may be written. -/
def State.lostInterval (s : State) : State :=
  if ¬ s.fl.lostDue ∨ ¬ s.canSeal ∨ s.bnd.pwrWarn ∨ s.compactionOpen then s
  else
    let old := s.newest 2
    let s := s.setFl { s.fl with lostDue := false, wearNew := old.isNone }
    let secs := if (old.map (·.unlocks)).getD 0 < s.lc.unlocks.toNat then 900 + 65535 else 900
    let payload := (List.range 40).flatMap fun p =>
      s.wearEntry p (BitVec.ofNat 64 ((match old with | some r => wearOf r p | none => s.wearInit p * wearUnit) + 16000 * secs))
        (match old with | some r => wearName r p | none => zeros 16)
    s.commitRec 2 1 (s.otp.counter 3) 4 none payload

/-- The newest LOST_INTERVAL record of the wear ledger (R448). -/
def State.newestLost (s : State) : Option Rec :=
  let t := storeOf 2
  if s.secretOk then (newestOf ((s.recsOf t 0 ++ s.recsOf t 1).filter fun x => bit x.2.flags 2)).map (·.2) else none

/-- Part `p` enters BASE: it has not entered, and a site's attestation has ended (R588). -/
def State.wearDue (s : State) (p : Nat) : Bool :=
  let x : AttSite := SMap.get {} s.att.sites p
  !bit s.fl.baseDone p && (24 ≤ p || (x.step.isNone && 2 ≤ x.status.toNat))

/-- Before Steward has written them in a start, the BASE words hold all ones (R587). -/
def State.wearBlank (s : State) : State :=
  let ones (m : SMap W64) : SMap W64 := (List.range 40).foldl (fun m p => SMap.set 0 m (0x170 + p) (BitVec.allOnes 64)) m
  { s with re := { s.re with param := ones s.re.param, paramNow := ones s.re.paramNow } }

/-- Steward writes the BASE word of part `p` once in a start (R587, R588). -/
def State.wearBase (s : State) (p : Nat) : State :=
  if ¬ s.wearDue p then s
  else
    let cold := s.bnd.lastReset.toNat < 3
    let old := if cold then s.newestLost <|> s.newest 2 else s.newest 2
    let known := match old with | some r => decide (wearName r p = s.wearIdent p ∧ ¬ (cold ∧ s.fl.wearNew)) | none => false
    let passed := s.bnd.timebase.toNat - s.fl.wearAt.toNat
    let base : Nat := match old with
      | some r => if known then wearOf r p + (if cold then 0 else 16 * passed / 1000000) else s.wearInit p * wearUnit
      | none => s.wearInit p * wearUnit
    let s := { s with
      fl := { s.fl with baseDone := putBit s.fl.baseDone p true, assumed := putBit s.fl.assumed p (!known) }
      re := { s.re with param := SMap.set 0 s.re.param (0x170 + p) (BitVec.ofNat 64 base), paramReq := true } }
    if known then s else s.log 0x0C0000A5 (p0 := BitVec.ofNat 64 p)

/-- Steward's BASE words after READY. -/
def State.wearBases (s : State) : State := if s.bnd.ready then (List.range 40).foldl State.wearBase s else s

/-! ### Sinter checkpoints (R449 to R452) -/

def ckBase : Nat := 0xD00000

/-- The checkpoint record at an address, but for its tag (R440): MAGIC, KIND, COPY, LENGTH and EPOCH. -/
def State.ckAt (s : State) (a : Nat) : Option Rec :=
  let h := s.fl.read a 96
  let len := leNat (sub h 20 4)
  let e := s.otp.counter 3
  let epoch := leNat (sub h 16 2)
  if sub h 0 4 = [0x52, 0x44, 0x53, 0x4C] ∧ leNat (sub h 4 1) = 3 ∧ sub h 5 1 = [0] ∧ a % 4096 + 96 + len ≤ 4096 ∧ (epoch = e ∨ (e < 256 ∧ epoch = e + 1)) then
    some { kind := 3, copy := 0, fmt := leNat (sub h 6 2), seq := leNat (sub h 8 8), epoch := epoch, unlocks := leNat (sub h 18 1)
           flags := (sub h 19 1).headD 0, optime := leNat (sub h 24 8), compactAt := leNat (sub h 32 8), payload := s.fl.read (a + 96) len }
  else none

/-- The record's tag verifies. -/
def State.ckTagged (s : State) (a : Nat) (r : Rec) : Bool := bit r.flags 0 && (s.recTag r = some (s.fl.read (a + 64) 32))

/-- Every checkpoint on the device that `p` admits: every page that something has been written to may begin one. -/
def State.checkpoints (s : State) (p : Nat → Rec → Bool) : List (Nat × Rec) :=
  (((s.fl.dev.filter fun e => ckBase ≤ e.1 && e.1 % 256 = 0).map (·.1)).filterMap fun a => (s.ckAt a).map fun r => (a, r)).filter fun x => p x.1 x.2

/-- The newest valid checkpoint (R440): in a state that permits secret use, sealed under a tag that verifies. -/
def State.ckValid (s : State) : Option (Nat × Rec) := newestOf (s.checkpoints fun a r => !s.secretOk || s.ckTagged a r)

/-- The last checkpoint of the chain, which the next one names and follows (R449, R459): unsealed records belong to it, and a sealed one whose
tag Steward cannot check for want of keys counts by its header (log entry 30). -/
def State.ckNewest (s : State) : Option (Nat × Rec) := newestOf (s.checkpoints fun a r => !bit r.flags 0 || !s.canSeal || s.ckTagged a r)

/-- The sector at `a` reads 0xFF throughout. -/
def Flash.blank (f : Flash) (a : Nat) : Bool := !(f.dev.any fun e => decide (a ≤ e.1 ∧ e.1 < a + 4096))

/-- The sector behind the one that holds `a`; the ring wraps. -/
def sectorBehind (a : Nat) : Nat := let b := a / 4096 * 4096 + 4096; if b + 4096 ≤ flashBytes then b else ckBase

/-- `a`, or the start of the next sector that is not bad (R461). -/
def State.ckSkip (s : State) : Nat → Nat → Nat
  | 0, a => a
  | k + 1, a => if s.sectorGood (a / 4096) then a else s.ckSkip k (sectorBehind a)

/-- The good sector behind the one that holds `a`. -/
def State.ckBehind (s : State) (a : Nat) : Nat := s.ckSkip (s.fl.bad.length + s.fl.defects.length + 1) (sectorBehind a)

/-- Where the next record of `n` bytes goes: the page behind the newest, or the next good sector when it would cross one; the ring wraps. -/
def State.ckNext (s : State) (n : Nat) : Nat :=
  match s.ckNewest with
  | none => s.ckSkip (s.fl.bad.length + s.fl.defects.length + 1) ckBase
  | some (a, r) =>
    let e := (a + 96 + r.payload.length + 255) / 256 * 256
    if e % 4096 ≠ 0 ∧ e % 4096 + n ≤ 4096 ∧ s.sectorGood (a / 4096) then e else s.ckBehind a

/-- Where a checkpoint of `n` bytes goes; the emergency checkpoint takes the sector ahead. -/
def State.ckPlace (s : State) (n : Nat) (ahead : Bool) : Nat :=
  let a := s.ckNext n
  if ahead ∧ a % 4096 ≠ 0 then s.ckBehind a else a

/-- No checkpoint can be written: it needs an erase, which PWR_WARN_N low refuses (R445), or a key that no slot holds. -/
def State.ckBlocked (s : State) (n : Nat) (ahead : Bool) : Bool :=
  let a := s.ckPlace n ahead
  (s.bnd.pwrWarn && a % 4096 = 0 && !s.fl.blank a) ||
  (s.canSeal && let k := keyName 3 0 (s.otp.counter 3); (s.storeKey k.1 k.2).isNone && (List.range' 64 192).all s.skn.locked)

/-- Attempts that do not verify: what they leave is open, their sectors are marked bad (R461). -/
def State.ckFails : Nat → List Byte → State → State
  | 0, _, s => s
  | k + 1, bs, s =>
    let a := s.ckPlace bs.length false
    let f := if a % 4096 = 0 ∧ ¬ s.fl.blank a then s.fl.erase a 4096 else s.fl
    State.ckFails k bs (((s.drawn bs.length).setFl (f.place a (bs.zipIdx.map fun x => x.1 ||| s.drawAt 8 x.2))).markSector (a / 4096))

/-- Write a checkpoint of these entries (R449) behind `fails` attempts that do not verify: one that begins a sector finds it erased or
erases it, and the sector behind is kept erased (R451). FORMAT is open. -/
def State.checkpoint (s : State) (epoch : Nat) (flags : BitVec 8) (es : List SntEntry) (sectorAhead : Bool := false) (fails : Nat := 0) : State :=
  let s := s.deriveStoreKey (keyName 3 0 epoch)
  let prev := match s.ckNewest with | some (a, r) => sha384 (s.fl.read a (96 + r.payload.length)) | none => zeros 48
  let s := s.tickOptime
  let payload := prev ++ es.flatMap SntEntry.bytes
  let r : Rec := { kind := 3, copy := 0, fmt := (s.draw 16).toNat, seq := (s.ckNewest.map (·.2.seq)).getD 0 + 1, epoch := epoch, unlocks := s.lc.unlocks.toNat
                   flags := flags ||| (if s.canSeal then 1 else 0), optime := s.fl.optime
                   compactAt := if bit flags 1 then s.fl.optime else s.fl.compactAt, payload := payload }
  let bs := s.recBytes r
  let s := (s.drawn 1).ckFails fails bs
  let a := s.ckPlace bs.length sectorAhead
  let f := if a % 4096 = 0 ∧ ¬ s.fl.blank a then s.fl.erase a 4096 else s.fl
  let f : Flash := { f.place a bs with ckDue := false, ckBytes := s.fl.ckBytes + bs.length }
  let b := s.ckBehind a
  s.setFl (if s.bnd.pwrWarn ∨ f.blank b then f else f.erase b 4096)

/-- Entries not checkpointed, oldest first. -/
def Snt.waiting (x : Snt) : List SntEntry := (List.range x.pend).map fun i => SMap.get {} x.ring ((x.ckpt.toNat + i) % sntSize)

/-- Entries that a sector holds behind a record header and PREV. -/
def ckMost : Nat := 123

/-- The long-run limit of checkpoint writes in bytes per second (R460). -/
def ckRate : Nat := (flashBytes - ckBase) * 100000 / 631152000

/-- `n` more bytes exceed the limit, with one sector ahead of it (log entry 30). -/
def State.ckThrottled (s : State) (n : Nat) : Bool := 4096 + ckRate * ((s.now - s.fl.ckFrom.toNat) / 1000000000) < s.fl.ckBytes + n

/-- The longest beginning of a list of entries with at most 61 event codes. -/
def ckCodes : List (BitVec 32) → List SntEntry → List SntEntry
  | _, [] => []
  | seen, e :: l => if seen.contains e.code then e :: ckCodes seen l else if seen.length < 61 then e :: ckCodes (e.code :: seen) l else []

/-- The first entry of each event code, and behind it the count of the code in P1[63:32] of a copy (R460, log entry 30). -/
def ckCondensed (es : List SntEntry) : List SntEntry :=
  (es.map (·.code)).eraseDups.flatMap fun c =>
    match es.find? fun e => e.code = c with
    | some e => [e, { e with p1 := putField e.p1 32 32 (BitVec.ofNat 32 (es.filter fun x => x.code = c).length) }]
    | none => []

/-- SINTER_CHECKPOINT (R451): the oldest pending entries, as many as a sector takes; CKPT moves behind them (R719). Beyond the limit of R460
only the first entry and a count of each code go into it. How many sectors do not verify before one does is open (R461, log entry 30). -/
def sinterCheckpoint (s : State) : State :=
  let w := s.snt.waiting
  let all := w.take ckMost
  let throttled := s.ckThrottled (144 + 32 * all.length)
  let es := if throttled then ckCodes [] w else all
  let out := if throttled then ckCondensed es else es
  if es.isEmpty ∨ s.ckBlocked (144 + 32 * out.length) false then s
  else
    let s := (s.drawn 1).checkpoint (s.otp.counter 3) 0 out false (s.draw 3).toNat
    let s := { s with snt := { s.snt with ckpt := s.snt.ckpt + BitVec.ofNat 21 es.length, pend := s.snt.pend - es.length } }
    if throttled then s.log 0x0A000087 else s

def execSinterCheckpoint (s : State) : Host.Outcome State Fault Refusal := .next (sinterCheckpoint s)

/-- The checkpoint that a bind-off calls for (R451). -/
def State.ckOwed (s : State) : State := if s.fl.ckDue then sinterCheckpoint (s.setFl { s.fl with ckDue := false }) else s

/-- PWR_WARN_N falls: one page with the newest pending entries that fit, into the erased sector ahead (R452); CKPT stays. -/
def State.warnCheckpoint (s : State) : State :=
  let w := s.snt.waiting
  if w.isEmpty ∨ s.ckBlocked 256 true then s else s.checkpoint (s.otp.counter 3) 0 (w.drop (w.length - 3)) true

/-- OPTIME at a cold start: the highest of the newest records; and the OPTIME of the last completed compaction, which the ledger records of
the present epoch carry (R437). -/
def State.loadOptime (s : State) : State :=
  let l := ([1, 2, 4, 5].filterMap s.newest).map (·.optime) ++ (s.ckValid.map fun x => x.2.optime).toList
  let c := ([1, 2].flatMap fun k => ((s.recsOf (storeOf k) 0 ++ s.recsOf (storeOf k) 1).map (·.2)).filter fun r => r.epoch = s.otp.counter 3).map (·.compactAt)
  s.setFl { s.fl with optime := l.foldl max s.fl.optime, compactAt := c.foldl max s.fl.compactAt }

/-! ### Compaction (R455 to R457) -/

/-- The conditions of R455. -/
def State.mayCompact (s : State) : Bool :=
  s.lc.state = 4 && s.otp.counter 3 < 256 && !((List.range 96).any fun i => bit s.otp.weak (0x4C8 + i)) &&
  (match s.newest 2 with | some r => r.compactAt + 2592000 ≤ r.optime | none => false)

/-- Steps 1 and 2 of a compaction to epoch `e + 1`, or what is missing of them (R456, R457): its event, the ledgers, the checkpoint. The
status tells whether every commit succeeded. -/
def State.compactRecords (s : State) (e : Nat) : State :=
  let s := s.flStatus 0
  let due (s : State) (k : Nat) : Bool := match s.newest k with | some r => r.epoch ≠ e + 1 | none => true
  let s := if due s 1 then s.commitRec 1 1 (e + 1) 2 (some s.optime) s.defectPayload else s.repairStore (storeOf 1)
  if s.fl.status ≠ 0 then s
  else
    let s := if due s 2 then
      let payload := match s.newest 2 with | some r => r.payload | none => (List.range 40).flatMap fun p => s.wearEntry p (BitVec.ofNat 64 (s.wearInit p * wearUnit)) (zeros 16)
      s.commitRec 2 1 (e + 1) 2 (some s.optime) payload
    else s.repairStore (storeOf 2)
    if s.fl.status ≠ 0 ∨ (s.checkpoints fun a r => r.epoch = e + 1 && s.ckTagged a r) ≠ [] then s else (s.drawn 1).checkpoint (e + 1) 2 [] false (s.writeFails 0)

/-- Both ledgers and a checkpoint stand in epoch `e + 1`: step 3 may follow. -/
def State.compactReady (s : State) (e : Nat) : Bool :=
  s.fl.status = 0 && ([1, 2].all fun k => match s.newest k with | some r => r.epoch = e + 1 | none => false) &&
  (s.checkpoints fun a r => r.epoch = e + 1 && s.ckTagged a r) ≠ []

/-- Step 3: Keeper begins the program of bit `e` of counter 3. -/
def State.compactProgram (s : State) (e : Nat) : State :=
  otpProgram { s with otp := { s.otp with wdata := BitVec.ofNat 32 (2 ^ (e % 32)) } } (0x4C8 + 24 + e / 32)

/-- The program of step 3 has ended: with the counter above `e` the compaction is complete, and Keeper erases the ledger keys of epoch `e`
(R456). -/
def State.compactEnd (s : State) (e : Nat) : State :=
  if s.otp.counter 3 ≤ e then s
  else
    let at2 := match s.newest 2 with | some r => r.compactAt | none => s.fl.compactAt
    let old := [1, 2, 3].map fun k => (keyName k 0 e).2
    ((s.setFl { s.fl with compactAt := at2 }).eraseStoreKeys fun k => k.label = 3 && old.contains k.ident).log 0x0A000083

/-- COMPACTION: begun under R455, or refused with PS_COMPACT_REFUSED, or resumed under R457; its last step programs bit E of counter 3, and
these are that program's outcomes. -/
def compaction (s : State) (b : Burn) : State :=
  let e := s.otp.counter 3
  let resume := s.compactionOpen
  if ¬ (resume ∨ s.mayCompact) then s.flStatus 0x0A08
  else if ¬ s.canSeal ∨ s.otp.running.isSome ∨ s.bnd.pwrWarn then s
  else
    let s := (s.log (if resume then 0x0A000084 else 0x0A000082)).compactRecords e
    if ¬ s.compactReady e then s
    else
      let s := s.compactProgram e
      (if s.otp.running.isSome then otpOpComplete s b else s).compactEnd e

def execCompaction (burn : Burn) (s : State) : Host.Outcome State Fault Refusal := .next (compaction s burn)

/-- Steward finds a compaction open at a start and resumes it before any other ledger commit (R457): steps 1 and 2, and Keeper begins step 3,
which OTP_OP_COMPLETE ends. While PWR_WARN_N is low or OTP is busy it is still due. -/
def State.resumeCompaction (s : State) : State :=
  if ¬ s.fl.resumeDue then s
  else if ¬ s.compactionOpen then s.setFl { s.fl with resumeDue := false }
  else if ¬ s.canSeal ∨ s.otp.running.isSome ∨ s.bnd.pwrWarn then s
  else
    let e := s.otp.counter 3
    let s := ((s.setFl { s.fl with resumeDue := false }).log 0x0A000084).compactRecords e
    if s.compactReady e then s.compactProgram e else s

/-- OTP_OP_COMPLETE: the program or re-burn ends, and with it step 3 of a compaction that was resumed at a start (R392, R457). -/
def otpOpEnds (s : State) (b : Burn) : State :=
  let e := s.otp.counter 3
  let step3 := s.otp.running.any fun r => r.user = .command && !r.reburn && r.addr = 0x4C8 + 24 + e / 32
  let s' := otpOpComplete s b
  if step3 ∧ s.compactionOpen then s'.compactEnd e else s'

def execOtpOpComplete (burn : Burn) (s : State) : Host.Outcome State Fault Refusal := .next (otpOpEnds s burn)

/-! ### Configuration store (R447) -/

/-- Keeper erases the configuration keys of other formats than the one in use. -/
def State.cfgKeysDrop (s : State) : State := s.eraseStoreKeys fun k => k.label = 4 && k.ident ≠ leBytes 2 (BitVec.ofNat 16 Config.cfgFormat)

/-- The migration of the newest configuration record to the write format, once it may be written. -/
def State.migrateConfig (s : State) : State :=
  let w := Config.cfgFormat
  if ¬ s.fl.cfgDue ∨ ¬ s.canSeal ∨ s.bnd.pwrWarn then s
  else match s.newest 4 with
    | some r => ((s.setFl { s.fl with cfgDue := false }).commitRec 4 w (s.otp.counter 3) 0 none (Config.cfgTranslate r.fmt r.payload)).cfgKeysDrop
    | none => s.setFl { s.fl with cfgDue := false }

/-- Steward's first start after a reset: use, translate or ignore the newest configuration record. -/
def State.loadConfig (s : State) : State :=
  let w := Config.cfgFormat
  match s.newest 4 with
  | some r =>
    if r.fmt = w then s.cfgKeysDrop
    else if Config.cfgLowest ≤ r.fmt ∧ r.fmt < w then (s.setFl { s.fl with cfgDue := true }).migrateConfig
    else (s.log 0x0A000086 (p0 := BitVec.ofNat 64 r.fmt) (p1 := BitVec.ofNat 64 w)).cfgKeysDrop
  | none => (s.log 0x0A000086 (p1 := BitVec.ofNat 64 w)).cfgKeysDrop

/-- Steward's work on the stores at a start (R439, R442, R447, R448, R457). -/
def State.storesStart (s : State) (warm : Bool) : State :=
  let s := s.storeKeysIn
  let s := if warm then s else s.loadOptime.loadDefects
  let s := if warm then s else s.setFl { s.fl with lostDue := s.canSeal, ckBytes := 0, ckFrom := s.bnd.timebase }
  (s.setFl { s.fl with resumeDue := s.compactionOpen }).resumeCompaction.lostInterval.loadConfig

/-- What of that work could not be done yet, once a row. -/
def State.storesRow (s : State) : State := s.resumeCompaction.ckOwed.lostInterval.migrateConfig.commitDefects

/-! ### Registers -/

def flChanRegs (c : Nat) : List Reg :=
  let base := 0x0F00100 + 0x100 * c
  let cap := if c = 0 then capK else capKS
  let w (cls : Cls) : Bool := cls = .K || (cls = .S && c = 1)
  [ { base := base, allow := cap, get := fun _ _ s => (s.fl.chan c).op.setWidth 64
      put := fun _ cls v m s =>
        if ¬ w cls then s
        else
          let x := s.fl.chan c
          let op := mrg x.op 0 v m
          if bit (v &&& m) 2 ∧ ¬ x.busy then flGo s cls c op x.addr x.len x.sram else s.setFl (s.fl.setChan c { x with op := op }) },
    { base := base + 8, allow := cap, get := fun _ _ s => (s.fl.chan c).addr.setWidth 64
      put := fun _ cls v m s => if w cls then s.setFl (s.fl.setChan c { s.fl.chan c with addr := mrg (s.fl.chan c).addr 0 v m }) else s },
    { base := base + 16, allow := cap, get := fun _ _ s => (s.fl.chan c).len.setWidth 64
      put := fun _ cls v m s => if w cls then s.setFl (s.fl.setChan c { s.fl.chan c with len := mrg (s.fl.chan c).len 0 v m }) else s },
    { base := base + 24, allow := cap, get := fun _ _ s => (s.fl.chan c).sram.setWidth 64
      put := fun _ cls v m s => if w cls then s.setFl (s.fl.setChan c { s.fl.chan c with sram := mrg (s.fl.chan c).sram 0 v m }) else s },
    { base := base + 32, allow := cap, get := fun _ _ s => pack [(0, b2n (s.fl.chan c).busy), (16, (s.fl.chan c).status.toNat)] } ]

def flashRegs : List Reg :=
  [ { base := 0x0F00000, allow := capKSO
      get := fun _ _ s => pack [(0, Config.flashMiB), (16, b2n s.fl.ok), (32, Config.flashTse.toNat), (48, Config.flashTpp.toNat)] },   -- FL_CFG
    { base := 0x0F00008, allow := capKS, get := fun _ _ s => s.fl.acl.setWidth 64                                                      -- FL_ACL
      put := fun _ c v m s => if c = .K then s.setFl { s.fl with acl := mrg s.fl.acl 0 v m } else s },
    { base := 0x0F00040, allow := capKSO, get := fun _ _ s => s.fl.erases.setWidth 64 },
    { base := 0x0F00048, allow := capKSO, get := fun _ _ s => s.fl.progs.setWidth 64 } ] ++ flChanRegs 0 ++ flChanRegs 1

end Sys2Proof.Machine
end

