-- ==== Sys2Proof/Machine/X509.lean ====
section
/-! DEFINITION. Certificates under the profile of R464: the DER of X.509 v3 (RFC 5280) with the alternative-key extensions, issued and judged
by both signatures (R463). -/
namespace Sys2Proof.Machine

/-! ### DER -/

/-- The length octets of a content of `n` bytes. -/
def derLen (n : Nat) : List Byte :=
  if n < 128 then [BitVec.ofNat 8 n]
  else if n < 256 then [0x81, BitVec.ofNat 8 n]
  else if n < 65536 then 0x82 :: beBytes 2 (BitVec.ofNat 16 n)
  else 0x83 :: beBytes 3 (BitVec.ofNat 24 n)

/-- An element of a tag. -/
def der (tag : Nat) (body : List Byte) : List Byte := BitVec.ofNat 8 tag :: derLen body.length ++ body
def derSeq (l : List (List Byte)) : List Byte := der 0x30 l.flatten
def derOid (o : List Byte) : List Byte := der 0x06 o
/-- The contents of an INTEGER with these big-endian bytes: minimal and not negative. -/
def derNat (bs : List Byte) : List Byte :=
  match bs.dropWhile (· = 0) with
  | [] => [0]
  | b :: r => if bit b 7 then 0 :: b :: r else b :: r
def derInt (bs : List Byte) : List Byte := der 0x02 (derNat bs)
/-- A BIT STRING of whole bytes. -/
def derBits (bs : List Byte) : List Byte := der 0x03 (0 :: bs)

/-- An element read: tag and contents. -/
structure Tlv where
  tag : Byte
  body : List Byte

def Tlv.bytes (t : Tlv) : List Byte := der t.tag.toNat t.body

/-- The element at the front, with minimal definite length, and the rest. -/
def derRead : List Byte → Option (Tlv × List Byte)
  | t :: l :: r =>
    let long (n : Nat) : Option (Tlv × List Byte) :=
      let len := number (r.take n)
      let c := (r.drop n).take len
      if r.length < n ∨ c.length ≠ len ∨ derLen len ≠ l :: r.take n then none else some ({ tag := t, body := c }, (r.drop n).drop len)
    if l.toNat < 128 then (let c := r.take l.toNat; if c.length ≠ l.toNat then none else some ({ tag := t, body := c }, r.drop l.toNat))
    else if l.toNat ≤ 0x83 then long (l.toNat - 0x80)
    else none
  | _ => none

/-- The elements of a content, at most `n`. -/
def derList : Nat → List Byte → Option (List Tlv)
  | _, [] => some []
  | 0, _ => none
  | n + 1, bs => do
    let (t, r) ← derRead bs
    let l ← derList n r
    some (t :: l)

/-- The elements of a SEQUENCE. -/
def Tlv.seq (t : Tlv) (n : Nat) : Option (List Tlv) := if t.tag = 0x30 then derList n t.body else none

/-! ### Object identifiers -/

def oidEcKey : List Byte := [0x2A, 0x86, 0x48, 0xCE, 0x3D, 0x02, 0x01]
def oidP384 : List Byte := [0x2B, 0x81, 0x04, 0x00, 0x22]
def oidEcdsa384 : List Byte := [0x2A, 0x86, 0x48, 0xCE, 0x3D, 0x04, 0x03, 0x03]
def oidMldsa87 : List Byte := [0x60, 0x86, 0x48, 0x01, 0x65, 0x03, 0x04, 0x03, 0x13]
def oidSha384 : List Byte := [0x60, 0x86, 0x48, 0x01, 0x65, 0x03, 0x04, 0x02, 0x02]
def oidCn : List Byte := [0x55, 0x04, 0x03]
def oidSerial : List Byte := [0x55, 0x04, 0x05]
def oidBasic : List Byte := [0x55, 0x1D, 0x13]
def oidUsage : List Byte := [0x55, 0x1D, 0x0F]
def oidSki : List Byte := [0x55, 0x1D, 0x0E]
def oidAki : List Byte := [0x55, 0x1D, 0x23]
def oidAltKey : List Byte := [0x55, 0x1D, 0x48]
def oidAltAlg : List Byte := [0x55, 0x1D, 0x49]
def oidAltSig : List Byte := [0x55, 0x1D, 0x4A]
def oidUeid : List Byte := [0x67, 0x81, 0x05, 0x05, 0x04, 0x04]
def oidTcb : List Byte := [0x67, 0x81, 0x05, 0x05, 0x04, 0x05]

/-! ### The profile of R464 -/

/-- The subjectKeyIdentifier of two public keys. -/
def keyId (pubP pubM : List Byte) : List Byte := (sha384 (pubP ++ pubM)).take 20

def sigAlg : List Byte := derSeq [derOid oidEcdsa384]
def altAlg : List Byte := derSeq [derOid oidMldsa87]
def spkiP (pub : List Byte) : List Byte := derSeq [derSeq [derOid oidEcKey, derOid oidP384], derBits (0x04 :: pub)]
def spkiM (pub : List Byte) : List Byte := derSeq [altAlg, derBits pub]

/-- An extension. -/
def derExt (oid : List Byte) (critical : Bool) (value : List Byte) : List Byte :=
  derSeq [derOid oid, if critical then [0x01, 0x01, 0xFF] else [], der 0x04 value]

/-- A name of a common name and a serial number, each an RDN of its own. -/
def derName (cn serial : List Byte) : List Byte :=
  derSeq [der 0x31 (derSeq [derOid oidCn, der 0x0C cn]), der 0x31 (derSeq [derOid oidSerial, der 0x13 serial])]

/-- A nibble and a byte string in hex digits. -/
def hexDigit (n : Nat) : Byte := BitVec.ofNat 8 (if n < 10 then 48 + n else 87 + n)
def hexBytes (bs : List Byte) : List Byte := bs.flatMap fun b => [hexDigit (b.toNat / 16), hexDigit (b.toNat % 16)]

/-- A tbsCertificate from its fields and extensions. -/
def tbsOf (serial issuer validity subject pubP : List Byte) (exts : List (List Byte)) : List Byte :=
  derSeq [der 0xA0 (derInt [2]), derInt serial, sigAlg, issuer, validity, subject, spkiP pubP, der 0xA3 (derSeq exts)]

/-- A certificate from the tbsCertificate and the raw signature r ‖ s. -/
def certOf (tbs rs : List Byte) : List Byte :=
  derSeq [tbs, sigAlg, derBits (derSeq [derInt (rs.take 48), derInt (rs.drop 48)])]

/-- One entry of MultiTcbInfo: svn and the one fwid. -/
def tcbInfo (svn digest : List Byte) : List Byte := derSeq [der 0x83 (derNat svn), der 0xA6 (derSeq [derOid oidSha384, der 0x04 digest])]

/-- What a certificate says. -/
structure Cert where
  tbs : List Byte
  bare : List Byte                    -- the tbsCertificate without altSignatureValue
  issuer : List Byte
  subject : List Byte
  notBefore : List Byte               -- the DER element
  pubP : List Byte
  pubM : List Byte
  ski : List Byte
  aki : List Byte
  ca : Bool
  pathLen : Option (List Byte)
  usage : List Byte                   -- contents of the keyUsage BIT STRING
  rs : List Byte                      -- r ‖ s
  alt : List Byte

/-- Contents of the extension `oid` under criticality `critical`. -/
def extOf (l : List Tlv) (oid : List Byte) (critical : Bool) : Option (List Byte) :=
  l.findSome? fun t => match t.seq 3 with
    | some [o, c, v] => if critical ∧ o.bytes = derOid oid ∧ c.bytes = [0x01, 0x01, 0xFF] ∧ v.tag = 0x04 then some v.body else none
    | some [o, v] => if ¬ critical ∧ o.bytes = derOid oid ∧ v.tag = 0x04 then some v.body else none
    | _ => none

/-- The extension is altSignatureValue. -/
def isAltSig (t : Tlv) : Bool := match t.seq 3 with | some (o :: _) => o.bytes = derOid oidAltSig | _ => false

/-- The contents of the BIT STRING that is the whole of `bs`. -/
def bitsOf (bs : List Byte) : Option (List Byte) :=
  match derRead bs with | some (t, []) => (if t.tag = 0x03 ∧ t.body.head? = some 0 then some t.body.tail else none) | _ => none

/-- An unsigned INTEGER of at most 48 bytes, as 48. -/
def int48 (t : Tlv) : Option (List Byte) :=
  let b := t.body.dropWhile (· = 0)
  if t.tag = 0x02 ∧ t.body.headD 0x80 &&& 0x80 = 0 ∧ b.length ≤ 48 then some (List.replicate (48 - b.length) 0 ++ b) else none

/-- The extensions that every certificate of the profile carries. -/
def parseExts (l : List Tlv) : Option (Bool × Option (List Byte) × List Byte × List Byte × List Byte × List Byte × List Byte) := do
  let basic ← extOf l oidBasic true
  let usage ← extOf l oidUsage true
  let altKey ← extOf l oidAltKey false
  let altA ← extOf l oidAltAlg false
  let altS ← extOf l oidAltSig false
  let ski ← extOf l oidSki false
  let aki ← extOf l oidAki false
  let (b, br) ← derRead basic
  let bl ← b.seq 2
  let (ca, path) ← match bl with
    | [] => some (false, none)
    | [c] => if c.bytes = [0x01, 0x01, 0xFF] then some (true, none) else none
    | [c, p] => if c.bytes = [0x01, 0x01, 0xFF] ∧ p.tag = 0x02 then some (true, some p.body) else none
    | _ => none
  let (u, ur) ← derRead usage
  let alt ← bitsOf altS
  let pubM := altKey.drop (altKey.length - 2592)
  let sk ← derRead ski
  let ak ← derRead aki
  let id ← ak.1.seq 3
  if br ≠ [] ∨ ur ≠ [] ∨ u.tag ≠ 0x03 ∨ altKey ≠ spkiM pubM ∨ altA ≠ altAlg ∨ alt.length ≠ 4627 ∨ sk.2 ≠ [] ∨ sk.1.tag ≠ 0x04 ∨ ak.2 ≠ [] then none
  else match id with
    | k :: _ => if k.tag = 0x80 then some (ca, path, u.body, pubM, alt, sk.1.body, k.body) else none
    | [] => none

/-- A certificate in the profile of R464. -/
def parseCert (bs : List Byte) : Option Cert := do
  let (top, rest) ← derRead bs
  let parts ← top.seq 3
  match rest, parts with
  | [], [tbs, alg, sig] =>
    let fields ← tbs.seq 8
    let raw ← bitsOf sig.bytes
    let (rs, rr) ← derRead raw
    match fields, rs.seq 2, rr with
    | [ver, serial, salg, issuer, validity, subject, spki, exts], some [r, t], [] =>
      let r ← int48 r
      let t ← int48 t
      let times ← validity.seq 2
      let (x, xr) ← derRead exts.body
      let l ← x.seq 32
      let (ca, path, usage, pubM, alt, ski, aki) ← parseExts l
      let pubP := spki.body.drop (spki.body.length - 96)
      let bare := l.filter fun e => !isAltSig e
      if ver.bytes ≠ der 0xA0 (derInt [2]) ∨ serial.tag ≠ 0x02 ∨ salg.bytes ≠ sigAlg ∨ alg.bytes ≠ sigAlg ∨ spki.bytes ≠ spkiP pubP ∨ exts.tag ≠ 0xA3 ∨ xr ≠ [] ∨
          bare.length + 1 ≠ l.length then none
      else match times with
        | [nb, _] =>
          some { tbs := tbs.bytes, issuer := issuer.bytes, subject := subject.bytes, notBefore := nb.bytes, pubP := pubP, pubM := pubM, ski := ski, aki := aki
                 ca := ca, pathLen := path, usage := usage, rs := r ++ t, alt := alt
                 bare := derSeq [ver.bytes, serial.bytes, salg.bytes, issuer.bytes, validity.bytes, subject.bytes, spki.bytes, der 0xA3 (derSeq (bare.map Tlv.bytes))] }
        | _ => none
    | _, _, _ => none
  | _, _ => none

/-- keyUsage has bit `i`, numbered from the first. -/
def Cert.uses (c : Cert) (i : Nat) : Bool := match c.usage.drop 1 with | b :: _ => bit b (7 - i) | [] => false

/-- Both signatures of `c` verify under the keys of `i`, which is its issuer by name and key (R463, R464). -/
def Cert.signedBy (c i : Cert) : Bool :=
  c.issuer = i.subject && c.aki = i.ski && i.ski = keyId i.pubP i.pubM && c.ski = keyId c.pubP c.pubM &&
  p384Verify i.pubP c.rs c.tbs && mldsaVerify 3 i.pubM (mldsaMu i.pubM c.bare) c.alt
where
  /-- A P-384 signature r ‖ s over SHA-384 of a message. -/
  p384Verify (pub rs msg : List Byte) : Bool :=
    let q := (number (pub.take 48), number (pub.drop 48))
    p384.accepts q (number (rs.take 48)) (number (rs.drop 48)) (sha384 msg)

/-- A chain from a leaf to its self-signed root: every certificate is signed by the next, which may sign. -/
def chainSigned : List Cert → Bool
  | [] => false
  | [r] => r.signedBy r
  | c :: i :: l => i.ca && c.signedBy i && chainSigned (i :: l)

/-- The hash of a root's two public keys. -/
def Cert.rootHash (c : Cert) : List Byte := sha384 (c.pubP ++ c.pubM)

/-- The certificates of a list of DER bytes, when all are in the profile. -/
def parseCerts (l : List (List Byte)) : Option (List Cert) := l.mapM parseCert

end Sys2Proof.Machine
end

