-- ==== Sys2Proof/Machine/Spdm.lean ====
section
/-! DEFINITION. SPDM 1.2 and 1.3 (DSP0274) as R475 to R479 use it: the requests that Keeper sends to a chiplet and the reading of its responses, the
chain and the signature that a chiplet shows, the answers to the host. The manual names the standard; the encodings here are the standard's
(log entry 33). -/
namespace Sys2Proof.Machine

/-- A little-endian number of `n` bytes. -/
def le (n v : Nat) : List Byte := leBytes n (BitVec.ofNat (8 * n) v)
/-- SHA-384 or SHA-256. -/
def spdmHash (big : Bool) (bs : List Byte) : List Byte := if big then sha384 bs else sha256 bs

/-- What a signature of SPDM 1.2 or 1.3 is made over: the prefix of the version, the context in 36 bytes, the hash of the transcript. -/
def spdmSigned (ver : Byte) (context : String) (hash : List Byte) : List Byte :=
  let v := ascii (if ver = 0x13 then "dmtf-spdm-v1.3.*" else "dmtf-spdm-v1.2.*")
  v ++ v ++ v ++ v ++ zeros (36 - (ascii context).length) ++ ascii context ++ hash

/-! ### Chains and signatures of chiplets -/

/-- A key on P-384 (`big`) or P-256. -/
structure EcKey where
  big : Bool
  x : Nat
  y : Nat
  deriving DecidableEq, Repr

def EcKey.curve (k : EcKey) : Curve := if k.big then p384 else p256
/-- The raw signature `sig` verifies over a digest. -/
def EcKey.verifies (k : EcKey) (digest sig : List Byte) : Bool :=
  let n := k.curve.bytes
  sig.length = 2 * n && k.curve.accepts (k.x, k.y) (number (sig.take n)) (number (sig.drop n)) digest

def oidP256 : List Byte := [0x2A, 0x86, 0x48, 0xCE, 0x3D, 0x03, 0x01, 0x07]
def oidEcdsa256 : List Byte := [0x2A, 0x86, 0x48, 0xCE, 0x3D, 0x04, 0x03, 0x02]

/-- What a certificate of a chiplet's chain says: its bytes, the key it certifies, how and over what its issuer signed it. -/
structure ChipCert where
  bytes : List Byte
  tbs : List Byte
  spki : List Byte
  issuer : List Byte
  subject : List Byte
  key : Option EcKey                  -- none for a key that is not on the two curves
  signed : Option Bool                -- ecdsa-with-SHA384, or with SHA256; none for any other algorithm
  rs : List Tlv

/-- The key in a SubjectPublicKeyInfo. -/
def ecKeyOf (spki : Tlv) : Option EcKey := do
  let l ← spki.seq 2
  match l with
  | [a, k] =>
    let al ← a.seq 2
    match al, k.body with
    | [o, c], 0 :: 4 :: pub =>
      let n := pub.length / 2
      let q (big : Bool) : Option EcKey := some { big := big, x := number (pub.take n), y := number (pub.drop n) }
      if o.bytes ≠ derOid oidEcKey then none
      else if c.bytes = derOid oidP384 ∧ pub.length = 96 then q true
      else if c.bytes = derOid oidP256 ∧ pub.length = 64 then q false
      else none
    | _, _ => none
  | _ => none

/-- A certificate read from its element. -/
def chipCertOf (top : Tlv) : Option ChipCert := do
  let parts ← top.seq 3
  match parts with
  | [tbs, alg, sig] =>
    let all ← tbs.seq 10
    let raw ← bitsOf sig.bytes
    let (rs, rest) ← derRead raw
    let l ← rs.seq 2
    match (if (all.head?.map (·.tag)) = some 0xA0 then all.tail else all), rest with
    | _serial :: _alg :: issuer :: _validity :: subject :: spki :: _, [] =>
      some { bytes := top.bytes, tbs := tbs.bytes, spki := spki.bytes, issuer := issuer.bytes, subject := subject.bytes, key := ecKeyOf spki, rs := l
             signed := if alg.bytes = derSeq [derOid oidEcdsa384] then some true else if alg.bytes = derSeq [derOid oidEcdsa256] then some false else none }
    | _, _ => none
  | _ => none

/-- The signature of `c` verifies under the key of its issuer `i`. -/
def ChipCert.signedBy (c i : ChipCert) : Bool :=
  c.issuer = i.subject && match i.key, c.signed, c.rs with
    | some k, some big, [r, t] => match int48 r, int48 t with
      | some r, some t => k.curve.accepts (k.x, k.y) (number r) (number t) (spdmHash big c.tbs)
      | _, _ => false
    | _, _, _ => false

/-- The certificates of a slot's chain, root first: length, two bytes, the root's hash, then the certificates. -/
def chainOf (big : Bool) (bs : List Byte) : Option (List ChipCert) :=
  let h := if big then 48 else 32
  if leNat (sub bs 0 2) ≠ bs.length then none
  else do
    let l ← derList 16 (bs.drop (4 + h))
    l.mapM chipCertOf

/-- Every certificate below the root is signed by the one above it. -/
def chainHolds : List ChipCert → Bool
  | [] => false
  | [_] => true
  | i :: c :: l => c.signedBy i && chainHolds (c :: l)

/-! ### Keeper as requester (R478, R479) -/

/-- Request `k` of the exchange: GET_VERSION, GET_CAPABILITIES, NEGOTIATE_ALGORITHMS, GET_DIGESTS, GET_CERTIFICATE of slot 0 from where the chain
has come to, GET_MEASUREMENTS of all blocks with a signature and `nonce` (R478). -/
def SpdmSide.request (x : SpdmSide) (k : Nat) (nonce : List Byte) : List Byte :=
  match k with
  | 0 => [0x10, 0x84, 0, 0]
  | 1 => [x.ver, 0xE1, 0, 0, 0, Config.spdmOwn 0 8, 0, 0] ++ leBytes 4 (Config.spdmOwn 1 32) ++ le 4 4096 ++ le 4 65536
  | 2 => [x.ver, 0xE3, 0, 0] ++ le 2 32 ++ [1, 0] ++ le 4 0x90 ++ le 4 3 ++ zeros 16
  | 3 => [x.ver, 0x81, 0, 0]
  | 4 => [x.ver, 0x82, 0, 0] ++ le 2 x.chain.length ++ le 2 4088
  | _ => [x.ver, 0xE0, 1, 0xFF] ++ nonce ++ [0] ++ (if x.ver = 0x13 then zeros 8 else [])

/-- The versions that a VERSION response lists, as one byte each. -/
def versionsOf (msg : List Byte) : List Byte := (List.range (leNat (sub msg 5 1))).filterMap fun i => (sub msg (7 + 2 * i) 1).head?

/-- Response `k` read: what it settles, none where it is not the response asked for or selects anything that Keeper did not offer (R478). -/
def SpdmSide.heard (x : SpdmSide) (k : Nat) (msg : List Byte) : Option SpdmSide :=
  let is (ver code : Byte) : Bool := sub msg 0 2 = [ver, code]
  match k with
  | 0 =>
    let l := versionsOf msg
    if ¬ is 0x10 0x04 ∨ msg.length ≠ 6 + 2 * leNat (sub msg 5 1) then none
    else if l.contains 0x13 then some { x with ver := 0x13 } else if l.contains 0x12 then some { x with ver := 0x12 } else none
  | 1 => if is x.ver 0x61 ∧ 20 ≤ msg.length then some { x with ct := leNat (sub msg 5 1) } else none
  | 2 =>
    let meas := leNat (sub msg 8 4)
    let asym := leNat (sub msg 12 4)
    let hash := leNat (sub msg 16 4)
    if is x.ver 0x63 ∧ 36 ≤ msg.length ∧ sub msg 6 1 = [1] ∧ (meas = 2 ∨ meas = 4) ∧ (asym = 0x80 ∨ asym = 0x10) ∧ (hash = 1 ∨ hash = 2) then
      some { x with alg := BitVec.ofNat 32 asym, big := hash = 2 }
    else none
  | 3 => if is x.ver 0x01 ∧ (sub msg 3 1).any (bit · 0) then some x else none
  | 4 =>
    let n := leNat (sub msg 4 2)
    if is x.ver 0x02 ∧ leNat (sub msg 2 1) % 16 = 0 ∧ 0 < n ∧ msg.length = 8 + n then some { x with chain := x.chain ++ msg.drop 8, left := leNat (sub msg 6 2) } else none
  | _ => if is x.ver 0x60 then some x else none

/-- The chain that has come. -/
def SpdmSide.certs (x : SpdmSide) : Option (List ChipCert) := chainOf x.big x.chain
/-- SHA-384 of the leaf certificate (R472). -/
def SpdmSide.leaf (x : SpdmSide) : List Byte := match x.certs with | some l => (match l.getLast? with | some c => sha384 c.bytes | none => []) | none => []
/-- The chain passes R479: at most four certificates below a root whose public-key hash `roots` holds, every signature verified. -/
def SpdmSide.trusts (x : SpdmSide) (roots : List (List Byte)) : Bool :=
  match x.certs with
  | some (r :: l) => l.length ≤ 4 && roots.contains (sha384 r.spki) && chainHolds (r :: l)
  | _ => false

/-- The measurement record of a MEASUREMENTS response. -/
def measRecord (msg : List Byte) : List Byte := sub msg 8 (leNat (sub msg 5 3))

/-- The signature at the end of a MEASUREMENTS response verifies under the leaf's key: over the six messages of the negotiation, the request
and the response; `sent` are the messages before it, the request last. -/
def SpdmSide.proves (x : SpdmSide) (sent : List (List Byte)) (msg : List Byte) : Bool :=
  match x.certs.bind fun l => l.getLast?.bind (·.key) with
  | none => false
  | some k =>
    let n := 2 * k.curve.bytes
    let body := msg.take (msg.length - n)
    let l1 := (sent.take 6).flatten ++ sent.getLast?.getD [] ++ body
    decide (8 + leNat (sub msg 5 3) + 34 ≤ body.length) && k.big = (x.alg = 0x80) &&
    k.verifies (spdmHash x.big (spdmSigned x.ver "responder-measurements signing" (spdmHash x.big l1))) (msg.drop body.length)

/-! ### The block as responder (R475, R476) -/

/-- ERROR with a code and its data byte. -/
def spdmErr (ver code data : Byte) : List Byte := [ver, 0x7F, code, data]
/-- The SPDM error Unspecified (R467). -/
def spdmError : List Byte := spdmErr 0x12 0x05 0

/-- The capability flags of R475: CERT, CHAL, MEAS = 10b, MEAS_FRESH, ENCRYPT, MAC, MUT_AUTH, KEY_EX, KEY_UPD and CHUNK; no PSK, no SET_CERT, no CSR. -/
def hostCaps : BitVec 32 := 0x000243F6

/-- The ReqBaseAsymAlg bits of R475: RSASSA-3072, RSAPSS-3072, RSASSA-4096, RSAPSS-4096, ECDSA P-384. -/
def hostReqAsym : Nat := 0xEC

/-- The lowest bit that two words share, 0 for none. -/
def sharedBit (a b : Nat) : Nat := (((List.range 16).map (2 ^ ·)).find? fun m => a / m % 2 = 1 ∧ b / m % 2 = 1).getD 0

/-- ALGORITHMS: of what the requester offers, what R475 lists; `msg` is NEGOTIATE_ALGORITHMS with its tables. -/
def hostAlgorithms (ver : Byte) (msg : List Byte) : List Byte :=
  let tables := (List.range (leNat (sub msg 2 1))).map fun i => sub msg (32 + 4 * leNat (sub msg 28 1) + 4 * leNat (sub msg 29 1) + 4 * i) 4
  let own (type : Nat) : Nat := match type with | 2 => 0x10 | 3 => 0x02 | 4 => hostReqAsym | 5 => 1 | _ => 0
  let answered := tables.map fun t => sub t 0 1 ++ [0x20] ++ le 2 (sharedBit (leNat (sub t 2 2)) (own (leNat (sub t 0 1))))
  let has (o m : Nat) : Bool := leNat (sub msg o 4) / m % 2 = 1
  [ver, 0x63, BitVec.ofNat 8 answered.length, 0] ++ le 2 (36 + 4 * answered.length) ++ [(sub msg 6 1).headD 0 &&& 1, 0] ++ le 4 4 ++
  le 4 (if has 8 0x80 then 0x80 else 0) ++ le 4 (if has 12 2 then 2 else 0) ++ zeros 16 ++ answered.flatten

/-- The chain of slot 0 in its wire form: the root's hash, then manufacturing CA, DeviceID, Alias (R475). -/
def hostChain (root : List Byte) (certs : List (List Byte)) : List Byte :=
  let body := sha384 root ++ certs.flatten
  le 2 (4 + body.length) ++ [0, 0] ++ body

/-- The answer to a request that needs no signature and no session; none for one that this table does not hold. PSK_EXCHANGE, PSK_FINISH,
GET_CSR and SET_CERTIFICATE are not supported (R475). -/
def hostPlain (chain msg : List Byte) : Option (List Byte) :=
  let ver := msg.headD 0
  let code := (sub msg 1 1).headD 0
  if code = 0x84 then some [0x10, 0x04, 0, 0, 0, 2, 0, 0x12, 0, 0x13]
  else if ver ≠ 0x12 ∧ ver ≠ 0x13 then some (spdmErr 0x12 0x41 0)
  else match code.toNat with
    | 0xE1 => some ([ver, 0x61, 0, 0, 0, Config.spdmOwn 2 8, 0, 0] ++ leBytes 4 hostCaps ++ leBytes 4 (Config.spdmOwn 3 32) ++ leBytes 4 (Config.spdmOwn 4 32))
    | 0xE3 => some (hostAlgorithms ver msg)
    | 0x81 => some ([ver, 0x01, 0, 1] ++ sha384 chain)
    | 0x82 =>
      let o := leNat (sub msg 4 2)
      let n := min (leNat (sub msg 6 2)) (chain.length - o)
      if leNat (sub msg 2 1) % 16 ≠ 0 ∨ chain.length ≤ o then some (spdmErr ver 0x01 0)
      else some ([ver, 0x02, 0, 0] ++ le 2 n ++ le 2 (chain.length - o - n) ++ sub chain o n)
    | 0xE6 | 0xE7 | 0xED | 0xEE => some (spdmErr ver 0x07 code)
    | _ => none

/-- The requests that are answered with a signature: CHALLENGE, KEY_EXCHANGE, and GET_MEASUREMENTS that asks for one. -/
def spdmSigns (msg : List Byte) : Bool :=
  match ((sub msg 1 1).headD 0).toNat with
  | 0x83 | 0xE4 => true
  | 0xE0 => (sub msg 2 1).any (bit · 0)
  | _ => false

/-- DMTFSpecMeasurementValueType (R477); every value is a raw bit stream. -/
inductive MeasType where
  | immutableRom | mutableFirmware | hardwareConfig | firmwareConfig | freeform | manifest
  deriving DecidableEq, Repr

/-- The value type as a measurement block carries it, bit 7 set for a raw bit stream. -/
def MeasType.code : MeasType → Byte
  | .immutableRom => 0x80 | .mutableFirmware => 0x81 | .hardwareConfig => 0x82 | .firmwareConfig => 0x83 | .freeform => 0x84 | .manifest => 0x84

/-- A measurement block: index, DMTF, size, type, size of the value, value. -/
def measBlock (b : Nat × MeasType × List Byte) : List Byte :=
  [BitVec.ofNat 8 b.1, 1] ++ le 2 (3 + b.2.2.length) ++ [b.2.1.code] ++ le 2 b.2.2.length ++ b.2.2

/-- A requester's proof of its own key in a mutually authenticated session: its key's algorithm bit, the key, the signed bytes, the signature. -/
def mutualHolds (p : Config.SpdmProof) : Bool :=
  let h := sha384 p.signed
  let rsa (k scheme : Nat) : Bool :=
    let n := number p.key
    let t := number p.sig
    p.key.length = k && p.sig.length = k && n % 2 = 1 && p.key.headD 0 ≠ 0 && 1 < t && t < n && rsaVerify k scheme n t h
  match p.alg with
  | 0x04 => rsa 384 1
  | 0x20 => rsa 512 1
  | 0x08 => rsa 384 2
  | 0x40 => rsa 512 2
  | 0x80 => p.key.length = 96 && ({ big := true, x := number (p.key.take 48), y := number (p.key.drop 48) } : EcKey).verifies h p.sig
  | _ => false

end Sys2Proof.Machine
end

