-- ==== Sys2Proof/Machine/Attestation.lean ====
section
/-! DEFINITION. Identity, reports, key release, chiplet sites and SPDM (R463 to R490, R53). -/
namespace Sys2Proof.Machine

def State.setAtt (s : State) (a : Att) : State := { s with att := a }
def State.attSite (s : State) (n : Nat) : AttSite := SMap.get {} s.att.sites n
def State.setAttSite (s : State) (n : Nat) (x : AttSite) : State := s.setAtt { s.att with sites := SMap.set {} s.att.sites n x }
def State.attPart (s : State) (d : Nat) : AttPart := SMap.get {} s.att.parts d
def State.setAttPart (s : State) (d : Nat) (x : AttPart) : State := s.setAtt { s.att with parts := SMap.set {} s.att.parts d x }

/-! ### CBOR values in core deterministic encoding -/

def cUint (n : Nat) : List Byte := cborEnc 0 n
def cBstr (bs : List Byte) : List Byte := cborEnc 2 bs.length ++ bs
def cTstr (t : String) : List Byte := cborEnc 3 (ascii t).length ++ ascii t
def cArr (l : List (List Byte)) : List Byte := cborEnc 4 l.length ++ l.flatten
/-- A map of keys and values, both already encoded, the keys in order. -/
def cMap (l : List (List Byte × List Byte)) : List Byte := cborEnc 5 l.length ++ l.flatMap fun e => e.1 ++ e.2
/-- The key -n. -/
def cNeg (n : Nat) : List Byte := cborEnc 1 (n - 1)
def cNull : List Byte := [0xF6]
def cBool (b : Bool) : List Byte := [if b then 0xF5 else 0xF4]
def cOpt (o : Option (List Byte)) : List Byte := o.getD cNull
/-- A byte string, or null for none. -/
def cDigest (bs : List Byte) : List Byte := if bs.isEmpty then cNull else cBstr bs

/-! ### Identity -/

/-- SHA3-384 of the boot ROM (R287). -/
def romDigest : List Byte := sha3_384 Config.rom
/-- The configuration digest (R287): every word of FEATURE, ROOT_KEY_HASHES and IDENTITY as sensed, and the life-cycle state. -/
def State.configDigest (s : State) : List Byte := sha3_384 (s.otp.bytes 0x008 (4 * 0x48) ++ [s.lc.state.setWidth 8])
/-- The identity digest (R287). -/
def State.identityDigest (s : State) : List Byte := sha3_384 (s.otp.bytes 0x038 (4 * 0x18))
/-- UEID (R470). -/
def State.ueid (s : State) : List Byte := 1 :: (sha384 (ascii "RDS2-UEID" ++ s.otp.bytes 0x038 16)).take 16

/-- x5chain: Alias, DeviceID, manufacturing CA (R468). -/
def State.chain (s : State) : List (List Byte) := s.att.aliasCert :: ([s.att.deviceCert, s.att.caCert].filter fun c => !c.isEmpty)

/-- The public keys of slots 1 and 2, as PKE_PUBKEY gives them. -/
def State.deviceKeys (s : State) : List Byte × List Byte := (p384.pub (p384.scalar (s.skn.slot 1).bytes), mldsaPublic 3 (s.skn.slot 2).bytes)

/-- The unit serial in hex digits. -/
def State.serialHex (s : State) : List Byte := hexBytes (s.otp.bytes 0x038 16)
/-- The subjects of the DeviceID and Alias certificates (R464). -/
def State.deviceName (s : State) : List Byte := derName (ascii "Rosdumus DeviceID") s.serialHex
def State.aliasName (s : State) : List Byte := derName (ascii "Rosdumus Alias") s.serialHex

/-- The hash of the authoriser's keys: the owner root where its hash is nonzero, else the vendor root (R424). -/
def State.authoriser (s : State) : List Byte := let o := s.otp.bytes 0x024 48; if o = zeros 48 then s.otp.bytes 0x018 48 else o

/-- Keeper accepts a DeviceID certificate (R466): the profile, the keys of slots 1 and 2, and both signatures up to the vendor root of OTP. -/
def State.deviceAccepted (s : State) (r : Config.CertRecord) : Bool :=
  match parseCerts [r.device, r.ca, r.root] with
  | some [d, c, v] =>
    (s.skn.slot 1).valid && (s.skn.slot 2).valid && (d.pubP, d.pubM) = s.deviceKeys && d.subject = s.deviceName && d.ca && d.pathLen = some [0] && d.uses 5 && chainSigned [d, c, v] &&
    v.rootHash = s.otp.bytes 0x018 48
  | _ => false

/-- Keeper accepts a chiplet-root list (R480): at most 32 hashes, signed by the authoriser with both signatures. -/
def State.rootsAccepted (s : State) (r : Config.CertRecord) : Bool :=
  r.siteRoots.length ≤ 32 && r.siteRoots.all (fun h => h.length = 48) && sha384 (r.signer.1 ++ r.signer.2) = s.authoriser &&
  hybridVerify r.signer.1 r.signer.2 r.sigP r.sigM r.siteRoots.flatten

/-- Keeper judges the newest certificate record (R466, R480). What is refused is not in force, with event ATT_CERT; while slot 1 or 2 is empty no
DeviceID certificate can match. -/
def State.judgeCerts (s : State) : State :=
  match s.newest 5 with
  | none => s.setAtt { s.att with deviceCert := [], caCert := [], siteRoots := none }
  | some p =>
    let r := Config.certRecord p.payload
    let dev := s.deviceAccepted r
    let roots := s.rootsAccepted r
    let s' := s.setAtt { s.att with
      deviceCert := if dev then r.device else []
      caCert := if dev then r.ca else []
      siteRoots := if roots then some r.siteRoots else none }
    if (¬ r.device.isEmpty ∧ ¬ dev) ∨ (¬ r.siteRoots.isEmpty ∧ ¬ roots) then s'.log 0x0B00000B else s'

/-- Evidence is available (R467). -/
def State.evidence (s : State) : Bool := [1, 2, 17, 18].all fun i => (s.skn.slot i).valid

/-- The digests and SVNs of SKN_MEAS with the counters: [ROM, [digest, SVN, counter], …] (R470). -/
def State.fwClaim (s : State) : List Byte :=
  let k := s.skn
  let one (d : BitVec 384) (v : BitVec 16) (c : Nat) : List Byte := cArr [cBstr (leBytes 48 d), cUint v.toNat, cUint (s.otp.counter c)]
  cArr [cBstr romDigest, one k.keeperDig k.keeperSvn 0, one k.stewardDig k.stewardSvn 1, one k.rowDig k.rowSvn 2]

/-- The Alias certificate (R464) of two public keys, signed under slots 1 and 2 with per-message secret `k` and randomness `rnd`; none where
PKE_SIGN reaches its limit of attempts (R354). -/
def State.aliasCertificate (s : State) (pubP pubM : List Byte) (k : Nat) (rnd : List Byte) : Option (List Byte) :=
  let dev := s.deviceKeys
  let sk := s.skn
  let h := (sha384 pubP).take 20
  let serial := match h with | b :: r => (b &&& 0x7F) :: r | [] => []
  let from_ := match parseCert s.att.deviceCert with | some c => c.notBefore | none => Config.aliasFrom
  let validity := derSeq [from_, der 0x18 (ascii "99991231235959Z")]
  let svn (v : BitVec 16) : List Byte := beBytes 2 v
  let exts : List (List Byte) :=
    [ derExt oidBasic true (derSeq []), derExt oidUsage true (der 0x03 [0x07, 0x80]), derExt oidAltKey false (spkiM pubM), derExt oidAltAlg false altAlg,
      derExt oidSki false (der 0x04 (keyId pubP pubM)), derExt oidAki false (derSeq [der 0x80 (keyId dev.1 dev.2)]),
      derExt oidUeid false (derSeq [der 0x04 s.ueid]),
      derExt oidTcb false (derSeq [tcbInfo (svn sk.keeperSvn) (leBytes 48 sk.keeperDig), tcbInfo (svn sk.stewardSvn) (leBytes 48 sk.stewardDig),
        tcbInfo (svn sk.rowSvn) (leBytes 48 sk.rowDig)]) ]
  let tbs (l : List (List Byte)) : List Byte := tbsOf serial s.deviceName validity s.aliasName pubP l
  let (alt, tries) := mldsaSign 3 (sk.slot 2).bytes (mldsaMu dev.2 (tbs exts)) rnd
  let whole := tbs (exts ++ [derExt oidAltSig false (derBits alt)])
  let rs := p384.sign (p384.scalar (sk.slot 1).bytes) k (sha384 whole)
  if 255 < tries then none else some (certOf whole (octets 48 rs.1 ++ octets 48 rs.2))

/-- Keeper issues the Alias certificate under slots 1 and 2 (R465), when slots 17 and 18 hold keys: two PKE_PUBKEY and two PKE_SIGN; one that
reaches its limit is asked for again with the next CAST_ON_STAGE (log entry 47). -/
def State.issueAlias (s : State) : State :=
  if ¬ s.evidence ∨ s.att.aliasIssued ∨ ¬ s.skn.drbgReady 0 then s
  else
    let pubP := p384.pub (p384.scalar (s.skn.slot 17).bytes)
    let pubM := mldsaPublic 3 (s.skn.slot 18).bytes
    let k := number (s.randomBytes 64) % (p384.n - 1) + 1
    let t := s.drbgUsed 64
    let t' := t.drbgUsed 32
    match s.aliasCertificate pubP pubM k (t.randomBytes 32) with
    | none => t'.pkeRan [1, 3] 2
    | some cert => ((t'.pkeRan [1, 3] 4).setAtt { t'.att with aliasIssued := true, aliasCert := cert }).log 0x0B000085

/-! ### Reports (R468 to R472) -/

/-- The status of a site: 0 absent, 1 present and not attested, 2 trusted, 3 failed; one that Keeper has taken out of the trusted set counts as not
attested (R472, log entry 33). -/
def State.siteStatus (s : State) (n : Nat) : Nat :=
  if ¬ bit s.bnd.sitePresent n then 0 else if bit s.bnd.siteTrusted n then 2 else if (s.attSite n).status = 3 then 3 else 1

def State.siteClaim (s : State) (n : Nat) : List Byte :=
  let x := s.attSite n
  cArr [cUint n, cUint (s.siteStatus n), cUint x.alg.toNat, cDigest x.leafDigest, cDigest x.measDigest, cUint x.time.toNat]
def State.sitesClaim (s : State) : List Byte := cArr ((List.range Config.sites).map s.siteClaim)
def State.ledgersClaim (s : State) : List Byte :=
  let one (k : Nat) : List Byte := match s.newest k with | some r => cArr [cUint r.seq, cUint r.optime] | none => cNull
  cArr [cUint (s.otp.counter 3), one 1, one 2]

/-- An rds-weights entry (R471). -/
def State.weightClaim (s : State) (d k : Nat) : List Byte :=
  let p := s.wgPart d
  let x := p.pkg k
  let on := (List.range x.segments).filter fun i => (p.seg k i).loaded
  let bits : List Byte := (List.range ((x.segments + 7) / 8)).map fun j => ofBits 8 ((on.filter fun i => i / 8 = j).map (· % 8))
  let l := on.flatMap fun i => leBytes 48 (p.seg k i).meas
  cArr [cUint k, cBstr (leBytes 8 x.nonce), cBstr (leBytes 48 x.mdigest), cUint x.segments, cBstr bits, if on.isEmpty then cNull else cBstr (sha384 l), cBool (x.state = 2)]

/-- The public keys of a holder (R470 key -70,022). -/
def State.kemClaim (s : State) (h : Nat) : List Byte :=
  let x : PkeHolder := SMap.get {} s.pke.holders h
  cArr [cUint h, cBstr (mlkemPublic 5 x.dz), cBstr (p384.pub x.scalar)]

def State.partClaim (s : State) (d : Nat) : List Byte :=
  let p := s.part d
  cMap [(cUint 1, cUint d), (cUint 2, cUint p.state.code), (cUint 3, cUint p.kgen.toNat), (cUint 4, cUint p.epoch.toNat),
    (cUint 5, cArr ((p.regions.filter fun e => e.2.size ≠ 0).map fun e => cArr [cUint e.2.base.toNat, cUint e.2.size.toNat])),
    (cUint 6, cUint p.lanes.toNat), (cUint 7, cArr [cUint p.knotBase.toNat, cUint p.knotCount.toNat]), (cUint 8, cUint p.tagQuota.toNat),
    (cUint 9, cUint p.streams.toNat), (cUint 10, cUint p.power.toNat)]

/-- The claim map of a report (R470): kind 0 block, 1 partition `d`; `holder` for KEM. -/
def State.claims (s : State) (kind d : Nat) (nonce : List Byte) (holder : Option Nat) : List Byte :=
  let o := s.otp
  let owner := o.bytes 0x024 48
  let both : List (List Byte × List Byte) :=
    [ (cUint 10, cBstr nonce), (cUint 256, cBstr s.ueid), (cUint 259, cBstr [0x0E, 0x4B, 0x0D, 0x52]), (cUint 260, cArr [cTstr "2.1", cUint 1]),
      (cUint 263, cUint 2), (cUint 265, cTstr "tag:erkisia,2024:rosdumus-eat-2.1"), (cNeg 70001, cUint kind), (cNeg 70002, cUint s.now), (cNeg 70003, s.fwClaim),
      (cNeg 70004, cMap [(cUint 1, cUint o.variant.toNat), (cUint 2, cUint o.fmax.toNat), (cUint 3, cUint o.powerCap.toNat), (cUint 4, cUint (b2n o.defaulted)),
        (cUint 5, cUint o.pstate.toNat), (cUint 6, cBstr (o.bytes 0x018 48)), (cUint 7, if owner = zeros 48 then cNull else cBstr owner), (cUint 8, cUint (popCount o.weak))]),
      (cNeg 70005, cArr [cUint s.lc.state.toNat, cUint s.lc.ticketsUsed.toNat, cUint s.lc.unlocks.toNat, cUint (b2n s.lc.transSince)]),
      (cNeg 70006, cUint (b2n s.bnd.isolated)),
      (cNeg 70007, cArr [cUint (b2n s.lnk.fiMode), cUint s.lnk.fiEpoch.toNat, cBstr ((List.range Config.lanes).flatMap fun l =>
        let x := s.lane l
        leBytes 8 (pack [(0, x.drop.toNat), (16, x.corrupt.toNat), (32, x.rate.toNat), (48, x.depth.toNat)]))]),
      (cNeg 70008, s.ledgersClaim),
      (cNeg 70009, cArr [cUint Config.slices, cUint Config.calderaGiB, cUint s.guard.base.toNat, cUint s.guard.size.toNat, cUint Config.lanes, cUint Config.knots,
        cUint Config.sites, cUint Config.carveOut.toNat]),
      (cNeg 70010, s.sitesClaim),
      (cNeg 70011, match s.att.siteRoots with | some l => cBstr (sha384 l.flatten) | none => cNull) ]
  let more : List (List Byte × List Byte) :=
    if kind = 0 then [(cNeg 70012, cBstr ((List.range 64).map fun p => BitVec.ofNat 8 (s.part p).state.code))]
    else
      let st := (s.part d).state
      let td := if st = .keyed ∨ st = .running ∨ st = .frozen then (s.attPart d).td else none
      [(cNeg 70020, s.partClaim d), (cNeg 70021, cArr (((List.range 16).filter fun k => ((s.wgPart d).pkg k).state ≠ 0).map (s.weightClaim d)))] ++
      (match holder with | some h => [(cNeg 70022, s.kemClaim h)] | none => []) ++
      (match td with | some t => [(cNeg 70023, cBstr t)] | none => [])
  cMap (both ++ more)

/-- A finished report: COSE_Sign with the two signatures of Alias keys (R468, R469); none where PKE_SIGN reaches its limit of attempts (R354). -/
def State.reportOf (s : State) (payload : List Byte) : Option (List Byte) × State :=
  let body := cMap [(cUint 3, cTstr "application/eat+cwt")]
  let p1 := cMap [(cUint 1, cNeg 35)]
  let p2 := cMap [(cUint 1, cNeg 50)]
  let sig (p : List Byte) : List Byte := cArr [cTstr "Signature", cBstr body, cBstr p, cBstr [], cBstr payload]
  let rs := p384.sign (p384.scalar (s.skn.slot 17).bytes) (number (s.randomBytes 64) % (p384.n - 1) + 1) (sha384 (sig p1))
  let s := s.drbgUsed 64
  let seed := (s.skn.slot 18).bytes
  let (m, tries) := mldsaSign 3 seed (mldsaMu (mldsaPublic 3 seed) (sig p2)) (s.randomBytes 32)
  let s := s.drbgUsed 32
  let one (p g : List Byte) : List Byte := cArr [cBstr p, cMap [], cBstr g]
  if 255 < tries then (none, s.pkeRan [1, 3] 1)
  else
    (some (cborEnc 6 98 ++ cArr [cBstr body, cMap [(cUint 33, cArr (s.chain.map cBstr))], cBstr payload, cArr [one p1 (octets 48 rs.1 ++ octets 48 rs.2), one p2 m]]),
      s.pkeRan [1, 3] 2)

/-! ### Messages (R483, R484) -/

/-- A message waits on mailbox `m`, and its answer would find the down direction free. -/
def State.attWaits (s : State) (m : Nat) : Bool := let x := s.cmd.mailbox m; x.en && x.up.full && !x.down.full

/-- Keeper can take up the message of mailbox `m`: it handles none, and none that it could answer arrived before (R483; log entry 48). -/
def State.attReady (s : State) (m : Nat) : Bool :=
  s.att.run.isNone && s.attWaits m && s.bnd.ready &&
  (List.range 68 ++ [76, 77]).all fun k => !(s.attWaits k && decide ((s.cmd.mailbox k).up.sentAt.toNat < (s.cmd.mailbox m).up.sentAt.toNat))

/-- The message, released to its sender. -/
def State.attTake (s : State) (m : Nat) : List Byte × State :=
  let u := (s.cmd.mailbox m).up
  (leBytes u.length.toNat u.buf, s.mbUpd m false MbDir.done)

/-- Answer in the down direction. -/
def State.attAnswer (s : State) (m : Nat) (bs : List Byte) : State := s.mbUpd m true fun d => (d.write 0 bs).send (BitVec.ofNat 9 bs.length)

def rptRsp (st : Status) (holder : Option Nat) (reqId : List Byte) (len : Nat) : List Byte :=
  [0x81, 1] ++ leBytes 2 st ++ [match holder with | some h => BitVec.ofNat 8 h | none => 0xFF, 0, 0, 0] ++ reqId ++ leBytes 4 (BitVec.ofNat 32 len) ++ zeros 12

def State.keyRsp (s : State) (st : Status) (d : Nat) (reqId td : List Byte) : List Byte :=
  let p := s.part d
  [0x82, 1] ++ leBytes 2 st ++ [BitVec.ofNat 8 d, BitVec.ofNat 8 p.state.code, p.kgen.setWidth 8, 0] ++ reqId ++ td.take 16 ++ zeros (16 - td.length)

/-- Which requests a mailbox may carry (R484). -/
def rptAllowed (m kind d : Nat) (kem : Bool) : Bool :=
  if 64 ≤ m ∧ m ≤ 67 then true else if m < 64 then kind = 1 && d = m && !kem else (m = 76 || m = 77) && !kem

/-! ### RPT_REQ (R485, R486) -/

/-- Holder `h` is empty. -/
def State.emptyHolder (s : State) (h : Nat) : State := { s with pke := { s.pke with holders := s.pke.holders.filter fun e => e.1 ≠ h } }
/-- Keeper clears holder `h` with PKE_EPH_CLEAR. -/
def State.clearHolder (s : State) (h : Nat) : State := (s.emptyHolder h).pkeRan [] 1

/-- Holder `h` is full for domain `d`. -/
def State.holderFull (s : State) (h d : Nat) : Bool :=
  let x : PkeHolder := SMap.get {} s.pke.holders h
  x.kemFull && x.dhFull && x.owner.toNat = d

/-- Keeper forgets the holder bound to `d` and clears it, where it still holds `d`'s keys (R486). -/
def State.unbindHolder (s : State) (d : Nat) : State :=
  match (s.attPart d).holder with
  | some h => (if s.holderFull h d then s.clearHolder h else s).setAttPart d { s.attPart d with holder := none, bound := [] }
  | none => s

/-- Holders that are empty, were the one bound to `d` cleared. -/
def State.freeHolders (s : State) (d : Nat) : List Nat :=
  (List.range 8).filter fun h => ((s.attPart d).holder = some h && s.holderFull h d) || (let x : PkeHolder := SMap.get {} s.pke.holders h; !x.kemFull && !x.dhFull)

/-- The checks of R485. While DRBG instance 0 refuses its requests (R294, R297) no signature can be made, and evidence counts as unavailable
(log entry 47). -/
def rptCheck (s : State) (kind d : Nat) (kem : Bool) (addr len : Nat) : Option Status :=
  if ¬ s.evidence ∨ ¬ s.skn.drbgReady 0 then some 0x0B01
  else if kind = 1 ∧ (64 ≤ d ∨ (s.part d).state = .free ∨ (kem ∧ (s.part d).state ≠ .claimed)) then some 0x0B03
  else if kind = 1 ∧ kem ∧ (s.freeHolders d).isEmpty then some 0x0B04
  else if len < 65536 ∨ addr % 64 ≠ 0 then some 0x0B05
  else none

/-- Fill a holder for partition `d`, clearing one bound before (R486). Which free holder is taken is open. -/
def State.fillHolder (s : State) (d : Nat) : Nat × State :=
  let s := s.unbindHolder d
  let free := s.freeHolders d
  let h := free.getD ((s.draw 16).toNat % max 1 free.length) 0
  let s := s.drawn 1
  let dz := s.randomBytes 64
  let s := s.drbgUsed 64
  let k := number (s.randomBytes 64) % (p384.n - 1) + 1
  let s := s.drbgUsed 64
  let x : PkeHolder := { kemFull := true, kemSet := 5, dhFull := true, dhSet := 1, owner := BitVec.ofNat 7 d, dz := dz, scalar := k }
  (h, ({ s with pke := { s.pke with holders := SMap.set {} s.pke.holders h x } }).pkeRan [1, 5] 2)

/-- TYPE of the message that waits on mailbox `m`; a message without bytes has none. -/
def State.attType (s : State) (m : Nat) : Option Byte := let u := (s.cmd.mailbox m).up; (leBytes u.length.toNat u.buf).head?

/-- Keeper takes up the message of mailbox `m` as an RPT_REQ; a KEY_REQ waits for its own row, and a message of neither TYPE is refused by either.
A KEM flag of a block report is ignored (log entry 32). -/
def rptReq (s : State) (m : Nat) : State :=
  if ¬ s.attReady m ∨ s.attType m = some 2 then s
  else
    let (msg, s) := s.attTake m
    let kind := leNat (sub msg 2 1)
    let flags := leNat (sub msg 3 1)
    let d := leNat (sub msg 4 1)
    let id := sub (msg ++ zeros 16) 8 8
    let kem := decide (flags = 1) && kind = 1
    if msg.length ≠ 64 ∨ sub msg 0 2 ≠ [1, 1] ∨ 1 < kind ∨ 1 < flags ∨ sub msg 5 3 ≠ zeros 3 ∨ sub msg 60 4 ≠ zeros 4 ∨ ¬ rptAllowed m kind d (decide (flags = 1)) then
      s.attAnswer m (rptRsp 0x0B02 none id 0)
    else
      let addr := leNat (sub msg 48 8)
      match rptCheck s kind d kem addr (leNat (sub msg 56 4)) with
      | some st => s.attAnswer m (rptRsp st none id 0)
      | none =>
        let r := if kem then (let x := s.fillHolder d; (some x.1, x.2)) else ((none : Option Nat), s)
        let (rep, s) := r.2.reportOf (r.2.claims kind d (sub msg 16 32) r.1)
        let refuse (st : Status) : State := (match r.1 with | some h => s.clearHolder h | none => s).attAnswer m (rptRsp st none id 0)
        match rep with
        -- a signature that PKE_SIGN does not reach leaves the report unavailable (log entry 47)
        | none => refuse 0x0B01
        | some rep =>
        -- a report is at most 65,536 bytes (R473); one that would be longer is not written, as if its buffer refused it (log entry 47)
        if 65536 < rep.length then refuse 0x0B05 else
        (s.setAtt { s.att with run := some { mb := m, phase := .writing, part := d, holder := r.1, reqId := id, len := rep.length, addr := addr, td := sha384 rep } }).plainWrite
          .keeper addr rep

/-! ### KEY_REQ (R487 to R490) -/

/-- Keeper takes up the message of mailbox `m` as a KEY_REQ: step 1, then the read of the bundle. An RPT_REQ waits for its own row. -/
def keyReq (s : State) (m : Nat) : State :=
  if ¬ s.attReady m ∨ s.attType m = some 1 then s
  else
    let (msg, s) := s.attTake m
    let d := leNat (sub msg 4 1)
    let id := sub (msg ++ zeros 16) 8 8
    if msg.length ≠ 32 ∨ sub msg 0 4 ≠ [2, 1, 0, 0] ∨ sub msg 6 2 ≠ zeros 2 ∨ sub msg 28 4 ≠ zeros 4 ∨ m < 64 ∨ 67 < m then s.attAnswer m (s.keyRsp 0x0B02 d id [])
    else if leNat (sub msg 24 4) ≠ 1960 then s.attAnswer m (s.keyRsp 0x0B06 d id [])
    else
      let addr := leNat (sub msg 16 8)
      (s.setAtt { s.att with run := some { mb := m, phase := .reading, part := d, holder := some (leNat (sub msg 5 1)), reqId := id, len := 1960, addr := addr } }).requestSpan
        .keeper 65 addr 1960

/-- End the request that Keeper handles. -/
def State.attEnd (s : State) (r : AttRun) (bs : List Byte) : State := ((s.ownDrop .keeper).setAtt { s.att with run := none }).attAnswer r.mb bs

/-- An empty slot that Keeper fills and erases again within the step. -/
def State.slotSpent (s : State) (i : Nat) : State := s.setSkn (s.skn.setSlot i { s.skn.slot i with gen := (s.skn.slot i).gen + 1 })

/-- A failure at step 4 or 5 (R490). -/
def State.keyFail (s : State) (r : AttRun) (st : Status) : State :=
  let s := r.slots.foldl State.slotErase s
  s.attEnd r (s.keyRsp st r.part r.reqId [])

/-- Submit the PART_KEY on queue 70 (R489 step 5). -/
def State.submitPartKey (s : State) (d slot : Nat) (keys : List Nat) : State :=
  let k (i : Nat) : Nat := keys.getD i 0
  let desc : Desc := BitVec.ofNat 512 (packN [(0, 0x51), (8, d), (384, k 0), (392, k 1), (400, k 2), (408, k 3)])
  let u := s.cmd.queue 70
  { s with cmd := { s.cmd.setQueue 70 { u with order := u.order ++ [slot], headSince := if u.order.isEmpty then s.bnd.timebase else u.headSince } with
      slots := SMap.set 0 s.cmd.slots (16 * 70 + slot) desc
      awaited := s.cmd.awaited ++ [(70, slot)] } }

/-- The transcript digest (R488). -/
def bundleTd (b : List Byte) : List Byte := sha384 (ascii "RDS2-KR" ++ sub b 8 48 ++ sub b 5 2 ++ sub b 56 1664)

/-- The broker's point of a bundle, where PKE_ECDH accepts it (R356). -/
def bundlePeer (b : List Byte) : Option (Nat × Nat) :=
  let q := (number (sub b 1624 48), number (sub b 1672 48))
  if p384.onCurve q.1 q.2 && q.1 < p384.p && q.2 < p384.p then some q else none

/-- Steps 2 to 5 on the bundle read. Which free slots Keeper uses is open; it takes seven, and with fewer free ones, or while DRBG instance 0 refuses
PKE_DECAPS, step 4 fails (R351, log entry 47). -/
def State.bundle (s : State) (r : AttRun) (b : List Byte) : State :=
  let d := r.part
  let h := r.holder.getD 0
  if sub b 0 5 ≠ [0x52, 0x44, 0x53, 0x42, 1] ∨ leNat (sub b 5 1) ≠ d ∨ leNat (sub b 6 1) ≠ h then s.attEnd r (s.keyRsp 0x0B06 d r.reqId [])
  else if (s.attPart d).holder ≠ some h ∨ ¬ s.holderFull h d ∨ (s.attPart d).bound ≠ sub b 8 48 then s.attEnd r (s.keyRsp 0x0B07 d r.reqId [])
  else
    let x : PkeHolder := SMap.get {} s.pke.holders h
    let td := bundleTd b
    let free := (List.range' 64 192).filter fun i => ¬ (s.skn.slot i).valid ∧ ¬ (s.skn.slot i).erasing
    let k := (s.draw 16).toNat % max 1 free.length
    let pick := (free.drop k ++ free.take k).take 7
    let s := s.drawn 1
    if ¬ s.skn.drbgReady 0 ∨ pick.length < 7 then s.keyFail r 0x0B08
    else
    -- the parts are empty once the two operations have entered their schedules (R348)
    let s := ((s.emptyHolder h).setAttPart d { s.attPart d with holder := none, bound := [] }).pkeRan [1, 5] 1
    match (bundlePeer b).bind fun peer => p384.mul x.scalar (some peer) with
    | none => (pick.take 1).foldl State.slotSpent { s with pke := { s.pke with cntRefused := s.pke.cntRefused + 1 } } |>.keyFail r 0x0B08
    | some q =>
      let s := s.pkeRan [] 1
      let kek := deriveKem (fitBytes 32 (mlkemDecaps 5 x.dz (sub b 56 1568))) (octets 48 q.1) td
      let key (i : Nat) : Option (List Byte) :=
        let blob := sub b (1720 + 60 * i) 60
        gcmOpen kek (blob.take 12) (td ++ [BitVec.ofNat 8 i]) (sub blob 12 32) (ofLeBytes 128 (blob.drop 44))
      let s := (pick.take 3).foldl State.slotSpent s
      match key 0, key 1, key 2, key 3 with
      | some k0, some k1, some k2, some k3 =>
        let at4 := pick.drop 3
        let fill (s : State) (e : Nat × BitVec 32 × List Byte) : State :=
          s.setSkn (s.skn.setSlot (at4.getD e.1 0) ((s.skn.slot (at4.getD e.1 0)).fill (e.2.1 ||| BitVec.ofNat 32 (d * 2048)) 5 e.2.2))
        let s := [(0, (0x43 : BitVec 32), k0), (1, 0x07, k1), (2, 0x83, k2), (3, 0x103, k3)].foldl fill s
        let r := { r with td := td, slots := at4 }
        match (List.range 16).find? fun i => ¬ s.cmd.held 70 i with
        | none => s.keyFail r 0x0B09
        | some slot => (((s.ownDrop .keeper).setAtt { s.att with run := some { r with phase := .loading, qslot := slot } }).submitPartKey d slot at4)
      | k0, k1, k2, _ =>
        -- the roles unwrapped before the failing one are erased with the failure
        let n := if k0.isNone then 0 else if k1.isNone then 1 else if k2.isNone then 2 else 3
        ((pick.drop 3).take n).foldl State.slotSpent s |>.keyFail r 0x0B08
where
  deriveKem (ss ecdh td : List Byte) : Key256 := ofLeBytes 256 (derive ss "kem" ecdh td 32)
  fitBytes (n : Nat) (bs : List Byte) : List Byte := bs.take n ++ List.replicate (n - bs.length) 0

/-- Every access of the request that Keeper handles has been answered. -/
def keeperAnswer (s : State) : State :=
  match s.att.run with
  | none => s.ownDrop .keeper
  | some r =>
    if ¬ s.ownDone .keeper then s
    else
      let bad := (s.ownOf .keeper).any fun q => match q.answer with | some (.ok, _) => false | _ => true
      match r.phase with
      | .writing =>
        if bad then (match r.holder with | some h => s.clearHolder h | none => s).attEnd r (rptRsp 0x0B05 none r.reqId 0)
        else
          let s := match r.holder with
            | some h => s.setAttPart r.part { s.attPart r.part with holder := some h, bound := r.td, boundAt := s.bnd.timebase }
            | none => s
          (s.log 0x0B000080 0 (if r.part < 64 then BitVec.ofNat 8 r.part else 127)).attEnd r (rptRsp 0 r.holder r.reqId r.len)
      | .reading =>
        if bad then s.attEnd r (s.keyRsp 0x0B06 r.part r.reqId [])
        else
          let b := spanBytes (s.ownOf .keeper) r.addr 1960
          (s.ownDrop .keeper).bundle r b
      | .loading => s

/-- Step 5 of R489 once PART_KEY has completed. -/
def State.keyLoaded (s : State) : State :=
  match s.att.run with
  | some r =>
    match r.phase, s.cmd.takeRecords 70 r.qslot with
    | .loading, some (recs, c) =>
      let s := { s with cmd := c }
      let st : Status := field (recs.getLast?.getD 0) 0 16
      if st = 0 then
        let s := s.setAttPart r.part { s.attPart r.part with td := some r.td, holder := none, bound := [] }
        (s.log 0x0B000081 0 (BitVec.ofNat 8 r.part)).attEnd r (s.keyRsp 0 r.part r.reqId r.td)
      else
        let s := if st.toNat / 256 = 7 then s.log (BitVec.ofNat 32 (0x07000000 + st.toNat % 256)) 0 (BitVec.ofNat 8 r.part) else s
        s.keyFail r 0x0B09
    | _, _ => s
  | none => s

def execRptReq (mb : BitVec 7) (s : State) : Host.Outcome State Fault Refusal := .next (rptReq s mb.toNat)
def execKeyReq (mb : BitVec 7) (s : State) : Host.Outcome State Fault Refusal := .next (keyReq s mb.toNat)

/-- KEM_HOLDER_EXPIRE (R486); a holder that R349 has emptied is only forgotten. -/
def holderExpire (s : State) (d : Nat) : State :=
  match (s.attPart d).holder with
  | some h =>
    if s.holderFull h d then ((s.at ((s.attPart d).boundAt.toNat + 600000000000)).unbindHolder d).log 0x0B000084 0 (BitVec.ofNat 8 d) else s.unbindHolder d
  | none => s

def execKemHolderExpire (dom : BitVec 6) (s : State) : Host.Outcome State Fault Refusal := .next (holderExpire s dom.toNat)

/-! ### Chiplet sites (R53, R478 to R482) -/

/-- The site fails with ATT_SITE; what it has negotiated and shown stays (R472, R479, R481). -/
def State.siteFail (s : State) (n : Nat) : State :=
  (s.setAttSite n { s.attSite n with status := 3, step := none, sent := [], time := s.bnd.timebase }).logItems 0x0B000083 [n, 0x0B0A] (unitOf 13 n)

/-- The block's own MCTP endpoint ID, and the one it assigns to the chiplet at site `n` (R52). -/
def ownEid : BitVec 8 := 0x08
def siteEid (n : Nat) : BitVec 8 := BitVec.ofNat 8 (0x10 + n)

/-- Send request `k` of the exchange; the last one carries a nonce of DRBG instance 0, and the site fails where that refuses it (R294). -/
def State.siteSend (s : State) (n k : Nat) : State :=
  let x := s.attSite n
  if k = 5 ∧ ¬ s.skn.drbgReady 0 then s.siteFail n else
  let msg := x.side.request k (if k = 5 then s.randomBytes 32 else [])
  let s := if k = 5 then s.drbgUsed 32 else s
  (s.setAttSite n { x with step := some k, repeated := false, sentAt := s.bnd.timebase, sent := x.sent ++ [msg] }).emit (.mctp n ownEid x.eid msg)

/-- SITE_ATTESTATION: the bus owner assigns a present site its endpoint ID (R52) and starts the exchange. -/
def siteAttestation (s : State) (n : Nat) : State :=
  if Config.sites ≤ n ∨ ¬ bit s.bnd.sitePresent n ∨ (s.attSite n).step.isSome then s
  else ((s.setAttSite n { s.attSite n with sent := [], side := {}, eid := siteEid n }).emit (.mctpAssign n (siteEid n))).siteSend n 0

/-- A write of ATT_SITE_TRUST: SET of present sites, then CLR (R481, R482). -/
def siteTrust (s : State) (c : Cls) (v : W64) : State :=
  if c ≠ .K then s
  else { s with bnd := { s.bnd with siteTrusted := (s.bnd.siteTrusted ||| (field v 0 24 &&& s.bnd.sitePresent)) &&& ~~~(field v 32 24) } }

/-- The site has passed every check: Keeper adds it to the trusted set (R481). -/
def State.sitePass (s : State) (n : Nat) (measDigest : List Byte) : State :=
  let s := s.setAttSite n { s.attSite n with status := 2, step := none, sent := [], measDigest := measDigest, time := s.bnd.timebase }
  (siteTrust s .K (BitVec.ofNat 64 (2 ^ n))).log 0x0B000082 (unitOf 13 n)

/-- Response `k` passes the checks of R479 that fall on it; `y` is the exchange with it read. -/
def State.siteGood (s : State) (n k : Nat) (y : SpdmSide) (msg : List Byte) : Bool :=
  match k with
  | 1 => y.ct ≤ 14
  | 4 => y.left ≠ 0 || (match s.att.siteRoots with | some l => y.trusts l | none => false)
  | 5 => y.proves (s.attSite n).sent msg
  | _ => true

/-- Keeper keeps the digests of certificates that it has verified once (R481); the operations that it took count. -/
def State.siteVerified (s : State) (y : SpdmSide) : State :=
  let new := ((y.certs.getD []).tail.map fun c => sha384 c.bytes).filter fun d => ¬ s.att.verified.contains d
  (s.setAtt { s.att with verified := s.att.verified ++ new }).pkeRan (if new.isEmpty then [] else [1]) new.length

/-- CHIPLET_SPDM_RESPONSE: the response is judged and the exchange goes on, with another GET_CERTIFICATE while the chain is not whole. -/
def siteResponse (s : State) (n : Nat) (msg : List Byte) : State :=
  let x := s.attSite n
  match x.step with
  | none => s
  | some k =>
    match x.side.heard k msg with
    | none => s.siteFail n
    | some y =>
      let whole := k = 4 ∧ y.left = 0
      let s := s.setAttSite n { x with side := y, alg := if k = 2 then y.alg else x.alg, leafDigest := if whole then y.leaf else x.leafDigest }
      if ¬ s.siteGood n k y msg then s.siteFail n
      else if k = 5 then (s.pkeRan [if y.alg = 0x80 then 1 else 0] 1).sitePass n (sha384 (measRecord msg))
      else
        let s := s.setAttSite n { s.attSite n with sent := x.sent ++ [msg] }
        (if whole then s.siteVerified y else s).siteSend n (if k = 4 ∧ y.left ≠ 0 then 4 else k + 1)

/-- The limit of the response that a site owes, in ns: 2 ms, and 2^CTExponent µs more for the signed one (R479). -/
def AttSite.limit (x : AttSite) (k : Nat) : Nat := 2000000 + (if k = 5 then 1000 * 2 ^ x.side.ct else 0)

/-- CHIPLET_SPDM_TIMEOUT: repeat the request once, then the site fails. -/
def siteTimeout (s : State) (n : Nat) : State :=
  let x := s.attSite n
  match x.step with
  | none => s
  | some k =>
    let s := s.at (x.sentAt.toNat + x.limit k)
    if x.repeated then s.siteFail n else (s.setAttSite n { x with repeated := true, sentAt := s.bnd.timebase }).emit (.mctp n ownEid x.eid (x.sent.getLast?.getD []))

def sitePresentRise (s : State) (n : Nat) : State :=
  if Config.sites ≤ n then s
  else
    let s := { s with bnd := { s.bnd with sitePresent := putBit s.bnd.sitePresent n true } }
    if (s.attSite n).status = 0 then s.setAttSite n { s.attSite n with status := 1 } else s

/-- SITE_PRESENT falls: the site leaves the trusted set, an exchange ends, its status is absent (R53, R479). -/
def sitePresentFall (s : State) (n : Nat) : State :=
  if Config.sites ≤ n then s
  else
    let s := { s with bnd := { s.bnd with sitePresent := putBit s.bnd.sitePresent n false, siteTrusted := putBit s.bnd.siteTrusted n false } }
    s.setAttSite n { s.attSite n with status := 0, eid := 0, step := none, sent := [] }

def execSiteAttestation (site : BitVec 5) (s : State) : Host.Outcome State Fault Refusal := .next (siteAttestation s site.toNat)
def execChipletSpdmResponse (site : BitVec 5) (msg : List Byte) (s : State) : Host.Outcome State Fault Refusal := .next (siteResponse s site.toNat msg)
def execChipletSpdmTimeout (site : BitVec 5) (s : State) : Host.Outcome State Fault Refusal := .next (siteTimeout s site.toNat)
def execAttSiteTrust (cls : Cls) (data : W64) (s : State) : Host.Outcome State Fault Refusal := .next (siteTrust s cls data)
def execSitePresentRise (site : BitVec 5) (s : State) : Host.Outcome State Fault Refusal := .next (sitePresentRise s site.toNat)
def execSitePresentFall (site : BitVec 5) (s : State) : Host.Outcome State Fault Refusal := .next (sitePresentFall s site.toNat)

/-! ### SPDM toward the host (R475 to R477) -/

/-- A transcript is signed with the Alias P-384 key alone (R476): the signature r ‖ s of its SHA-384. -/
def State.spdmSign (s : State) (transcript : List Byte) : List Byte × State :=
  let rs := p384.sign (p384.scalar (s.skn.slot 17).bytes) (number (s.randomBytes 64) % (p384.n - 1) + 1) (sha384 transcript)
  let s := s.drbgUsed 64
  (octets 48 rs.1 ++ octets 48 rs.2, s.pkeRan [1] 1)

/-- Send an answer to the host and keep both messages of the exchange. -/
def State.spdmReply (s : State) (msg rsp : List Byte) : State := (s.setAtt { s.att with hostSpdm := s.att.hostSpdm ++ [msg, rsp] }).emit (.spdm rsp)

/-- The chain of slot 0 (R475), under the root of the certificate record. -/
def State.hostSlot0 (s : State) : List Byte :=
  hostChain (match s.newest 5 with | some p => (Config.certRecord p.payload).root | none => []) s.chain.reverse

/-- The measurement blocks (R477) but for 0xFD: index, value type, value. -/
def State.measBlocks (s : State) : List (Nat × MeasType × List Byte) :=
  let k := s.skn
  let one (d : BitVec 384) (v : BitVec 16) : List Byte := leBytes 48 d ++ leBytes 2 v
  let o := s.otp
  [(1, .immutableRom, romDigest), (2, .mutableFirmware, one k.keeperDig k.keeperSvn), (3, .mutableFirmware, one k.stewardDig k.stewardSvn),
   (4, .mutableFirmware, one k.rowDig k.rowSvn), (5, .hardwareConfig, s.configDigest),
   (6, .firmwareConfig, leBytes 8 s.otpFeat ++ leBytes 8 o.partEn ++ leBytes 8 o.sliceEn ++ leBytes 8 o.laneEn),
   (7, .freeform, leBytes 8 s.lcState ++ leBytes 8 s.lnkGctl), (8, .freeform, s.sitesClaim), (9, .freeform, s.ledgersClaim)]

/-- The measurement record of one index, or of all for 0xFF; index 0xFD is a block report issued afresh with the request's nonce (R477), none
where no report can be issued (R354, R467, R473). -/
def State.measRecordOf (s : State) (nonce : List Byte) (index : Nat) : Option (List Byte) × State :=
  let body := ((s.measBlocks.filter fun b => index = 0xFF || b.1 = index).flatMap measBlock)
  if index ≠ 0xFD ∧ index ≠ 0xFF then (some body, s)
  else if ¬ s.evidence ∨ ¬ s.skn.drbgReady 0 then (none, s)
  else match s.reportOf (s.claims 0 0 nonce none) with
    | (some rep, s) => if 65536 < rep.length then (none, s) else (some (body ++ measBlock (0xFD, .manifest, rep)), s.log 0x0B000080)
    | (none, s) => (none, s)

/-- The MEASUREMENTS answer to `msg` up to its signature: for index 0 the number of blocks, else the record, then a nonce. -/
def State.measAnswer (s : State) (rnd msg : List Byte) : Option (List Byte) × State :=
  let ver := msg.headD 0
  let index := leNat (sub msg 3 1)
  let tail := rnd ++ [0, 0] ++ (if ver = 0x13 then zeros 8 else [])
  if index = 0 then (some ([ver, 0x60, 10, 0, 0, 0, 0, 0] ++ tail), s)
  else
    let (r, s) := s.measRecordOf (sub msg 4 32 ++ zeros (32 - (sub msg 4 32).length)) index
    let n := if index = 0xFF then 10 else if s.measBlocks.any (·.1 = index) ∨ index = 0xFD then 1 else 0
    (r.map fun r => [ver, 0x60, 0, 0, BitVec.ofNat 8 n] ++ le 3 r.length ++ r ++ tail, s)

/-- CHALLENGE_AUTH up to its signature. -/
def State.challengeAnswer (s : State) (rnd msg : List Byte) : List Byte :=
  let type := (sub msg 3 1).headD 0
  [msg.headD 0, 0x03, 0, 1] ++ sha384 s.hostSlot0 ++ rnd ++ (if type = 0 then [] else Config.spdmSummary type (s.measBlocks.flatMap measBlock)) ++ [0, 0] ++
  (if msg.headD 0 = 0x13 then zeros 8 else [])

/-- The answer to a request that is signed: body and signature; Unspecified while evidence is unavailable (R467). -/
def State.spdmSignedAnswer (s : State) (msg : List Byte) : List Byte × State :=
  let sent := s.att.hostSpdm
  let ver := msg.headD 0
  if ¬ s.evidence ∨ ¬ s.skn.drbgReady 0 then (spdmError, s)
  else
    let rnd := s.randomBytes 32
    let s := s.drbgUsed 32
    let sign (s : State) (context : String) (body : List Byte) : List Byte × State :=
      let (sig, s) := s.spdmSign (spdmSigned ver context (sha384 (sent.flatten ++ msg ++ body)))
      (body ++ sig, s)
    match ((sub msg 1 1).headD 0).toNat with
    | 0x83 => sign s "responder-challenge_auth signing" (s.challengeAnswer rnd msg)
    | 0xE0 => match s.measAnswer rnd msg with
      | (some body, s) => sign s "responder-measurements signing" body
      | (none, s) => (spdmError, s)
    | _ =>
      let (sig, s) := s.spdmSign (Config.spdmKeyShare sent s.hostSlot0 rnd msg)
      (Config.spdmAnswer sent rnd sig msg, s)

/-- SPDM_REQUEST (R475 to R477): from the table of unsigned answers, signed, as MEASUREMENTS without a signature, or as a message of a session,
whose requester's proof of its own key must hold (R337). GET_VERSION begins a new exchange. -/
def spdmRequest (s : State) (msg : List Byte) : State :=
  let code := (sub msg 1 1).headD 0
  match hostPlain s.hostSlot0 msg with
  | some rsp => (if code = 0x84 then s.setAtt { s.att with hostSpdm := [] } else s).spdmReply msg rsp
  | none =>
    if spdmSigns msg then let r := s.spdmSignedAnswer msg; r.2.spdmReply msg r.1
    else if code = 0xE0 then
      let rnd := if s.skn.drbgReady 0 then s.randomBytes 32 else zeros 32
      match (if s.skn.drbgReady 0 then s.drbgUsed 32 else s).measAnswer rnd msg with
      | (some body, s) => s.spdmReply msg body
      | (none, s) => s.spdmReply msg spdmError
    else
      let bad := match Config.spdmProof s.att.hostSpdm msg with | some p => !mutualHolds p | none => false
      s.spdmReply msg (if bad then spdmErr (msg.headD 0) 0x06 0 else Config.spdmAnswer s.att.hostSpdm [] [] msg)

/-- GET_MEASUREMENTS of one index, or of all for 0xFF, signed (R476, R477): the signed request of SPDM 1.3 with this nonce. -/
def getMeasurements (s : State) (nonce : Key256) (index : Nat) : State :=
  let msg : List Byte := [0x13, 0xE0, 1, BitVec.ofNat 8 index] ++ leBytes 32 nonce ++ [0] ++ zeros 8
  let r := s.spdmSignedAnswer msg
  r.2.spdmReply msg r.1

def execSpdmRequest (msg : List Byte) (s : State) : Host.Outcome State Fault Refusal := .next (spdmRequest s msg)
def execGetMeasurements (nonce : Key256) (index : BitVec 8) (s : State) : Host.Outcome State Fault Refusal := .next (getMeasurements s nonce index.toNat)

def attRegs : List Reg :=
  [ { base := 0x0001028, allow := capKSHO, get := fun _ _ _ => 0, put := fun _ c v m s => siteTrust s c (v &&& m) } ]

end Sys2Proof.Machine
end

