-- ==== Sys2Proof/Machine/GeyserLink.lean ====
section
/-! DEFINITION. The Geyser frame (R678), the egress of the two lanes (R682, R684), and the fault injection on the station's own frames (R697). -/
namespace Sys2Proof.Machine

def State.setGy (s : State) (x : Gy) : State := { s with gy := x }

/-- The header-cell fields of a frame (R678). -/
structure GyHead where
  cls : Nat
  dst : BitVec 8
  src : BitVec 8
  hops : BitVec 8 := 33
  last : Bool := true
  ackOnly : Bool := false
  session : BitVec 32 := 0
  msgId : BitVec 32 := 0
  seq : W64 := 0
  ack : W64 := 0
  type : BitVec 16 := 0
  frag : BitVec 16 := 0
  msgBytes : BitVec 32 := 0
  channel : BitVec 8 := 0

/-- Bytes 0 to 63 of the header cell. -/
def GyHead.bytes (h : GyHead) (n : Nat) : List Byte :=
  [BitVec.ofNat 8 ((n + 255) / 256), BitVec.ofNat 8 h.cls, h.dst, h.src, h.hops, BitVec.ofNat 8 (b2n h.last + 2 * b2n h.ackOnly)] ++ leBytes 2 (BitVec.ofNat 16 n) ++
  leBytes 4 h.session ++ leBytes 4 h.msgId ++ leBytes 8 h.seq ++ leBytes 8 h.ack ++ leBytes 2 h.type ++ leBytes 2 h.frag ++ leBytes 4 h.msgBytes ++ [h.channel] ++
  List.replicate 23 0

/-- The frame: header cell and payload cells. -/
def gyFrame (h : GyHead) (mac payload : List Byte) : List Byte :=
  let cells := (payload.length + 255) / 256
  h.bytes payload.length ++ fitBytes 32 mac ++ List.replicate 160 0 ++ fitBytes (256 * cells) payload

/-- The MAC of a class 1 or 3 frame under a session key (R686): HOPS counts as zero. -/
def gyMac (key : List Byte) (h : GyHead) (payload : List Byte) : List Byte :=
  kmac256 key (({ h with hops := 0 } : GyHead).bytes payload.length ++ payload) 32 (ascii "RDSG")

/-- GY_FI.DURATION. -/
def Gy.duration (g : Gy) : Nat := (field g.fi 48 16).toNat

/-- The CLASSES bit of a class, for those that injection can reach. -/
def gyFiBit (cls : Nat) : Option Nat := if cls = 1 then some 32 else if cls = 2 then some 33 else if cls = 3 then some 34 else none

/-! ### Session ends and enumeration (R680, R691) -/

def Gy.session (g : Gy) (id : BitVec 32) : Option GySession := g.sessions.find? fun x => x.id = id
def Gy.setSession (g : Gy) (x : GySession) : Gy := { g with sessions := g.sessions.map fun y => if y.id = x.id then x else y }

/-- A session ends (R691, R701): both slots erased, its upload abandoned, event 0x0F00_0081 (log entry 34). -/
def State.gyEndSession (s : State) (id : BitVec 32) (cause : Nat) : State :=
  match s.gy.session id with
  | none => s
  | some x =>
    let g := s.gy
    let s := s.setGy { g with
      sessions := g.sessions.filter fun y => y.id ≠ id
      upload := if g.upload.any fun u => u.session = some id then none else g.upload
      waits := g.waits.filter fun w => w.session ≠ id
      reports := g.reports.filter fun r => r.session ≠ id ∨ r.sent }
    ((s.slotErase x.slot0).slotErase x.slot1).logItems 0x0F000081 [cause]

/-- ENUM (R680): the station number that COUNT gives; a change ends every session. -/
def State.enumerate (s : State) (count : BitVec 8) : State :=
  let n : BitVec 8 := if count.toNat ≤ 31 then count else 0xFF
  if n = s.gy.station then s
  else
    let old := s.gy.station
    let s := (s.gy.sessions.map (·.id)).foldl (fun s id => s.gyEndSession id 3) s
    (s.setGy { s.gy with station := n }).log 0x0F000087 (p0 := old.setWidth 64) (p1 := n.setWidth 64)

/-! ### Egress (R682, R684) -/

/-- The scheduler's group of a class; classes 1 and 4 share a quantum. -/
def gyGroup (cls : Nat) : Nat := if cls = 2 then 1 else if cls = 3 then 2 else 0
/-- Quantum of a group, cells per round. -/
def gyQuantum (g : Nat) : Nat := [17, 255, 68].getD g 17
/-- Cells of a frame, and the bytes of a lane that it takes (R677). -/
def GyEntry.cells (e : GyEntry) : Nat := e.frame.length / 256
def GyEntry.wire (e : GyEntry) : Nat := e.frame.length + 16

def Gy.lane (g : Gy) (l : Nat) : GyLane := SMap.get {} g.lanes l
def Gy.setLane (g : Gy) (l : Nat) (x : GyLane) : Gy := { g with lanes := SMap.set {} g.lanes l x }
def Gy.ownOf (g : Gy) (k : Nat) : List GyEntry := SMap.get [] g.ownQ k

/-- Queue a forwarded frame on its lane, and an own frame for either lane. -/
def Gy.forward (g : Gy) (l cls : Nat) (e : GyEntry) : Gy :=
  let x := g.lane l
  g.setLane l (if cls = 0 then { x with link := x.link ++ [e] } else { x with fwd := SMap.set [] x.fwd (gyGroup cls) (SMap.get [] x.fwd (gyGroup cls) ++ [e]) })
def Gy.originate (g : Gy) (cls : Nat) (e : GyEntry) : Gy := { g with ownQ := SMap.set [] g.ownQ (gyGroup cls) (g.ownOf (gyGroup cls) ++ [e]) }

/-- The frame that group `k` sends next on lane `l`, and the port without it: a forwarded one, an own one where none is forwarded or 8 have been. -/
def Gy.groupHead (g : Gy) (l k : Nat) : Option (GyEntry × Gy) :=
  let x := g.lane l
  let own : Option (GyEntry × Gy) := match g.ownOf k with
    | e :: q => some (e, { g with ownQ := SMap.set [] g.ownQ k q }.setLane l { x with run := SMap.set 0 x.run k 0 })
    | [] => none
  match SMap.get [] x.fwd k with
  | [] => own
  | e :: q =>
    if 8 ≤ SMap.get 0 x.run k ∧ own.isSome then own
    else some (e, g.setLane l { x with fwd := SMap.set [] x.fwd k q, run := SMap.set 0 x.run k (min 8 (SMap.get 0 x.run k + 1)) })

/-- A frame begins on lane `l`: its time and its cells. -/
def Gy.begins (g : Gy) (l : Nat) (e : GyEntry) : Gy :=
  let x := g.lane l
  g.setLane l { x with room := x.room - e.wire, linkGap := min 64 (x.linkGap + e.cells) }

/-- Deficit round robin: the next frame of classes 1 to 4 on lane `l`. A visit of each group in turn suffices: a quantum holds any frame. -/
def Gy.round : Nat → Nat → Gy → Option (GyEntry × Gy)
  | 0, _, _ => none
  | n + 1, l, g =>
    let x := g.lane l
    let k := x.turn
    let next (d : Nat) : Gy := g.setLane l { x with turn := (k + 1) % 3, credited := false, deficit := SMap.set 0 x.deficit k d }
    let have_ := SMap.get 0 x.deficit k + (if x.credited then 0 else gyQuantum k)
    match g.groupHead l k with
    | none => (next 0).round n l
    | some (e, g') =>
      if have_ < e.cells then (next have_).round n l
      else some (e, g'.setLane l { g'.lane l with credited := true, deficit := SMap.set 0 x.deficit k (have_ - e.cells) })

/-- The next frame of lane `l`, if its egress is free: link control first, at most one in 64 cells. -/
def Gy.laneNext (g : Gy) (l : Nat) : Option (GyEntry × Gy) :=
  let x := g.lane l
  if x.room ≤ 0 then none
  else
    match (if 64 ≤ x.linkGap then x.link else []) with
    | e :: q => some (e, ((g.setLane l { x with link := q, linkGap := 0 }).begins l e))
    | [] => (g.round 6 l).map fun r => (r.1, r.2.begins l r.1)

/-- Frames that begin now, each with its lane: the lane whose egress is free first, lane 0 when both are, takes the next (R682). -/
def Gy.pump : Nat → Gy → List (Nat × GyEntry) → List (Nat × GyEntry) × Gy
  | 0, g, sent => (sent, g)
  | n + 1, g, sent =>
    let a := if (g.lane 0).room < (g.lane 1).room then 1 else 0
    match g.laneNext a with
    | some (e, g) => g.pump n (sent ++ [(a, e)])
    | none => match g.laneNext (1 - a) with
      | some (e, g) => g.pump n (sent ++ [(1 - a, e)])
      | none => (sent, g)

/-- Frames that wait. -/
def Gy.waiting (g : Gy) : Nat :=
  (g.ownQ.map (·.2.length)).sum + (g.lanes.map fun x => x.2.link.length + (x.2.fwd.map (·.2.length)).sum).sum

/-- A frame leaves the hub: a trace frame is counted, the station number of an ENUM (R680). -/
def State.gyLeave (s : State) (l : Nat) (e : GyEntry) : State :=
  let s := if e.own ∧ e.frame.getD 1 0 = 2 then s.setGy { s.gy with cntTrace := s.gy.cntTrace + 1 } else s
  let s := s.emit (.geyser l e.frame)
  match e.enum with | some c => s.enumerate c | none => s

def State.gyDrain (s : State) : State :=
  let r := s.gy.pump s.gy.waiting []
  r.1.foldl (fun s e => s.gyLeave e.1 e.2) (s.setGy r.2)

/-- A row gives each lane 25,000 bytes of time (200 Gbit/s); what it left idle counts as cells. -/
def GyLane.newRow (x : GyLane) : GyLane :=
  { x with room := 25000 + min 0 x.room, linkGap := min 64 (x.linkGap + (max 0 x.room).toNat / 256) }
def State.gyRow (s : State) : State := (s.setGy (([0, 1] : List Nat).foldl (fun g l => g.setLane l (g.lane l).newRow) s.gy)).gyDrain

/-- Queue an own frame for egress and count it. -/
def State.gyPut (s : State) (cls : Nat) (frame : List Byte) : State :=
  (s.setGy ({ s.gy with cntTx := s.gy.cntTx + 1 }.originate cls { frame := frame, own := true })).gyDrain

/-- Originate a frame: injection first (R697). Bit `p` counts from the MAC through the payload. -/
def State.gySend (s : State) (cls : Nat) (payloadBytes : Nat) (frame : List Byte) : State :=
  let on : Bool := match gyFiBit cls with | some b => decide (0 < s.gy.duration) && bit s.gy.fi b | none => false
  if ¬ on then s.gyPut cls frame
  else
    let d0 := lfsrDraw s.gy.lfsr
    let d1 := lfsrDraw d0
    let d2 := lfsrDraw d1
    let cap (v : BitVec 16) : Nat := if cls = 1 then min v.toNat 16384 else v.toNat
    let s := s.setGy { s.gy with lfsr := d2 }
    if d0.toNat % 65536 < cap (field s.gy.fi 0 16) then
      s.setGy { s.gy with cntTx := s.gy.cntTx + 1, cntFiDrop := s.gy.cntFiDrop + 1 }
    else if d1.toNat % 65536 < cap (field s.gy.fi 16 16) then
      let p := d2.toNat * (8 * (32 + payloadBytes)) / 2 ^ 32
      let at_ := if p / 8 < 32 then 64 + p / 8 else 256 + (p / 8 - 32)
      (s.setGy { s.gy with cntFiCorrupt := s.gy.cntFiCorrupt + 1 }).gyPut cls (frame.modify at_ fun b => b ^^^ (1 <<< (p % 8)))
    else s.gyPut cls frame

/-- Cut a list into pieces of `n`. -/
def pieces {α : Type} (n : Nat) : Nat → List α → List (List α)
  | 0, _ => []
  | _, [] => []
  | k + 1, l => l.take n :: pieces n k (l.drop n)

/-- Trace frames of whole records on a channel (R696). TYPE and MSG_ID of a trace frame are open. -/
def State.gyTrace (s : State) (ch : BitVec 8) (records : List (List Byte)) : State :=
  let size := (records.headD []).length
  (pieces (4096 / max size 1) records.length records).foldl (fun s rs =>
    let body := rs.flatten
    let n := SMap.get 0 s.gy.traceSeq ch.toNat + 1
    let h : GyHead := { cls := 2, dst := 0xFE, src := s.gy.station, seq := BitVec.ofNat 64 n, msgBytes := BitVec.ofNat 32 body.length, channel := ch,
                        type := s.draw 16, msgId := s.drawAt 32 1 }
    let s := (s.drawn 2).setGy { s.gy with traceSeq := SMap.set 0 s.gy.traceSeq ch.toNat n }
    s.gySend 2 body.length (gyFrame h [] body)) s

end Sys2Proof.Machine
end

