-- ==== Sys2Proof/Machine/Telem.lean ====
section
/-! DEFINITION. The TELEM and DUMP functions and the dump engine (R615 to R625). -/
namespace Sys2Proof.Machine

/-! ### TELEM (R615 to R617) -/

/-- Complete at once after an SRAM write, or when the answers of plain writes have come. -/
def State.telemWrite (s : State) (f : Flight) (dst : W64) (bs : List Byte) (result : W64) : State :=
  if bs.isEmpty then s.complete f 0 result
  else if bit dst 63 then (s.coreWrite f.queue dst bs).complete f 0 result
  else
    let s := { s with cmd := s.cmd.setFlight { f with started := true, result := some result } }
    s.plainOut f.tag (field dst 0 52).toNat bs

def telemMark (f : Flight) (s : State) : State :=
  let d := f.desc
  let s := if (Desc.dom d).toNat < 64 then s.setFum { s.fum with descMarker := SMap.put s.fum.descMarker (Desc.dom d).toNat (markerOf d) } else s
  s.complete f 0

/-- The class at whose grain a queue's owner reads. -/
def QClass.cls (q : Nat) : QClass → Cls
  | .keeper => .K | .steward => .S | .host => .H | .part => .P (BitVec.ofNat 6 q)

/-- The 136 bytes of source 0. -/
def State.partCounters (s : State) (c : Cls) (d : Nat) : List Byte :=
  ((List.range 16).flatMap fun k => leBytes 8 (if fumSees c d k then (SMap.get 0 s.fum.latched (256 + 16 * d + k)).setWidth 64 else (0 : W64))) ++
  leBytes 8 ((SMap.get 0 s.fum.ppwr d).setWidth 64)

/-- Scan the PC ring from index `i` for records of domain `d`: `n` indices remain, at most `room` records. The records and the next index. -/
def pcScan (x : Fum) (d : BitVec 7) : Nat → Nat → Nat → List Byte × Nat
  | 0, _, i => ([], i)
  | _, 0, i => ([], i)
  | n + 1, room + 1, i =>
    let r := SMap.get 0 x.pcRing i
    let j := if i + 1 < pcSize then i + 1 else 0
    if field r 124 4 = 0 ∧ field r 96 7 = d then
      let t := pcScan x d n room j
      (leBytes 16 r ++ t.1, t.2)
    else pcScan x d n (room + 1) j

/-- TELEM_READ (R616). LENGTH bounds source 1 alone; a first index outside the ring is TM_RANGE (log entry 25). -/
def telemRead (f : Flight) (s : State) : State :=
  let d := f.desc
  let src := (Desc.argField d 0 2).toNat
  let n := (Desc.length d).toNat
  if f.started then s
  else if 2 ≤ src then s.complete f 0x0D02
  else
    let bytes (m : Nat) (k : State → State) : State := match digForm f.queue (Desc.dom d) (Desc.dst d) m true with | some _ => s.complete f 0x0D01 | none => k s
    if src = 0 then
      if 64 ≤ (Desc.dom d).toNat then s.complete f 0x0D02
      else
        bytes 136 fun s => s.telemWrite f (Desc.dst d) (s.partCounters ((qClass f.queue).cls f.queue) (Desc.dom d).toNat) 136
    else
      let i := (Desc.src0 d).toNat
      if pcSize ≤ i then s.complete f 0x0D02
      else
        let span := (s.fum.pcProd.toNat + pcSize - i) % pcSize
        let r := pcScan s.fum (Desc.dom d) span (n / 16) i
        bytes n fun s => s.telemWrite f (Desc.dst d) r.1 (pack [(0, r.1.length), (32, r.2)])

/-- The `n` records from the consumer index. -/
def Fum.waitingRecords (x : Fum) (pc : Bool) (n : Nat) : List (List Byte) :=
  (List.range n).map fun i =>
    if pc then leBytes 16 (SMap.get 0 x.pcRing ((x.pcCons.toNat + i) % pcSize)) else leBytes 64 (SMap.get 0 x.ring ((x.cons.toNat + i) % ringSize))

/-- Move the consumer index past `n` records. -/
def Fum.consume (x : Fum) (pc : Bool) (n : Nat) : Fum :=
  if pc then { x with pcCons := BitVec.ofNat 22 ((x.pcCons.toNat + n) % pcSize), pcUsed := x.pcUsed - n }
  else { x with cons := BitVec.ofNat 22 ((x.cons.toNat + n) % ringSize), used := x.used - n }

/-- TELEM_DRAIN (R617, R696). One drain at a time moves records; the index advances when they have been written. -/
def telemDrain (f : Flight) (s : State) : State :=
  let d := f.desc
  let pc := bit (Desc.arg d) 0
  let size := if pc then 16 else 64
  let len := (Desc.length d).toNat
  if f.started ∨ s.cmd.flights.any (fun g => Desc.opcode g.desc = 0x82 ∧ g.started) then s
  else if len % size ≠ 0 then s.complete f 0x0D02
  else
    let n := min (len / size) (if pc then s.fum.pcUsed else s.fum.used)
    let rs := s.fum.waitingRecords pc n
    if bit (Desc.dst d) 63 then
      if ¬ s.gy.traceEn then s.complete f 0x0D02
      else
        let s := (s.setFum (s.fum.consume pc n)).gyTrace (field (Desc.dst d) 0 8) rs
        s.complete f 0 (BitVec.ofNat 64 n)
    else if n = 0 then s.complete f 0 (0 : W64)
    else
      let s := { s with cmd := s.cmd.setFlight { f with started := true, result := some (BitVec.ofNat 64 n) } }
      s.plainOut f.tag (field (Desc.dst d) 0 52).toNat rs.flatten

/-- The answers of a TELEM command's writes. -/
def telemAnswer (s : State) (f : Flight) (r : OwnReq) (resp : Resp) : State :=
  if resp ≠ .ok then (s.ownEnd f.tag false).complete f (hideFor f.queue guardHidden (respCode resp r.code))
  else if ¬ s.ownDone (.cmd f.tag) then s
  else
    let s := s.ownEnd f.tag true
    let s := if Desc.opcode f.desc = 0x82 then s.setFum (s.fum.consume (bit (Desc.arg f.desc) 0) (f.result.getD 0).toNat) else s
    s.complete f 0 f.result

def execTelemMark (tag : Tag) (s : State) : Host.Outcome State Fault Refusal := .next (s.withFlight tag 0x80 telemMark)
def execTelemRead (tag : Tag) (s : State) : Host.Outcome State Fault Refusal := .next (s.withFlight tag 0x81 telemRead)
def execTelemDrain (tag : Tag) (s : State) : Host.Outcome State Fault Refusal := .next (s.withFlight tag 0x82 telemDrain)

/-! ### DUMP (R618 to R624) -/

def State.dumpSel (s : State) (d i : Nat) : DumpSel := SMap.get {} s.fum.sels (16 * d + i)
def State.setDumpSel (s : State) (d i : Nat) (x : DumpSel) : State := s.setFum { s.fum with sels := SMap.set {} s.fum.sels (16 * d + i) x }

def dumpArm (f : Flight) (s : State) : State :=
  let d := f.desc
  let p := (Desc.dom d).toNat
  let i := (Desc.argField d 0 4).toNat
  let x := s.dumpSel p i
  if 64 ≤ p ∨ ¬ ((s.part p).state = .keyed ∨ (s.part p).state = .running) ∨ (SMap.get none s.fum.dumpKeys p).isNone then s.complete f 0x0D03
  else if x.state ≠ 0 ∧ x.state ≠ 2 then s.complete f 0x0D04
  else if bit (Desc.dst d) 63 ∨ field (Desc.dst d) 0 6 ≠ 0 then s.complete f 0x0D01
  else
    (s.setDumpSel p i { x with state := 1, stepAny := bit (Desc.arg d) 4, tensor := Desc.argField d 32 32, step := Desc.argField d 64 32, dst := Desc.dst d, cap := Desc.length d }).complete f 0

def dumpDisarm (f : Flight) (s : State) : State :=
  let p := (Desc.dom f.desc).toNat
  let i := (Desc.argField f.desc 0 4).toNat
  let x := s.dumpSel p i
  if 64 ≤ p ∨ x.state = 3 then s.complete f 0x0D04
  else (if x.state = 0 then s else s.setDumpSel p i { x with state := 0 }).complete f 0

/-- Bytes of a dump of `n` tensor bytes. -/
def dumpChunks (n : Nat) : Nat := (n + 4095) / 4096

/-- The source pages of a DUMP_POINT. -/
def dumpPages (d : Desc) : List Nat := List.range' ((field (Desc.src0 d) 0 52).toNat / 4096) (dumpChunks (Desc.length d).toNat)

/-- The lowest ARMED selector that the declaration matches. -/
def State.dumpMatch (s : State) (d : Desc) : Option Nat :=
  (List.range 16).find? fun i =>
    let x := s.dumpSel (Desc.dom d).toNat i
    x.state = 1 && x.tensor = Desc.argField d 32 32 && (x.stepAny || x.step = Desc.argField d 64 32)

/-- The checks of R620; LENGTH 0 is DUMP_REGION, the code of a source that names no tensor (log entry 25). -/
def dumpCheck (s : State) (d : Desc) (x : DumpSel) : Option Status :=
  let n := (Desc.length d).toNat
  let regions := s.regionPages (Desc.dom d).toNat
  if n = 0 ∨ bit (Desc.src0 d) 63 ∨ field (Desc.src0 d) 0 12 ≠ 0 ∨ ¬ (dumpPages d).all regions.contains then some 0x0D05
  else if x.cap.toNat < 64 + 4112 * dumpChunks n then some 0x0D06
  else none

/-- DUMP_POINT (R620): the selector is BUSY and the command waits for the engine. -/
def dumpPoint (f : Flight) (s : State) : State :=
  let d := f.desc
  let p := (Desc.dom d).toNat
  if f.started then s
  else if 64 ≤ p then s.complete f 0 (0 : W64)
  else match s.dumpMatch d with
    | none => s.complete f 0 (0 : W64)
    | some i =>
      match dumpCheck s d (s.dumpSel p i) with
      | some st => s.complete f st
      | none => { s.setDumpSel p i { s.dumpSel p i with state := 3 } with cmd := s.cmd.setFlight { f with started := true, result := some (BitVec.ofNat 64 i) } }

/-- The arm port: set or clear DUMP_ARMED in a page's record, in the slice that caches it or in Caldera. -/
def State.armPage (s : State) (b : Bool) (page : Nat) : State :=
  match s.guard.slices.find? fun e => e.2.cache.any fun c => c.page = page with
  | some (n, _) => s.putRec n page { s.pageRec n page with dumpArmed := b }
  | none => { s with guard := s.guard.putRecord page { s.guard.record page with dumpArmed := b } }

/-- The 64-byte header (R622). -/
def dumpHeader (f : Flight) (kgen : BitVec 6) (nonce : W64) : List Byte :=
  let d := f.desc
  [0x52, 0x44, 0x53, 0x44, 1, (Desc.dom d).setWidth 8, kgen.setWidth 8, 0] ++ leBytes 4 (Desc.argField d 32 32) ++ leBytes 4 (Desc.argField d 64 32) ++
  leBytes 4 (Desc.length d) ++ leBytes 4 (BitVec.ofNat 32 (dumpChunks (Desc.length d).toNat)) ++ leBytes 8 nonce ++ leBytes 8 f.disp ++ leBytes 3 (Desc.layer d) ++ [0] ++
  leBytes 2 (Desc.operator d) ++ List.replicate 18 0

/-- The sealed chunks of the plaintext (R622). -/
def dumpSeal (key : Key256) (nonce : W64) (header pt : List Byte) (chunks : Nat) : List Byte :=
  (List.range chunks).flatMap fun c =>
    let ctr := beBytes 4 (BitVec.ofNat 32 c)
    let e := gcmSeal key (leBytes 8 nonce ++ ctr) (header ++ ctr) (fitBytes 4096 ((pt.drop (4096 * c)).take 4096))
    e.1 ++ leBytes 16 e.2

/-- DUMP_RUN (R621 steps 1 and 2): the free engine takes the oldest waiting dump, arms its pages and reads its lines. -/
def dumpRun (s : State) : State :=
  if s.fum.dump.isSome ∨ ¬ s.skn.drbgReady 0 then s
  else match s.cmd.flights.find? fun f => Desc.opcode f.desc = 0x71 ∧ f.started with
    | none => s
    | some f =>
      let d := f.desc
      let nonce : W64 := ofLeBytes 64 (s.randomBytes 8)
      let s := s.drbgUsed 8
      let s := (dumpPages d).foldl (State.armPage · true) s
      let s := s.setFum { s.fum with dump := some { tag := f.tag, dom := (Desc.dom d).setWidth 6, sel := (f.result.getD 0).toNat, phase := .reading
                                                    header := dumpHeader f (s.part (Desc.dom d).toNat).kgen nonce, nonce := nonce } }
      s.requestSpan .dump (Desc.dom d) (field (Desc.src0 d) 0 52).toNat (4096 * dumpChunks (Desc.length d).toNat)

def execDumpArm (tag : Tag) (s : State) : Host.Outcome State Fault Refusal := .next (s.withFlight tag 0x70 dumpArm)
def execDumpPoint (tag : Tag) (s : State) : Host.Outcome State Fault Refusal := .next (s.withFlight tag 0x71 dumpPoint)
def execDumpDisarm (tag : Tag) (s : State) : Host.Outcome State Fault Refusal := .next (s.withFlight tag 0x72 dumpDisarm)
def execDumpRun (s : State) : Host.Outcome State Fault Refusal := .next (dumpRun s)

/-- The engine is free again: the selector takes state `st`, and the command completes unless its completion is not wanted. -/
def State.dumpEnd (s : State) (r : DumpRun) (st : BitVec 2) (status : Status) (bytes : Nat) : State :=
  let x := s.dumpSel r.dom.toNat r.sel
  let s := (s.ownDrop .dump).setFum { s.fum with dump := none }
  let s := s.setDumpSel r.dom.toNat r.sel { x with state := if x.state = 3 then st else x.state, bytes := if status = 0 then BitVec.ofNat 32 bytes else x.bytes }
  match s.cmd.flight r.tag with
  | some f => if r.silent then { s with cmd := s.cmd.drop f.tag } else s.complete f (hideFor f.queue guardHidden status) (if status = 0 then pack [(0, 1), (1, r.sel), (32, bytes)] else none)
  | none => s

/-- The destination lines, with their bytes, that the engine has written: those of earlier phases, and in this one the writes that
have not been refused. -/
def State.dumpWritten (s : State) (r : DumpRun) : List (Addr × BitVec 64) :=
  r.written ++ ((s.ownOf .dump).filter fun q => q.op ≠ 0 && (match q.answer with | some a => decide (a.1 = .ok) | none => q.live)).map fun q => (q.addr, q.mask)

/-- A dump fails (R623): zero every destination byte written, clear DUMP_ARMED, then complete. -/
def State.dumpFail (s : State) (r : DumpRun) (status : Status) : State :=
  let pages := match s.cmd.flight r.tag with | some f => dumpPages f.desc | none => []
  let s := pages.foldl (State.armPage · false) s
  let s := if status = 0x0D07 then s.log 0x0D000083 0 (r.dom.setWidth 8) else s
  let lines := s.dumpWritten r
  let s := s.ownDrop .dump
  if lines.isEmpty ∨ (s.cmd.flight r.tag).isNone then s.dumpEnd r 1 status 0
  else
    lines.foldl (fun s a => s.request .dump (if a.2 = BitVec.allOnes 64 then 1 else 2) a.1 65 0 a.2)
      (s.setFum { s.fum with dump := some { r with phase := .zeroing, status := status } })

/-- The engine's next step once every request of the phase has been answered (R621 steps 3 to 5). -/
def State.dumpNext (s : State) (r : DumpRun) : State :=
  match s.cmd.flight r.tag with
  | none => s.dumpEnd r 1 r.status 0
  | some f =>
    let d := f.desc
    let n := (Desc.length d).toNat
    let x := s.dumpSel r.dom.toNat r.sel
    let base := (field x.dst 0 52).toNat
    let total := 64 + 4112 * dumpChunks n
    match r.phase with
    | .reading =>
      let pt := (spanBytes (s.ownOf .dump) (field (Desc.src0 d) 0 52).toNat (4096 * dumpChunks n)).take n
      let ct := dumpSeal ((SMap.get none s.fum.dumpKeys r.dom.toNat).getD 0) r.nonce r.header pt (dumpChunks n)
      (((s.ownDrop .dump).engineWork r.tag (dumpChunks n)).setFum { s.fum with dump := some { r with phase := .writing } }).plainWrite .dump (base + 64) ct
    | .writing =>
      let armed := (dumpPages d).all fun p => (pageRecOf s p).dumpArmed
      if ¬ armed then s.dumpFail r 0x0D07
      else
        let w := s.dumpWritten r
        let s := (dumpPages d).foldl (State.armPage · false) (s.ownDrop .dump)
        (s.setFum { s.fum with dump := some { r with phase := .header, written := w } }).plainWrite .dump base r.header
    | .header =>
      ((s.log 0x0D000080 0 (r.dom.setWidth 8) (BitVec.ofNat 64 r.sel) (BitVec.ofNat 64 total)).bump 53 1 |>.bump 54 total).dumpEnd r 2 0 total
    | .zeroing => s.dumpEnd r 1 r.status 0

/-- An answer to the dump engine. The zero writes of a failed dump are not repeated. -/
def State.dumpAnswer (s : State) (q : OwnReq) (resp : Resp) : State :=
  match s.fum.dump with
  | none => s
  | some r =>
    if resp ≠ .ok ∧ r.phase ≠ .zeroing then s.dumpFail r (if r.phase = .reading then respCode resp q.code else 0x0D08)
    else if s.ownDone .dump then s.dumpNext r
    else s

/-- Stop the dumps that `p` chooses (R624): waiting ones leave with `status`, a running one fails, one that is failing completes with it; with
`free`, selectors go to FREE. -/
def State.dumpStop (s : State) (p : Nat → Bool) (status : Status) (free : Bool) : State :=
  let s : State := match s.fum.dump with
    | some r =>
      if ¬ p r.dom.toNat then s
      else if r.phase = DumpPhase.zeroing then s.setFum { s.fum with dump := some { r with status := status } }
      else s.dumpFail r status
    | none => s
  let wait := s.cmd.flights.filter fun f => Desc.opcode f.desc = 0x71 ∧ f.started ∧ p (Desc.dom f.desc).toNat ∧ (s.fum.dump.map (·.tag)) ≠ some f.tag
  let s := wait.foldl (fun s f =>
    let d := (Desc.dom f.desc).toNat
    let i := (f.result.getD 0).toNat
    (s.setDumpSel d i { s.dumpSel d i with state := 1 }).complete f status) s
  if free then s.setFum { s.fum with sels := SMap.mapVals {} s.fum.sels fun k x => if p (k / 16) then { x with state := 0 } else x } else s

end Sys2Proof.Machine
end

