-- ==== Sys2Proof/Machine/Partitions.lean ====
section
/-! DEFINITION. Partitions: claim, keys, running, placement epochs, freeze, reset, bind-off and release (R218 to R243). -/
namespace Sys2Proof.Machine

/-! ### Commands that end from outside -/

/-- Release what command `f` holds in the units: its accesses, its stream, its shadow entry, its KEY_RANDOM, its part in a test. -/
def State.detach (s : State) (f : Flight) (st : Status) : State :=
  let s := s.ownUndo f.tag
  let s := match s.host.streams.find? fun e => e.2.tag = some f.tag with | some (n, _) => s.endStream (some n) f.tag st | none => s
  let k := s.skn
  let s := { s with skn := { k with shadows := k.shadows.filter fun x => x.tag ≠ f.tag, random := if k.random.any (fun (r : KeyRandom) => r.tag = f.tag) then none else k.random } }
  -- a test that no seam has placed yet goes with its command; one that is under way ends with it, and its unit returns at the next seam
  let tests := (s.vent.tests.filter fun (t : Test) => ¬ (t.byCmd = some f.tag ∧ (t.phase = .waiting ∨ t.phase = .deferred))).map
    fun (t : Test) => if t.byCmd = some f.tag then { t with byCmd := none, phase := .passed } else t
  let wanted (c : UnitId × UnitId) : Bool := tests.any fun t => t.phase = .waiting && t.unitId = c.1
  s.setVent { s.vent with tests := tests, copying := s.vent.copying.filter wanted, copyDone := s.vent.copyDone.filter wanted }

/-- End command `f` with `st`, committing nothing. -/
def State.abort (s : State) (f : Flight) (st : Status) : State := (s.detach f st).complete f st
/-- Free the tag of `f` with no completion (R100). -/
def State.discard (s : State) (f : Flight) : State := let s := s.detach f St.cmdAborted; { s with cmd := s.cmd.drop f.tag }

/-! ### Claim (R225 to R229) -/

/-- A PART function. -/
def Flight.isPart (f : Flight) : Bool := (Desc.opcode f.desc).toNat / 16 = 5
/-- An earlier PART function of the same partition is in progress (R220). -/
def State.partBusy (s : State) (f : Flight) : Bool :=
  (s.cmd.flights.takeWhile fun g => g.tag ≠ f.tag).any fun g => g.isPart && Desc.dom g.desc = Desc.dom f.desc

/-- The ranges share an element; an empty range shares none. -/
def rangesMeet (a n b m : Nat) : Bool := n ≠ 0 && m ≠ 0 && a < b + m && b < a + n

/-- The regions in use, as (first page, pages). -/
def Part.spans (p : Part) : List (Nat × Nat) := (p.regions.filter fun e => e.2.size ≠ 0).map fun e => (e.2.base.toNat * 512, e.2.size.toNat * 512)

/-- The list meets itself nowhere. -/
def apart : List (Nat × Nat) → Bool
  | [] => true
  | x :: l => l.all (fun y => !rangesMeet x.1 x.2 y.1 y.2) && apart l

/-- Check 2 of R226; a slice that is not enabled cannot hold a page of the claim. -/
def State.claimRegions (s : State) (p : Part) : Bool :=
  let g := s.guard
  let lo := g.base.toNat * 2 ^ 18
  let hi := (g.base.toNat + g.size.toNat) * 2 ^ 18
  g.locked && !p.spans.isEmpty && p.spans.all (fun x => lo ≤ x.1 && x.1 + x.2 ≤ hi) && apart p.spans &&
  ((List.range Config.slices).all s.sliceEnabled || p.spans.all fun x => (List.range' x.1 x.2).all fun q => s.sliceEnabled (Config.sliceOf q))

/-- The other partitions that are not FREE. -/
def State.othersClaimed (s : State) (d : Nat) : List Part := (s.parts.filter fun e => e.1 ≠ d ∧ e.2.state ≠ PState.free).map (·.2)

/-- Check 3 of R226. -/
def State.claimKnots (s : State) (d : Nat) (p : Part) : Bool :=
  p.knotBase.toNat % 64 = 0 && p.knotCount.toNat % 64 = 0 && p.knotBase.toNat + p.knotCount.toNat ≤ Config.knots &&
  (s.othersClaimed d).all fun q => !rangesMeet p.knotBase.toNat p.knotCount.toNat q.knotBase.toNat q.knotCount.toNat

/-- Check 4 of R226; a retired lane fails it, as one whose enable bit is clear (R640). -/
def State.claimLanes (s : State) (d : Nat) (p : Part) : Bool :=
  (bitsSet p.lanes).all fun l => s.laneEnabled l && (let o := (s.lane l).owner.toNat; 64 ≤ o || o = d || (s.part o).state = .free)

/-- Check 5 of R226. -/
def State.claimQuota (s : State) (d : Nat) (p : Part) : Bool :=
  1 ≤ p.tagQuota.toNat && p.tagQuota.toNat ≤ 512 && p.streams.toNat + ((s.othersClaimed d).map (·.streams.toNat)).sum ≤ 16384

/-- The checks of PART_CLAIM in order (R407, R389, R226). -/
def claimCheck (s : State) (d : Nat) : Option Status :=
  let p := s.part d
  if s.lc.state ≠ 4 ∨ s.lc.transSince ∨ s.lc.dbgSince then some 0x0914
  else if ¬ bit s.otp.partEn d then some 0x0701
  else if p.state ≠ .free then some 0x0701
  else if ¬ s.claimRegions p then some 0x0703
  else if ¬ s.claimKnots d p then some 0x0705
  else if ¬ s.claimLanes d p then some 0x0706
  else if ¬ s.claimQuota d p then some 0x0707
  else none

/-- The function has passed its checks and waits for its seam, or for the claim pass. -/
def State.partWaits (s : State) (f : Flight) : State := { s with cmd := s.cmd.setFlight { f with started := true } }

def partClaim (f : Flight) (s : State) : State :=
  let d := (Desc.dom f.desc).toNat
  if f.started then s
  else if s.partBusy f then s.complete f 0x0702
  else
    let s := s.retire (some d)
    match claimCheck s d with
    | some st => s.complete f st
    | none => (s.setPart d { s.part d with state := .claimed, claimChecked := true }).partWaits f

/-- The record that the pass writes (R227, R229). -/
def claimedRec (d : BitVec 6) (kgen : BitVec 6) (r : PageRec) : PageRec :=
  { r with zmap := BitVec.allOnes 64, pid := d, kgen := kgen, isSealed := true, weight := false, dumpArmed := false, quarantine := false }

/-- Write the records in order until one is sealed: the records, the pages written, and whether the pass reached its end. -/
def claimPass (d kgen : BitVec 6) : List Nat → Guard → List Nat → Guard × List Nat × Bool
  | [], g, w => (g, w, true)
  | q :: l, g, w =>
    let r := g.record q
    if r.isSealed then (g, w, false) else claimPass d kgen l (g.putRecord q (claimedRec d kgen r)) (w ++ [q])

/-- Write SEALED = 0 to the records that the pass had written (R228). -/
def unclaim (g : Guard) (w : List Nat) : Guard := w.foldl (fun g q => g.putRecord q { g.record q with isSealed := false }) g

/-- The PART_CLAIM of `d` whose pass runs. -/
def State.claimOf (s : State) (d : Nat) : Option Flight := s.cmd.flights.find? fun f => Desc.opcode f.desc = 0x50 && f.started && (Desc.dom f.desc).toNat = d

/-- CLAIM_PASS_COMPLETE (R227, R228). -/
def claimPassComplete (s : State) (d : BitVec 6) : State :=
  match s.claimOf d.toNat with
  | none => s
  | some f =>
    let n := d.toNat
    let p := s.part n
    let g := s.guard.sync false d
    let r := claimPass d p.kgen (s.regionPages n) g []
    if r.2.2 then
      let lines := BitVec.ofNat 36 (64 * (s.regionPages n).length)
      let s := { s with guard := r.1 }
      let s := s.setZst n { lines := lines, zlines := lines }
      let s := s.knotsCleared p.knotBase.toNat p.knotCount.toNat fun _ => { owner := d.setWidth 7, active := true }
      let s := (bitsSet p.lanes).foldl (fun s l => s.updLane l fun x => { x with owner := d.setWidth 7 }) s
      (s.setPart n { s.part n with claimChecked := false }).complete f 0
    else
      let s := { s with guard := unclaim r.1 r.2.1 }
      (s.setPart n { s.part n with state := .free, claimChecked := false }).complete f 0x0704

/-- A warm reset undoes a claim that runs; its command completes CMD_RESTARTED with the others (R33, R228). -/
def State.claimUndo (s : State) (d : Nat) : State :=
  if (s.part d).claimChecked then s.setPart d { s.part d with state := .free, claimChecked := false } else s

/-! ### Checks of the other functions (R219 to R222) -/

/-- The states that a function is issued from (R219). -/
def partFrom (op : BitVec 8) (st : PState) : Bool :=
  match op.toNat, st with
  | 0x51, .claimed => true
  | 0x52, .keyed => true
  | 0x53, .keyed | 0x53, .running => true
  | 0x54, .keyed | 0x54, .running => true
  | 0x55, .frozen => true
  | 0x56, .keyed | 0x56, .running => true
  | 0x57, .free => false
  | 0x57, _ => true
  | 0x58, .bindingOff => true
  | _, _ => false

/-- The four slots of a PART_KEY with the destination each needs (R231, R232). -/
def partKeySlots (d : Desc) : List (Nat × Nat) :=
  [((Desc.argField d 0 8).toNat, engSlice), ((Desc.argField d 8 8).toNat, engDrv), ((Desc.argField d 16 8).toNat, engWgate), ((Desc.argField d 24 8).toNat, engDump)]

/-- The check that is the function's own. -/
def partCheck (s : State) (f : Flight) : Option Status :=
  let d := (Desc.dom f.desc).toNat
  let p := s.part d
  match (Desc.opcode f.desc).toNat with
  | 0x51 => if (partKeySlots f.desc).all fun x => (s.skn.usable x.1 (Desc.dom f.desc) 3 x.2).isNone then none else some 0x0708
  | 0x53 => match p.lastEpochRow with | some n => if s.row + 1 < n + 1024 then some 0x0709 else none | none => none
  | 0x58 => if ¬ p.scrubbed then some 0x070A else if s.skn.owned d then some 0x070B else none
  | _ => none

/-- The shadow entries of a PART_KEY (R284, R289). -/
def State.shadowPart (s : State) (f : Flight) : State :=
  let d := f.desc
  let kgen := (s.part (Desc.dom d).toNat).kgen
  let ctx : List Byte := [(Desc.dom d).setWidth 8, kgen.setWidth 8]
  let key (i : Nat) (label : String) : Key256 := deriveKey (s.skn.slot ((partKeySlots d).getD i (0, 0)).1).bytes label ctx
  { s.worked (· = unitOf 10 0) with skn := { s.skn with shadows := s.skn.shadows ++
      [{ tag := f.tag, dataKey := key 0 "mem", macKey := key 0 "mac", weightKey := key 2 "wgt", dumpKey := key 3 "dump", kgen := kgen }] } }

/-- The checks of a function other than PART_CLAIM, in order; a function that passes them waits for its seam. -/
def partFunction (f : Flight) (s : State) : State :=
  let d := (Desc.dom f.desc).toNat
  let op := Desc.opcode f.desc
  if f.started then s
  else if s.partBusy f then s.complete f 0x0702
  else if ¬ partFrom op (s.part d).state then s.complete f 0x0701
  else match partCheck s f with
    | some st => s.complete f st
    | none =>
      let s := s.partWaits f
      match op.toNat with
      | 0x51 => s.shadowPart f
      | 0x56 | 0x57 => s.wgStop (some d) St.cmdAborted [0, 1, 2, 3]
      | _ => s

/-! ### Partition reset and bind-off (R10, R100, R123, R213, R238, R239) -/

/-- Fumarole's page of the partition: counters, window values and selectors at their Cold values (log entry 28). -/
def State.fumPageReset (s : State) (d : Nat) : State :=
  let s := (List.range 16).foldl (fun s k => s.fumReset (256 + 16 * d + k)) s
  s.setFum { s.fum with
    latched := s.fum.latched.filter fun e => ¬ (256 + 16 * d ≤ e.1 ∧ e.1 < 272 + 16 * d)
    ppwr := s.fum.ppwr.filter fun e => e.1 ≠ d
    zcoarse := s.fum.zcoarse.filter fun e => e.1 ≠ d
    winCnt := s.fum.winCnt.filter fun e => e.1 / 4 ≠ d
    sels := s.fum.sels.filter fun e => e.1 / 16 ≠ d }

/-- A direction of a mailbox page at its Cold values; LIVE that was 1 becomes 0 now. -/
def MbDir.cold (x : MbDir) (now : W64) : MbDir := { deadFrom := if x.live then now else x.deadFrom }

/-- Every partition-scoped page of `d` at its Cold values (R10). -/
def State.pagesCold (s : State) (d : Nat) : State :=
  let c := s.cmd
  let m := c.mailbox d
  let c := { c with queues := SMap.set {} c.queues d {}, slots := c.slots.filter fun e => e.1 / 16 ≠ d, ring := c.ring.filter fun e => e.1 / 32 ≠ d }
  let c := c.setMailbox d { up := m.up.cold s.bnd.timebase, down := m.down.cold s.bnd.timebase }
  let s := ({ s with cmd := c }).setPart d { s.part d with stale := 0, integ := 0 }
  (s.setWgPart d {}).fumPageReset d

/-- The commands of queue `d` leave without a completion, those of other queues with DOM = d complete CMD_ABORTED (R100); `keep` is the
function whose seam this is. A public-key operation that runs completes when its clearing ends (R361). -/
def State.endCommands (s : State) (d : Nat) (keep : Tag) : State :=
  let s := match s.fum.dump with
    | some r => if (s.cmd.flight r.tag).any (fun (f : Flight) => f.queue = d) then s.setFum { s.fum with dump := some { r with silent := true } } else s
    | none => s
  let dumping (f : Flight) : Bool := s.fum.dump.any fun (r : DumpRun) => r.tag = f.tag
  let mine := s.cmd.flights.filter fun (f : Flight) => f.queue = d ∧ ¬ dumping f ∧ f.tag ≠ keep
  let s := mine.foldl State.discard s
  let s := (s.dumpStop (· = d) St.cmdAborted true).pkeStopDom d
  let left := s.cmd.flights.filter fun (f : Flight) => (Desc.dom f.desc).toNat = d ∧ f.tag ≠ keep ∧ ¬ dumping f ∧ ¬ s.pke.after.any fun e => e.1 = f.tag
  left.foldl (fun s f => s.abort f St.cmdAborted) s

/-- The actions of R238 but for the state. -/
def State.partReset (s : State) (d : Nat) (keep : Tag) : State :=
  let s := (s.wgTeardown d).endCommands d keep
  let s := s.digReset (fun x => x.owner.toNat = d) false
  let s := s.endJobs fun j => j.dom.toNat = d
  let s := { s with att := { s.att with parts := s.att.parts.filter fun e => e.1 ≠ d } }
  let s := { s with guard := { s.guard with keys := s.guard.keys.filter fun e => e.1 ≠ d } }
  let s := s.setFum { s.fum with dumpKeys := s.fum.dumpKeys.filter fun e => e.1 ≠ d }
  let p := s.part d
  (s.knotsCleared p.knotBase.toNat p.knotCount.toNat fun x => { x with value := 0 }).pagesCold d

/-- The bind-off of `d` beyond the reset (R239); Steward owes a Sinter checkpoint (R451). -/
def State.bindOff (s : State) (d : Nat) (phys : Bool) : State :=
  let p := s.part d
  let s := s.knotsCleared p.knotBase.toNat p.knotCount.toNat fun _ => {}
  let s := { s with guard := { s.guard with synced := putBit s.guard.synced d false, syncedAll := false }, fl := { s.fl with ckDue := true } }
  s.setPart d { s.part d with state := .bindingOff, kgen := p.kgen + 1, physReq := phys, scrubbed := false, claimChecked := false }

/-! ### The seam (R221, R222) -/

/-- The entries of a PART_KEY become live (R231, R289). -/
def State.keysLive (s : State) (d : Nat) (x : Shadow) : State :=
  let e : KeyEntry := { dataKey := x.dataKey, macKey := x.macKey, h := aes256 x.macKey 0, kgen := x.kgen, valid := true }
  let s := { s with
    skn := { s.skn with shadows := s.skn.shadows.filter fun y => y.tag ≠ x.tag }
    guard := { s.guard with keys := SMap.set {} s.guard.keys d e } }
  let s := s.setWgPart d { s.wgPart d with keyValid := true, key := x.weightKey }
  (s.setFum { s.fum with dumpKeys := SMap.set none s.fum.dumpKeys d (some x.dumpKey) }).setPart d { s.part d with state := .keyed }

/-- The function's effect in full (R231 to R242). -/
def State.partCommit (s : State) (f : Flight) : State :=
  let d := (Desc.dom f.desc).toNat
  let p := s.part d
  match (Desc.opcode f.desc).toNat with
  | 0x51 => match s.skn.shadows.find? fun x => x.tag = f.tag with | some x => s.keysLive d x | none => s
  | 0x52 => ({ s with cmd := s.cmd.setQueue d { s.cmd.queue d with en := true } }).setPart d { p with state := .running }
  | 0x53 => s.setPart d { p with epoch := p.epoch + 1, lastEpochRow := some s.row }
  | 0x54 => s.freeze d 2
  | 0x55 => (s.setPart d { p with state := p.resume }).wgThaw d [0, 1, 2, 3]
  | 0x56 => let s := s.partReset d f.tag; s.setPart d { s.part d with state := .claimed }
  | 0x57 =>
    let phys := bit (Desc.arg f.desc) 0
    if p.state = .bindingOff then s.setPart d { p with physReq := p.physReq || phys } else (s.partReset d f.tag).bindOff d phys
  | _ =>
    let s := (bitsSet p.lanes).foldl (fun s l => s.updLane l fun x => { x with owner := 127 }) s
    let s := s.budgetWrite d 0                                                       -- Steward, after the release (R577)
    s.setPart d { s.part d with state := .free, tagQuota := 0, streams := 0, power := 0, knotBase := 0, knotCount := 0, lanes := 0, regions := [] }

/-- The seam of one started function other than PART_CLAIM. -/
def State.partSeam (s : State) (f : Flight) : State :=
  let d := (Desc.dom f.desc).toNat
  let op := (Desc.opcode f.desc).toNat
  if op = 0x50 then s
  else if (s.part d).state = .frozen ∧ op ≠ 0x57 ∧ op ≠ 0x55 then
    ({ s with skn := { s.skn with shadows := s.skn.shadows.filter fun y => y.tag ≠ f.tag } }).complete f 0x0701
  else if (op = 0x56 ∨ op = 0x57) ∧ ¬ s.wgQuiet d then s.wgStop (some d) St.cmdAborted [0, 1, 2, 3]
  else (s.partCommit f).complete f 0

/-- A function whose keys the derivation core cannot derive yet waits for a later seam (R634, R636). -/
def State.deriving (s : State) (f : Flight) : Bool := !s.deriveUp && s.skn.shadows.any fun x => x.tag = f.tag

/-- Every started function of families PART and LINK at a seam, in dispatch order. -/
def State.functionSeam (s : State) : State :=
  (s.cmd.flights.filter fun f => f.started && (f.isPart || (Desc.opcode f.desc).toNat / 16 = 9)).foldl
    (fun s f => if (s.cmd.flight f.tag).isSome && !s.deriving f then (if f.isPart then s.partSeam f else s.linkSeam f) else s) s

def execPartClaim (tag : Tag) (s : State) : Host.Outcome State Fault Refusal := .next (s.withFlight tag 0x50 partClaim)
def execPartKey (tag : Tag) (s : State) : Host.Outcome State Fault Refusal := .next (s.withFlight tag 0x51 partFunction)
def execPartStart (tag : Tag) (s : State) : Host.Outcome State Fault Refusal := .next (s.withFlight tag 0x52 partFunction)
def execPartMigrate (tag : Tag) (s : State) : Host.Outcome State Fault Refusal := .next (s.withFlight tag 0x53 partFunction)
def execPartFreeze (tag : Tag) (s : State) : Host.Outcome State Fault Refusal := .next (s.withFlight tag 0x54 partFunction)
def execPartThaw (tag : Tag) (s : State) : Host.Outcome State Fault Refusal := .next (s.withFlight tag 0x55 partFunction)
def execPartReset (tag : Tag) (s : State) : Host.Outcome State Fault Refusal := .next (s.withFlight tag 0x56 partFunction)
def execPartBindoff (tag : Tag) (s : State) : Host.Outcome State Fault Refusal := .next (s.withFlight tag 0x57 partFunction)
def execPartRelease (tag : Tag) (s : State) : Host.Outcome State Fault Refusal := .next (s.withFlight tag 0x58 partFunction)
def execClaimPassComplete (dom : BitVec 6) (s : State) : Host.Outcome State Fault Refusal := .next (claimPassComplete s dom)

/-! ### Registers -/

/-- A write of a configuration register of partition `d` (R225). -/
def State.partConfig (s : State) (d : Nat) (c : Cls) (f : Part → Part) : State :=
  if (c = .K ∨ c = .S) ∧ (s.part d).state = .free then s.setPart d (f (s.part d)) else s

def partRegs : List Reg :=
  [ { base := 0x0480000, count := 64, allow := capKSHO                                                                    -- PART_STATE
      get := fun d _ s =>
        let p := s.part d
        pack [(0, p.state.code), (3, p.resume.code), (6, p.kgen.toNat), (12, p.epoch.toNat), (16, p.freezeCause.toNat), (18, b2n p.physReq),
              (19, b2n p.scrubbed), (20, b2n (s.cmd.flights.any fun f => f.isPart && (Desc.dom f.desc).toNat = d))] },
    { base := 0x0480008, count := 64, allow := capKSHO                                                                    -- PART_QUOTA
      get := fun d _ s => let p := s.part d; pack [(0, p.tagQuota.toNat), (10, 4), (13, p.streams.toNat), (28, p.power.toNat)]
      put := fun d c v m s => s.partConfig d c fun p => { p with tagQuota := mrg p.tagQuota 0 v m, streams := mrg p.streams 13 v m, power := mrg p.power 28 v m } },
    { base := 0x0480010, count := 64, allow := capKSHO                                                                    -- PART_KNOTS
      get := fun d _ s => let p := s.part d; pack [(0, p.knotBase.toNat), (17, p.knotCount.toNat)]
      put := fun d c v m s => s.partConfig d c fun p => { p with knotBase := mrg p.knotBase 0 v m, knotCount := mrg p.knotCount 17 v m } },
    { base := 0x0480018, count := 64, allow := capKSHO                                                                    -- PART_LANES
      get := fun d _ s => (s.part d).lanes
      put := fun d c v m s => s.partConfig d c fun p => { p with lanes := mrg p.lanes 0 v m } },
    { base := 0x04C0000, count := 64, allow := capKSHOP                                                                   -- PART_VIEW
      get := fun d _ s =>
        let p := s.part d
        let job := s.lnk.jobs.any fun e => match e.2 with | some x => x.dom.toNat = d | none => false
        pack [(0, p.state.code), (3, p.epoch.toNat), (7, p.kgen.toNat), (13, b2n (s.keyEntry d).valid), (14, b2n (s.wgPart d).keyValid),
              (15, b2n (SMap.get none s.fum.dumpKeys d).isSome), (16, b2n job)] },
    { base := 0x04C0008, count := 64, allow := capKSHOP, get := fun d _ s => (s.part d).stale.setWidth 64 },
    { base := 0x04C0010, count := 64, allow := capKSHOP, get := fun d _ s => (s.part d).integ.setWidth 64 },
    { base := 0x04C0018, count := 64, allow := capKSHOP, get := fun d c s => if c = .H ∨ c = .O then 0 else (s.zst d).zlines.setWidth 64 },
    { base := 0x04C0020, count := 64, allow := capKSHOP
      get := fun d c s => let z := s.zst d; pack [(0, z.lines.toNat), (36, if c = .H ∨ c = .O then 0 else z.fracRes.toNat)] } ] ++
  (List.range 16).map fun r =>
    { base := 0x0480100 + 8 * r, count := 64, allow := capKSHO                                                            -- PART_REGION
      get := fun d _ s => let x := SMap.get ({} : Region) (s.part d).regions r; pack [(0, x.base.toNat), (31, x.size.toNat)]
      put := fun d c v m s => s.partConfig d c fun p =>
        let x := SMap.get ({} : Region) p.regions r
        { p with regions := SMap.set {} p.regions r { base := mrg x.base 0 v m, size := mrg x.size 31 v m } } }

end Sys2Proof.Machine
end

