-- ==== Sys2Proof/Machine/CastOn.lean ====
section
/-! DEFINITION. Resets and cast-on: the cold reset (R30, R31, R77), the warm reset (R32 to R35, R74, R521), the start-over (R497), the
stages CO0 to CO12 (R492 to R513), halts, ROM recovery, test hold, the root-hash step, power-up in waves (R514 to R517), READY (R518). -/
namespace Sys2Proof.Machine

def State.setCo (s : State) (c : Co) : State := { s with co := c }
def State.setBnd (s : State) (b : Bnd) : State := { s with bnd := b }

/-! ### Cold reset -/

/-- Geyser sessions that a reset ends: one event each that names the cause (R691, log entry 34). -/
def State.sessionsEnded (s : State) (n cause : Nat) : State :=
  (List.range n).foldl (fun s _ => s.logItems 0x0F000081 [cause]) s

/-- A cold reset: every unit but the always-on domain at its cold value (R31); OTP and flash keep their contents; pins keep their levels. -/
def State.coldReset (s : State) (cause : BitVec 3) (timebase : W64) : State :=
  let s := s.flCut.lcCut.otpCut
  let b := s.bnd
  let grant := s.lc.dbgOpen
  let n := s.gy.sessions.length
  let t : State := { State.reset with
    pending := s.pending
    out := s.out
    freeCount := s.freeCount
    bnd := { timebase := timebase, lastReset := cause, porN := false, sitePresent := b.sitePresent, pwrWarn := b.pwrWarn, thermTrip := b.thermTrip,
             memtrn := b.memtrn, vppOk := b.vppOk, snsAlert := b.snsAlert }
    otp := { words := s.otp.words }
    fl := { dev := s.fl.dev, wearAt := timebase }
    cmd := { State.reset.cmd with mbSince := timebase }
    gy := { lock := s.gy.lock, lockLost := (([0, 1] : List Nat).filter fun l => !bit s.gy.lock l).map fun l => (l, some timebase) } }
  let t := if grant then t.logItems 0x09000084 [3] else t
  t.sessionsEnded n 5

/-- ALWAYS_ON_POWER_UP (R30). -/
def execAlwaysOnPowerUp (s : State) : Host.Outcome State Fault Refusal := .next (s.coldReset 0 0)
/-- BLOCK_POWER_LOSS (R31): POR_N is low while the supplies are out of range (R72). -/
def execBlockPowerLoss (s : State) : Host.Outcome State Fault Refusal := .next (s.coldReset 2 s.bnd.timebase)
/-- POR_N_FALL (R77). -/
def execPorNFall (s : State) : Host.Outcome State Fault Refusal := .next (if s.bnd.porN then s.coldReset 1 s.bnd.timebase else s)

/-- Leave stage `a` and enter stage `b`: CO_TIME and CO_STAGE. -/
def State.enterStage (s : State) (a b : Nat) : State :=
  let s := s.setCo { s.co with times := SMap.set 0 s.co.times a s.bnd.timebase, stageAt := s.bnd.timebase }
  s.setBnd { s.bnd with coStage := BitVec.ofNat 4 b }

/-- POR_N_RISE: the straps are sampled and CO0 exits (R73); the watchdog counts from here (R494). -/
def porRise (s : State) (pkgSlot : BitVec 8) (avsEn : BitVec 4) : State :=
  if s.bnd.porN then s
  else
    let s := s.setBnd { s.bnd with porN := true, pkgSlot := pkgSlot, avsEn := avsEn }
    (s.setCo { s.co with wdogFrom := s.bnd.timebase, wdogSkip := 0 }).enterStage 0 1
def execPorNRise (pkgSlot : BitVec 8) (avsEn : BitVec 4) (s : State) : Host.Outcome State Fault Refusal := .next (porRise s pkgSlot avsEn)

/-! ### Start-over (R497) -/

/-- Every unit that CO3 to CO12 use returns to its cold value; the items that R497 lists are kept. The region outputs fall to 0 at the next
seam (R62, log entry 42). A slice that CO8 retired as untrained stays retired (R512). -/
def State.startOver (s : State) : State :=
  let s := (s.endGrant 2).flCut
  let k := s.skn
  let c := s.co
  let g := s.gy
  let t : State := { State.reset with
    pending := s.pending
    out := s.out
    freeCount := s.freeCount
    bnd := { s.bnd with ready := false, recovery := false, coStage := 3, siteTrusted := 0, warmRunning := false }
    otp := s.otp
    lc := { s.lc with chal := none, granting := none }
    cmd := { State.reset.cmd with mbSince := s.bnd.timebase }
    skn := { esState := k.esState, esLast := k.esLast, esFails := k.esFails, health := k.health, drbg0 := k.drbg0, drbg1 := k.drbg1 }
    fl := { dev := s.fl.dev, optime := s.fl.optime, optimeAt := s.fl.optimeAt, repaired := s.fl.repaired, ckBytes := s.fl.ckBytes, ckFrom := s.fl.ckFrom }
    gy := { station := g.station, lock := g.lock, lockLost := g.lockLost, lossTold := g.lossTold, loopAt := g.loopAt, ringAt := g.ringAt, retryAt := g.retryAt, lanes := g.lanes }
    gov := { regs := SMap.mapVals {} s.gov.regs fun _ r => { step := r.step, stretch := r.stretch } }
    snt := { queue := s.snt.queue, otpOver := s.snt.otpOver, otpOverAt := s.snt.otpOverAt, coOver := s.snt.coOver, coOverAt := s.snt.coOverAt }
    co := { haltCause := c.haltCause, recCause := c.recCause, failedStarts := c.failedStarts, failStage := c.failStage, failCause := c.failCause,
            untrained := c.untrained, stageAt := s.bnd.timebase, wdogFrom := s.bnd.timebase }
    vent := { units := s.vent.units.filter fun e => e.1 / 2048 = 1 ∧ bit c.untrained (e.1 % 2048) }
    host := { cause := s.host.cause, frozen := s.host.frozen, causeRead := s.host.causeRead, overflow := s.host.overflow, errors := s.host.errors } }
  if s.bnd.recovery ∨ s.gov.hold then t.hostIrq 2 else t

/-! ### Warm reset (R32 to R34, R521) -/

/-- LIVE falls where the receiver is Keeper, Steward or the row engine (R113). -/
def Cmd.firmwareDead (c : Cmd) (t : W64) : Cmd :=
  let down (d : MbDir) : MbDir := if d.live then { d with live := false, deadFrom := t } else d
  { c with mailboxes := SMap.mapVals {} c.mailboxes fun m x => { x with up := down x.up, down := if 76 ≤ m then down x.down else x.down } }

/-- Every command in flight ends with CMD_RESTARTED and commits nothing (R33); an ingest context that rolls back and a dump that zeroes its
chunk complete theirs later (R212, R624). -/
def State.restartCommands (s : State) : State :=
  let s := s.wgStop none St.cmdRestarted [0, 1, 2, 3]
  let s := s.dumpStop (fun _ => true) St.cmdRestarted false
  let later (s : State) (f : Flight) : Bool := ([0, 1, 2, 3].any fun c => (s.wgCtx c).busy && (s.wgCtx c).tag = f.tag) || s.fum.dump.any fun (r : DumpRun) => r.tag = f.tag
  s.cmd.flights.foldl (fun s f => if later s f ∨ (s.cmd.flight f.tag).isNone then s else s.abort f St.cmdRestarted) s

/-- The streams that are not FREE. -/
def State.openStreams (s : State) : List Nat := (List.range 16).filter fun n => (s.stream n).state ≠ StState.free

/-- The host window unit at the t0 of a warm reset; `l` are the streams open at t0, whose consumers have ended (R666, R669, R673). -/
def State.warmHost (s : State) (l : List Nat) : State :=
  let s := { s with host := { s.host with wins := [], ideIv := 0, slot := 0, dir := false, kset := false } }
  let s := l.foldl (fun s n => s.freeStream n 0x0E05) s
  if s.bnd.ready then s.hostIrq 2 else s

/-- A flash channel at the t0 of a warm reset: an operation that the device performs goes on, one that waits is dropped (R444). -/
def Flash.warmChan (f : Flash) (c : Nat) : FlChan := { busy := f.run.any fun r => r.chan = c, status := (f.chan c).status }

/-- The t0 of a warm reset. CO_STAGE shows CO1 from here on: the Warm column of BLK_STATUS gives 0, which R521 says that a warm reset never
shows (log entry 42) (R32 to R34, R70, R74, R113, R212, R228, R267, R297, R329, R349, R427, R562, R596, R666, R691, R698, R701). -/
def State.warmBegin (s : State) (cause : BitVec 3) : State :=
  let streams := s.openStreams
  let s := (List.range 64).foldl State.claimUndo s
  let s := s.restartCommands
  let s := (s.digReset (fun x => x.qclass = QClass.dig .keeper || x.qclass = QClass.dig .steward) true).pkeWarm
  let s := s.endGrant 2
  let k := s.skn.emptySlots (List.range' 16 8)
  let s := s.setSkn { k with
    slots := SMap.mapVals {} k.slots fun _ x => { x with erasing := false }
    aliasDone := false, keeperDig := 0, stewardDig := 0, rowDig := 0, keeperSvn := 0, stewardSvn := 0, rowSvn := 0, commit := false, random := none, shadows := []
    drbg0 := {}, drbg1 := {} }
  let s := { s with otp := { s.otp with op := 0, margin := 0, addr := 0, wdata := 0, rdata := 0, rdec := 0, corrected := false, rUncorr := false, copyDiff := false } }
  let s := s.setLc { s.lc with sessBusy := false, target := 0, token := 0, scope := 0, purpose := false, duration := 0, chal := none, granting := none }
  let s := s.setFl { s.fl with acl := 0, ch0 := s.fl.warmChan 0, ch1 := s.fl.warmChan 1, bad := [], baseDone := 0, repaired := 0,
                                cfgDue := false, idleDue := false }
  let s := s.setAtt { s.att with run := none, aliasIssued := false, hostSpdm := [], 
                                 sites := SMap.mapVals {} s.att.sites fun _ x => { x with step := none, sent := [] } }
  let s := s.warmHost streams
  let s := { s with cmd := { s.cmd.firmwareDead s.bnd.timebase with awaited := [], taken := [], couldRun := [] }, re := s.re.stopped, guard := { s.guard with syncBusy := false } }
  let n := s.gy.sessions.length
  let s := s.setGy { s.gy with fi := 0, doomed := s.gy.doomed ++ s.gy.sessions.flatMap fun (x : GySession) => [x.slot0, x.slot1], sessions := [], shakes := [], upload := none, waits := [], reports := [], activateAt := none, hello := {}, recFlow := {} }
  let s := (s.sessionsEnded n 4).fumFirst
  let s := s.setGov { s.gov with cleanRows := 0 }
  let c := s.co
  let s := s.setCo { c with
    testHold := false, holdAgain := false, rootprov := false, keeperDone := false, stewardDone := false, runSram := false, unsignedRun := false, swatched := false, seamDone := false, times := []
    stageAt := s.bnd.timebase, wdogFrom := s.bnd.timebase, wdogSkip := 0, waveBusy := false, wave := 0, railOk := false, paused := false, waveSet := 0, waveStep := .none, waveClean := [] }
  s.setBnd { s.bnd with ready := false, coStage := 1, lastReset := cause, warmRunning := true, warmT0 := s.bnd.timebase, testGate := 0 }

/-- WARM_RESET: ignored before the first READY since a cold reset, while a warm reset runs, in recovery and with POR_N low (R74, R75). -/
def warmReset (s : State) (cause : BitVec 3) : State :=
  if ¬ s.bnd.porN ∨ ¬ s.bnd.everReady ∨ ¬ s.bnd.ready then s else s.warmBegin cause
def execWarmReset (s : State) : Host.Outcome State Fault Refusal := .next (warmReset s 3)

/-! ### Halts, recovery, failed starts (R494 to R503) -/

/-- Every slice and lane is disabled (R500, R502); the clamp takes every region to step 0 at the next seam (R62, `State.clampSeam`). -/
def State.closePlane (s : State) : State :=
  { s with
    guard := { s.guard with slices := SMap.mapVals {} s.guard.slices fun _ x => { x with en := false } }
    lnk := { s.lnk with lanes := SMap.mapVals {} s.lnk.lanes fun _ x => { x with en := false } } }

/-- A halt; at CO6 and CO8 it appends event 0x0F00_0043. BYPASS_N is low in it (R499, R500; log entry 42). -/
def State.halt (s : State) (cause : BitVec 3) : State :=
  let s := (s.setCo { s.co with halted := true, haltCause := cause }).closePlane
  let s := (s.setGy { s.gy with loopAt := none, ringAt := none, retryAt := none }).setBnd { s.bnd with bypass := false, gyTrained := 0 }
  if 4 ≤ cause.toNat then s.log 0x0F000043 (p0 := cause.setWidth 64) else s

/-- Enter ROM recovery (R501, R502): the service core and the row engine are in reset. -/
def State.enterRecovery (s : State) (cause : BitVec 3) : State :=
  let s := (s.setCo { s.co with recCause := cause }).closePlane
  ({ s.setBnd { s.bnd with recovery := true, ready := false } with re := { s.re.cleared with run := false, running := false } }).log 0x0F000042 (p0 := cause.setWidth 64) |>.hostIrq 2

/-- A failed start (R496): 1 watchdog, 2 core fault, 3 fetch refused. -/
def State.failStart (s : State) (cause : BitVec 2) : State :=
  if ¬ s.starting then s
  else
    let stage := s.bnd.coStage
    let n := s.co.failedStarts + 1
    let s := s.setCo { s.co with failedStarts := n, failStage := stage, failCause := cause }
    let e := fun (s : State) => s.log 0x0F000041 (p0 := stage.setWidth 64) (p1 := cause.setWidth 64)
    if n = 4 then (e s).enterRecovery 4
    else if s.bnd.warmRunning then (e s).warmBegin s.bnd.lastReset
    else e s.startOver

/-- CAST_ON_WATCHDOG_EXPIRE: the count reaches 500 ms, or 60 ms in a warm reset. -/
def watchdogExpire (s : State) : State :=
  if ¬ s.starting ∨ s.wdogPaused then s
  else (s.at (s.co.wdogFrom.toNat + s.co.wdogSkip + (if s.bnd.warmRunning then 60000000 else 500000000))).failStart 1
def execCastOnWatchdogExpire (s : State) : Host.Outcome State Fault Refusal := .next (watchdogExpire s)
def execCoreFault (fetch : Bool) (s : State) : Host.Outcome State Fault Refusal := .next (s.failStart (if fetch then 3 else 2))

/-! ### CO1 to CO3 -/

/-- The end of the sense: the life-cycle state, the gates, the DRBG instances. A warm re-sense waits for an OTP operation and for a
transition (R384, R399, R419). -/
def castOn1 (s : State) : State :=
  if s.bnd.warmRunning then
    if s.otp.running.isSome ∨ s.lc.trBusy then s
    else
      let s := s.otpSenseInc.lcResense
      (s.instantiateDrbgs.enterStage 1 3).driveGates
  else (s.otpSense.lcSense).enterStage 1 2

/-- OTP_WIRED rises with its valid flag; the repair stream is shifted and loaded, and the Geyser equalisation and Caldera supply trims
are applied (R54, R372, R376, R385, R386). -/
def castOn2 (s : State) : State :=
  let s := (s.setBnd { s.bnd with wiredValid := true, wired := s.otp.wired }).emit (.repairLoad s.otp.repairStream)
  (s.emit (.trims ((List.range' 0x070 16).map s.otp.trim) ((List.range' 0x0A0 14).map s.otp.trim))).enterStage 2 3

/-- The ROM self-check of R499. -/
def romSound : Bool := sha3_384 (Config.rom.take 262080) = (Config.rom.drop 262080).take 48

/-- The DeviceID and sealing derivations (R284, R286, R287). -/
def State.deviceIdDerive (s : State) : State :=
  if s.lc.dbgSince then s
  else if ¬ s.secretOk ∨ s.otp.pst 5 ≠ 1 then (s.setSkn { s.skn with secretDenied := true }).log 0x02000082
  else
    let uds := s.otp.bytes 0x050 64
    let cdi := derive uds "devid" [] (romDigest ++ s.configDigest) 64
    let k := s.skn.setSlot 0 (hwSlot (s.skn.slot 0).gen 0 2 cdi)
    let k := k.setSlot 1 (hwSlot (k.slot 1).gen (ofBits 9 [engPke]) 2 (derive cdi "devid-ecdsa" [] [] 64))
    let k := k.setSlot 2 (hwSlot (k.slot 2).gen (ofBits 9 [engPke]) 0 (derive cdi "devid-mldsa" [] [] 32))
    let k := k.setSlot 3 (hwSlot (k.slot 3).gen (ofBits 9 [engDrv]) 0 (derive uds "seal" s.identityDigest [] 32))
    s.setSkn { k with devidDone := true }

/-- CO3 with its halts (R492, R499, R521): the flash device is reset, its SFDP table read, and it is switched to 8D-8D-8D (R59); `flash` says
whether it answers with every feature that it needs. -/
def castOn3 (s : State) (flash : Bool) : State :=
  let warm := s.bnd.warmRunning
  let s := (s.setSkn { s.skn with keeperSram := [], stewardSram := [] }).pkeClear []
  let s := if warm then s else (((s.setFl { s.fl with ok := flash, octal := flash }).emit .flReset).emit .flSfdp)
  let s := if ¬ warm ∧ flash then s.emit .flOctal else s
  if ¬ romSound then s.halt 1
  else if ¬ warm ∧ s.otp.pst 5 = 2 then s.deviceIdDerive.halt 2
  else if ¬ warm ∧ ¬ flash then s.halt 3
  else (if warm then s else s.deviceIdDerive).enterStage 3 4

/-! ### CO4 and CO5: images -/

/-- Enter test hold (R505). -/
def State.enterHold (s : State) : State := s.setCo { s.co with testHold := true }

/-- The copy of the staging region of kind `k` and its check against SDIGEST (R436). -/
def State.copyStaged (s : State) (k : Nat) (torn : Bool) : State :=
  let h := s.fl.hdrKind k
  let src := stageRegion k
  let dst := imageRegion k
  let n := min h.bytes dst.2
  let e := s.fl.erase dst.1 ((n + 4095) / 4096 * 4096)
  let f := { e with dev := copyBytes e.dev src.1 dst.1 n, progs := e.progs + BitVec.ofNat 48 ((n + 255) / 256) }
  if sha384 (f.read dst.1 n) = h.sdigest then ((s.setFl f).commitHeader k { h with state := 3, attempts := 0 } torn).1 else s.setFl f

/-- An image passes the verification of cast-on: R406, and for the row program R558 and R559. -/
def State.imageGood (s : State) (k : Nat) (i : Image) (size : Nat) : Bool := s.verifies k i size && (k ≠ 2 || (rowPayload i.body).isSome)

/-- The header handling of kind `k` (R436); none where it leads to ROM recovery. `torn`: the header commits do not read back, and the step
that waits for one is left to the next start. -/
def State.handleStaged (s : State) (k : Nat) (torn : Bool) : Option State :=
  let h := s.fl.hdrKind k
  let r := stageRegion k
  let s :=
    if h.state = 1 then
      if s.imageGood k (s.fl.image r) r.2 then
        let c := s.commitHeader k { h with state := 2 } torn
        if c.2 then c.1.copyStaged k torn else c.1
      else (s.commitHeader k { h with state := 0 } torn).1
    else if h.state = 2 then s.copyStaged k torn
    else s
  let h := s.fl.hdrKind k
  if h.state ≠ 3 then some s
  else if 3 ≤ h.attempts then none
  else some (s.commitHeader k { h with attempts := h.attempts + 1 } torn).1

/-- What the ROM makes of the image of kind `k`: run as verified, run as unsigned code, or not run (R406, R504). -/
inductive ImageUse where
  | verified | unsignedCode | refused
  deriving DecidableEq, Repr

def State.imageUse (s : State) (k : Nat) : ImageUse :=
  let r := imageRegion k
  let i := s.fl.image r
  if s.imageGood k i r.2 then .verified else if s.unsignedOk ∧ i.wellFormed k r.2 ∧ (k ≠ 2 ∨ (rowPayload i.body).isSome) then .unsignedCode else .refused

/-- A start that finds an image it cannot run: test hold in BLANK and in the two test states, ROM recovery elsewhere (R501, R505). -/
def State.imageRefused (s : State) : State := if s.lc.state.toNat ≤ 2 then s.enterHold else s.enterRecovery 2

/-- The digest and SVN that SKN_MEAS records for an image (R288, R504). -/
def State.measureImage (s : State) (k : Nat) (u : ImageUse) : State :=
  let i := s.fl.image (imageRegion k)
  let d : BitVec 384 := ofLeBytes 384 i.digest
  let v : BitVec 16 := if u = .verified then BitVec.ofNat 16 i.svn else 0
  let s := s.setCo { s.co with unsignedImgs := putBit s.co.unsignedImgs k (u = .unsignedCode) }
  match k with
  | 0 => s.setSkn { s.skn with keeperDig := d, keeperSvn := v }
  | 1 => s.setSkn { s.skn with stewardDig := d, stewardSvn := v }
  | _ => s.setSkn { s.skn with rowDig := d, rowSvn := v }

/-- The header handling of these kinds needs an erase that PWR_WARN refuses (R445, R493). -/
def State.headerBlocked (s : State) (l : List Nat) : Bool := s.bnd.pwrWarn && (s.fl.header.isNone || l.any fun k => (s.fl.hdrKind k).state ≠ 0)

/-- CO4: the Keeper image (R436, R504 to R506). -/
def castOn4 (s : State) (torn : Bool) : State :=
  if s.headerBlocked [0] then s
  else
    let s := s.headerReady
    if s.lc.state = 3 ∧ s.otp.pst 3 = 0 then
      let m := s.cmd.mailbox 64
      { s.setCo { s.co with rootprov := true } with cmd := s.cmd.setMailbox 64 { m with en := true } }
    else if ¬ s.unsignedOk ∧ s.otp.pst 3 = 2 then s.enterRecovery 1
    else match s.handleStaged 0 torn with
      | none => s.enterRecovery 3
      | some s =>
        let u := s.imageUse 0
        if u = .refused then s.imageRefused
        else
          let s := s.measureImage 0 u
          let i := s.fl.image (imageRegion 0)
          (s.setSkn { s.skn with keeperSram := Mem.write 0 s.skn.keeperSram 0 i.body }).enterStage 4 5

/-- CO5: the Steward image and the row program; SKN_MEAS is committed, the engine loaded, Keeper and Steward started (R288, R447, R448,
R558, R706). -/
def castOn5 (s : State) (torn : Bool) : State :=
  if s.headerBlocked [1, 2] then s
  else match (s.handleStaged 1 torn).bind fun s => s.handleStaged 2 torn with
    | none => s.enterRecovery 3
    | some s =>
      let u := s.imageUse 1
      let v := s.imageUse 2
      if u = .refused ∨ v = .refused then s.imageRefused
      else
        let s := (s.measureImage 1 u).measureImage 2 v
        let s := measCommit s .K
        let i := s.fl.image (imageRegion 1)
        let s := s.setSkn { s.skn with stewardSram := Mem.write 0 s.skn.stewardSram 0 i.body }
        let s := match rowPayload (s.fl.image (imageRegion 2)).body with | some p => s.loadRow p | none => s
        let s := s.wearBlank.setFl { s.fl with acl := 0xF81 }
        let s := (s.storesStart s.bnd.warmRunning).judgeCerts
        s.enterStage 5 (if s.bnd.warmRunning then 11 else 6)

/-! ### Test hold and the root-hash step -/

/-- CO_CTL.RUN_SRAM: written by the host, ignored outside test hold (R505). -/
def runSram (s : State) (c : Cls) : State :=
  if c ≠ .H ∨ ¬ s.co.testHold then s
  else s.setCo { s.co with runSram := true, unsignedRun := s.co.unsignedRun || s.unsignedOk }
def execRunSram (cls : Cls) (s : State) : Host.Outcome State Fault Refusal := .next (runSram s cls)

/-- One program of the root-hash step with its outcome; the status of the command. -/
def State.romProgram (s : State) (a : Nat) (data : BitVec 32) (b : Burn) : State :=
  let s := otpProgram { s with otp := { s.otp with wdata := data } } a
  if s.otp.running.isSome then otpOpComplete s b else s

/-- Program words in order until one fails. -/
def State.romProgramAll (s : State) : List (Nat × BitVec 32) → List Burn → State × Option Status × List Burn
  | [], bs => (s, none, bs)
  | (a, d) :: l, bs =>
    let s := s.romProgram a d (bs.headD {})
    if s.otp.status ≠ 0 then (s, some s.otp.status, bs.tail) else s.romProgramAll l bs.tail

/-- The root hashes in the order of R378: nonzero data words, digest word, check, lock word. A check that fails, after programs that all
verified, has no code of its own: its STATUS is a free value (log entry 35). -/
def State.programRoots (s : State) (hashes : List Byte) (bs : List Burn) : State × Status :=
  let word (i : Nat) : BitVec 32 := ofLeBytes 32 (sub hashes (4 * i) 4)
  let data := ((List.range 24).map fun i => (0x018 + i, word i)).filter fun x => x.2 ≠ 0
  let digest : BitVec 32 := ofLeBytes 32 ((sha384 (3 :: (hashes ++ zeros 24))).take 4)
  match s.romProgramAll (data ++ [(0x036, digest)]) bs with
  | (s, some st, _) => (s, st)
  | (s, none, bs) =>
    let s := otpCheck s 0x036
    if ¬ (s.otp.checkClean ∧ s.otp.checkMatch) then (s.drawn 1, s.draw 16)
    else match s.romProgramAll [(0x037, 1)] bs with
      | (s, some st, _) => (s, st)
      | (s, none, _) => (s, 0)

/-- ROOT_REQ: the message in mailbox 64 is answered (R506, R507). -/
def rootReq (s : State) (bs : List Burn) : State :=
  let x := s.cmd.mailbox 64
  if ¬ s.co.rootprov ∨ ¬ x.up.full ∨ x.down.full then s
  else
    let m := leBytes x.up.length.toNat x.up.buf
    let s := s.mbUpd 64 false MbDir.done
    let r : State × Status :=
      if m.length ≠ 112 ∨ sub m 0 2 ≠ [0x10, 1] ∨ sub m 2 14 ≠ zeros 14 then (s, 0x0F40)
      else if sub m 16 48 = zeros 48 then (s, 0x0F41)
      else s.programRoots (sub m 16 96) bs
    let s := if r.2 = 0 then r.1.log 0x0F000046 else r.1
    s.mbUpd 64 true fun d => (d.write 0 ([0x90, 1] ++ leBytes 2 r.2 ++ zeros 12)).send 16
def execRootReq (burns : List Burn) (s : State) : Host.Outcome State Fault Refusal := .next (rootReq s burns)

/-! ### CO6 to CO11 -/

/-- A unit that start-up finds faulty is darned while a spare remains, else retired (R508, R510, R512). -/
def State.unitFails (s : State) (u : UnitId) : State :=
  let r := s.vent.unitRec u
  if r.state = 5 then s
  else match (if r.state = 0 then s.vent.freeSpares u else []) with
    | sp :: _ => s.darn u sp 4
    | [] => ((s.setVent (s.vent.setUnit u { r with state := 5 })).defect u 3 none).log 0x0D0000C6 u

/-- A unit fails its swatch twice, which makes the fault lasting: a report of class 12, the unit darned or retired (R510, R627, R635). -/
def State.swatchFail (s : State) (u : UnitId) : State :=
  let r := s.vent.unitRec u
  if r.state = 5 then s
  else ((s.setVent (s.vent.setUnit u { r with lasting := true, cause := some 12 })).report 12 u (Config.reportCode 12)).unitFails u

/-- The swatch of a stage over the failing units of its kinds; retired units leave the logical numbering (R510). -/
def State.swatch (s : State) (kinds : List Nat) (failed : List UnitId) : State :=
  ((failed.filter fun u => kinds.contains (unitKind u) ∧ unitConfigured u).foldl State.swatchFail s).retire none

/-- A bank in service holds logical number `n`. -/
def Vent.bankServed (v : Vent) (n : Nat) : Bool := ((List.range 34).map (unitOf 5)).any fun u => (v.unitRec u).state = 0 && v.logicalOf u = n

/-- The event that carries the count of the queued events that it replaces, in P1[63:32] (R383, R509, R642; log entry 17). -/
def State.logCount (s : State) (code : BitVec 32) (n : Nat) (time : W64) : State :=
  if n = 0 then s
  else (s.drawn 2).logEntry { time := time, code := code, dom := 127, flags := 3, p0 := s.draw 64, p1 := putField (s.drawAt 64 1) 32 32 (BitVec.ofNat 32 n) }

/-- The log opens: the queued entries in order, then the count events (R509). -/
def State.openLog (s : State) : State :=
  let x := s.snt
  let s := { s with snt := { x with opened := true, queue := [], otpOver := 0, otpOverAt := 0, coOver := 0, coOverAt := 0 } }
  ((x.queue.foldl State.logEntry s).logCount 0x08000084 x.otpOver x.otpOverAt).logCount 0x0F000047 x.coOver x.coOverAt

/-- CO6: the march test with the banks that fail it, in order; Caldera reads zero afterwards. A number that no bank serves any more is a fault that
no spare covers (R499, R508). -/
def castOn6 (s : State) (failed : List UnitId) : State :=
  let bad := failed.filter fun u => unitKind u = 5 ∧ unitConfigured u
  let s := bad.foldl State.unitFails s
  let s := { s with guard := { s.guard with records := [] } }
  if ((List.range 32).any fun n => !s.vent.bankServed n) then s.openLog.halt 4 else (s.openLog).enterStage 6 7

/-- CO7; a slice's GHASH units belong to its datapath (R510, R626). -/
def castOn7 (s : State) (failed : List UnitId) : State := (s.swatch [1, 2, 3, 6, 7, 8, 9, 10] failed).enterStage 7 8

/-- The slices that CO8 waits for. -/
def State.enabledSlices (s : State) : List Nat := (List.range Config.slices).filter s.sliceEnabled

/-- CO8 exits: trained slices are enabled, untrained ones retired (R512). -/
def castOn8 (s : State) : State :=
  let all := s.enabledSlices
  let bad := all.filter fun n => ¬ bit s.bnd.memtrn n
  let good := all.filter fun n => bit s.bnd.memtrn n
  let s := if bad.isEmpty then s else s.log 0x0F000044 (p0 := ofBits 64 bad)
  let s := bad.foldl (fun s n => s.unitFails (unitOf 1 n)) s
  let s := s.setCo { s.co with untrained := s.co.untrained ||| ofBits 64 bad }
  let s := good.foldl (fun s n => s.updSlice n fun x => { x with en := true }) s
  if good.isEmpty then s.halt 5
  else
    let s := s.enterStage 8 9
    (bitsSet s.bnd.sitePresent).foldl (fun s n => siteAttestation (if (s.attSite n).status = 0 then s.setAttSite n { s.attSite n with status := 1 } else s) n) s

/-- CO8_TIMEOUT: 400 ms after the entry. -/
def co8Timeout (s : State) : State :=
  if ¬ s.starting ∨ s.bnd.coStage ≠ 8 then s
  else castOn8 (s.at (s.co.stageAt.toNat + 400000000))
def execCo8Timeout (s : State) : Host.Outcome State Fault Refusal := .next (co8Timeout s)

/-- CO9_TIMEOUT: 40 ms after the entry, exchanges go on (R513). -/
def co9Timeout (s : State) : State :=
  if ¬ s.starting ∨ s.bnd.coStage ≠ 9 then s else (s.at (s.co.stageAt.toNat + 40000000)).enterStage 9 10
def execCo9Timeout (s : State) : Host.Outcome State Fault Refusal := .next (co9Timeout s)

/-- Recorded units at CO11: two entries of darning or retirement retire the unit, darned in this start or not; one that passes gains an entry of
STATE 5 (R645). -/
def State.recordedUnits (s : State) : State :=
  let known := (s.fl.defects.filter fun d => d.state = 1 ∨ d.state = 2 ∨ d.state = 3).map (·.unitId) |>.eraseDups
  known.foldl (fun s u =>
    if (s.vent.unitRec u).state = 5 ∨ unitExternal u then s
    else if 2 ≤ (s.fl.defects.filter fun d => d.unitId = u ∧ (d.state = 1 ∨ d.state = 3)).length then
      ((s.setVent (s.vent.setUnit u { s.vent.unitRec u with state := 5 })).defect u 3 none).log 0x0D0000C6 u
    else if (s.vent.unitRec u).state = 4 ∨ ((s.fl.defects.filter fun d => d.unitId = u).getLast?.map (·.state)) = some 5 then s
    else s.defect u 5 none) s

/-- The work of CO11: swatch (cold starts only), defect ledger, session slots of before a warm reset, Alias certificate (R465, R510, R645, R691). -/
def castOn11 (s : State) (failed : List UnitId) : State :=
  if s.co.swatched then s.issueAlias
  else
    let s := if s.bnd.warmRunning then s else ((s.swatch [4, 6, 7] failed).recordedUnits.retire none).commitDefects
    let s := (s.gy.doomed.foldl State.slotErase s)
    let s := (s.setGy { s.gy with doomed := [] }).issueAlias
    s.setCo { s.co with swatched := true }

/-- Regions of the mask that are neither released nor failed. -/
def Co.waveLeft (c : Co) : List Nat := (bitsSet (c.waveMask &&& ~~~(c.released ||| c.failed))).filter (· < Config.regions)

/-- CAST_ON_STAGE: the stage in progress exits, if its exit condition holds. -/
def castOnStage (s : State) (flash torn : Bool) (failed : List UnitId) : State :=
  if s.co.testHold ∧ s.co.holdAgain ∧ ¬ s.co.unsignedRun then castOn4 { s with bnd := { s.bnd with coStage := 4 }, co := { s.co with testHold := false, holdAgain := false } } torn
  else if ¬ s.starting then s
  else match s.bnd.coStage.toNat with
    | 1 => castOn1 s
    | 2 => castOn2 s
    | 3 => castOn3 s flash
    | 4 => castOn4 s torn
    | 5 => castOn5 s torn
    | 6 => castOn6 s failed
    | 7 => castOn7 s failed
    | 8 => if s.enabledSlices.all fun n => bit s.bnd.memtrn n then castOn8 s else s
    | 9 => if s.att.sites.any fun e => e.2.step.isSome then s else s.enterStage 9 10
    | 10 => if s.co.waveBusy ∨ ¬ s.co.waveLeft.isEmpty then s else s.enterStage 10 11
    | 11 => castOn11 s failed
    | _ => s
def execCastOnStage (flash : FlashStart) (failed : List UnitId) (s : State) : Host.Outcome State Fault Refusal :=
  .next (castOnStage s flash.ok flash.torn failed)

/-- The conditions of READY (R518). -/
def State.readyDue (s : State) : Bool :=
  s.starting && s.bnd.coStage = 11 && s.co.swatched && s.co.keeperDone && s.co.stewardDone && s.co.seamDone && s.guard.locked &&
  (s.att.aliasIssued || !((s.skn.slot 17).valid && (s.skn.slot 18).valid))

/-- Keeper commits IDLE and ATTEMPTS 0 of each started image once the block is ready (R436); it waits while PWR_WARN_N is low. -/
def State.headerIdle (s : State) : State :=
  if ¬ s.fl.idleDue ∨ s.bnd.pwrWarn ∨ ¬ s.bnd.ready then s
  else
    let s := [0, 1, 2].foldl (fun s k =>
      let h := s.fl.hdrKind k
      if h.state = 3 then (s.commitHeader k { h with state := 0, attempts := 0 }).1 else s) s
    s.setFl { s.fl with idleDue := false }

/-- BLOCK_READY (R436, R498, R518, R587, R706). -/
def blockReady (s : State) : State :=
  if ¬ s.readyDue then s
  else
    let s := s.enterStage 11 12
    let s := s.setCo { s.co with failedStarts := 0, times := SMap.set 0 s.co.times 12 s.bnd.timebase }
    let s := (s.setBnd { s.bnd with ready := true, everReady := true, readied := (s.bnd.readied ++ [(0, s.skn.keeperDig), (1, s.skn.stewardDig), (2, s.skn.rowDig)]).eraseDups, warmRunning := false }).hostIrq 2
    let s := if s.unsignedOk then s else { s with host := s.host.closeWins }
    let s := s.log 0x0F000040 (p0 := s.bnd.lastReset.setWidth 64)
    let s := (s.setFl { s.fl with idleDue := true }).headerIdle
    (s.setFl { s.fl with acl := s.fl.acl ||| 0xFF1 }).wearBases
def execBlockReady (s : State) : Host.Outcome State Fault Refusal := .next (blockReady s)

/-! ### Power-up in waves (R514 to R517) -/

/-- The thermal clamp or hold mode pauses the engine. -/
def State.wavePaused (s : State) : Bool := s.co.paused || (s.co.waveBusy && (s.bnd.clamp || s.gov.hold))

/-- CO_WAVE_GO, which Keeper writes. -/
def waveGo (s : State) (c : Cls) : State :=
  if c ≠ .K ∨ s.co.waveBusy ∨ s.co.waveLeft.isEmpty then s
  else s.setCo { s.co with waveBusy := true, wave := 0, waveSet := 0, waveStep := .none, waveClean := [], paused := false }
def execCoWaveGo (cls : Cls) (s : State) : Host.Outcome State Fault Refusal := .next (waveGo s cls)

/-- WAVE_BEGIN: the next wave, at a seam. -/
def waveBegin (s : State) : State :=
  let c := s.co
  if ¬ c.waveBusy ∨ c.waveStep ≠ .none ∨ s.wavePaused then s
  else if c.waveLeft.isEmpty then s.setCo { c with waveBusy := false }
  else s.setCo { c with waveSet := ofBits 64 (c.waveLeft.take 8), waveStep := .ramp, waveT0 := s.bnd.timebase, railOk := false, waveClean := [] }
def execWaveBegin (s : State) : Host.Outcome State Fault Refusal := .next (waveBegin s)

/-- The wave ends; the engine goes on to the next or clears BUSY. -/
def State.waveEnd (s : State) : State :=
  let c := { s.co with waveSet := 0, waveStep := .none, waveClean := [], railOk := false }
  s.setCo (if c.waveLeft.isEmpty then { c with waveBusy := false } else { c with wave := c.wave + 1 })

/-- Region `n` misses limit `lim` (0 rail, 1 settle): back to the clamp, which takes it to step 0 at the next seam (R62), failed, reported, in
the defect ledger (R516). -/
def State.regionFails (s : State) (lim n : Nat) : State :=
  let s := s.setCo { s.co with released := putBit s.co.released n false, failed := putBit s.co.failed n true, waveSet := putBit s.co.waveSet n false }
  let s := s.log 0x0F000045 (unitOf 15 n) (p0 := BitVec.ofNat 64 n) (p1 := Config.eventWord 0x0F000045 1 [lim])
  s.defect (unitOf 15 n) 3 none

/-- WAVE_RAIL_TIMEOUT: RAIL_OK is not set 10 ms after t0. -/
def waveRailTimeout (s : State) : State :=
  if s.co.waveStep ≠ .ramp ∨ s.co.railOk ∨ s.wavePaused then s
  else
    let s := s.at (s.co.waveT0.toNat + 10000000)
    ((bitsSet s.co.waveSet).foldl (State.regionFails · 0 ·) s).waveEnd
def execWaveRailTimeout (s : State) : Host.Outcome State Fault Refusal := .next (waveRailTimeout s)

/-- The seam after RAIL_OK was set lifts the clamp of the wave's regions. -/
def State.waveRelease (s : State) : State :=
  if s.co.waveStep ≠ .ramp ∨ ¬ s.co.railOk then s
  else
    let g := s.gov.restartOf (bitsSet s.co.waveSet)
    (s.setGov g).setCo { s.co with released := s.co.released ||| s.co.waveSet, waveStep := .settleWait, waveAt := s.bnd.timebase }

/-- WAVE_SETTLE_OPEN: 50 us after the release. -/
def waveSettleOpen (s : State) : State :=
  if s.co.waveStep ≠ .settleWait ∨ s.wavePaused then s
  else
    let s := s.at (s.co.waveAt.toNat + 50000)
    s.setCo { s.co with waveStep := .settle, waveAt := s.bnd.timebase, waveClean := [] }
def execWaveSettleOpen (s : State) : Host.Outcome State Fault Refusal := .next (waveSettleOpen s)

/-- A droop detector that the sensor map assigns to region `n` reports droop in the snapshot of this tick (R573, R574): a fresh reading
with events. -/
def State.droops (s : State) (n : Nat) : Bool :=
  s.re.sensors.any fun e =>
    let m : BitVec 32 := field (SMap.get 0 s.re.paramNow (e.1 / 2)) (32 * (e.1 % 2)) 32
    e.1 < 256 && field m 0 3 = 2 && (field m 3 6).toNat = n && e.2.fresh && field e.2.reading 8 8 ≠ 0

/-- Count the snapshots without droop while the window is open, at the tick. -/
def State.waveCount (s : State) : State :=
  let s := if s.co.waveBusy ∧ ¬ s.co.paused ∧ (s.bnd.clamp ∨ s.gov.hold) then s.setCo { s.co with paused := true, pausedAt := s.bnd.timebase } else s
  if s.co.waveStep ≠ .settle ∨ s.wavePaused then s
  else s.setCo { s.co with waveClean := (bitsSet s.co.waveSet).foldl (fun m n => SMap.set 0 m n (if s.droops n then 0 else SMap.get 0 m n + 1)) s.co.waveClean }

/-- Every region of the wave has 16 clean snapshots behind it. -/
def Co.settled (c : Co) : Bool := (bitsSet c.waveSet).all fun n => 16 ≤ SMap.get 0 c.waveClean n

/-- WAVE_SETTLE_DONE. -/
def waveSettleDone (s : State) : State := if s.co.waveStep ≠ .settle ∨ s.wavePaused ∨ ¬ s.co.settled then s else s.waveEnd
def execWaveSettleDone (s : State) : Host.Outcome State Fault Refusal := .next (waveSettleDone s)

/-- WAVE_SETTLE_TIMEOUT: 1 ms after the window opened. -/
def waveSettleTimeout (s : State) : State :=
  if s.co.waveStep ≠ .settle ∨ s.wavePaused ∨ s.co.settled then s
  else
    let s := s.at (s.co.waveAt.toNat + 1000000)
    (((bitsSet s.co.waveSet).filter fun n => SMap.get 0 s.co.waveClean n < 16).foldl (State.regionFails · 1 ·) s).waveEnd
def execWaveSettleTimeout (s : State) : Host.Outcome State Fault Refusal := .next (waveSettleTimeout s)

/-- WAVE_RESUME: the pause ends; the settle step of the current wave starts again, and the ramp limit takes up where it stood (R517). -/
def waveResume (s : State) : State :=
  if ¬ s.co.paused ∨ s.bnd.clamp ∨ s.gov.hold then s
  else
    let c := { s.co with paused := false }
    s.setCo (match c.waveStep with
      | .settle => { c with waveAt := s.bnd.timebase, waveClean := [] }
      | .settleWait => { c with waveAt := s.bnd.timebase }
      | .ramp => { c with waveT0 := c.waveT0 + (s.bnd.timebase - c.pausedAt) }
      | .none => c)
def execWaveResume (s : State) : Host.Outcome State Fault Refusal := .next (waveResume s)

/-! ### Registers -/

def coRegs : List Reg :=
  [ { base := 0x1030, allow := capKSHO                                                                 -- CO_STAT
      get := fun _ _ s =>
        let c := s.co
        pack [(0, b2n c.halted), (1, c.haltCause.toNat), (4, c.recCause.toNat), (7, c.failedStarts.toNat), (10, c.failStage.toNat), (14, c.failCause.toNat),
              (16, b2n c.testHold), (17, b2n c.rootprov), (18, b2n s.wdogPaused)] },
    { base := 0x1038, allow := capKSH                                                                  -- CO_CTL
      get := fun _ _ s => pack [(0, b2n s.co.keeperDone), (1, b2n s.co.stewardDone), (2, b2n s.co.runSram)]
      put := fun _ c v m s =>
        let w (i : Nat) : Bool := bit (v &&& m) i
        let s := if w 0 ∧ c = .K then s.setCo { s.co with keeperDone := true } else s
        let s := if w 1 ∧ c = .S then s.setCo { s.co with stewardDone := true } else s
        if w 2 then runSram s c else s },
    { base := 0x1040, allow := capKSO, get := fun _ _ s => s.co.waveMask                                -- CO_WAVE_MASK
      put := fun _ c v m s => if c = .K then s.setCo { s.co with waveMask := mrg s.co.waveMask 0 v m } else s },
    { base := 0x1048, allow := capKSO                                                                  -- CO_WAVE
      get := fun _ _ s => pack [(1, b2n s.co.waveBusy), (2, s.co.wave.toNat), (5, b2n s.co.railOk), (6, b2n s.wavePaused)]
      put := fun _ c v m s => if bit (v &&& m) 0 then waveGo s c else s },
    { base := 0x1050, allow := capKSHO, get := fun _ _ s => s.co.released },
    { base := 0x1058, allow := capKSHO, get := fun _ _ s => s.co.failed },
    { base := 0x1080, stride := 8, count := 13, allow := capKSHO, get := fun i _ s => SMap.get 0 s.co.times i } ]

end Sys2Proof.Machine
end

