-- ==== Sys2Proof/Machine/Commands.lean ====
section
/-! DEFINITION. The command processor: submission, the checks of R92, dispatch and tags (R18 to R20, R84 to R95). -/
namespace Sys2Proof.Machine

/-- The classes that reach the page of queue `q` (R84). -/
def queueAllows (q : Nat) (c : Cls) : Bool :=
  match qClass q, c with
  | _, .K => decide (q < 72)
  | .part, .P d => d.toNat = q
  | .host, .H => true
  | .steward, .S => true
  | _, _ => false

/-- The bits R88 calls rsvd whatever the family: DOM bit 7, TAG[15:9], FLAGS[7:3] and [31:16], LAYER[31:24], bytes 14-15. -/
def rsvdAlways : Desc :=
  BitVec.ofNat 512 (2 ^ 15 + 0x7F * 2 ^ 25 + 0x1F * 2 ^ 35 + 0xFFFF * 2 ^ 48 + 0xFF * 2 ^ 88 + 0xFFFF * 2 ^ 112)

/-- The further rsvd bits of a defined function: FLAGS[15:8] and the ARG bits its table does not name (R88, R716). -/
def rsvdOf (f : Fn) (d : Desc) : Desc :=
  let named : W128 := if f.opcode = 0x62 ∧ ¬ bit (Desc.arg d) 56 then argBits 47 0 ||| argBits 56 56 else f.arg
  BitVec.ofNat 512 (0xFF * 2 ^ 40) ||| ((~~~named).setWidth 512 <<< 384)

/-- The DOM rule of R91. -/
def domPermitted (s : State) (q : Nat) (d : Desc) : Bool :=
  let dom := (Desc.dom d).toNat
  let fam := (Desc.opcode d).toNat / 16
  dom < 66 && (fam ≠ 5 || dom < 64) &&
  match qClass q with
  | .part => dom = q
  | .host => dom = 65 || (dom < 64 && (s.part dom).state ≠ .free && [4, 5, 7, 8].contains fam)
  | .steward => dom = 64 || dom = 65 || (dom < 64 && [5, 7, 8, 9, 10].contains fam)
  | .keeper => true

/-- The ordered checks of R92; none when all pass. The host's TELEM_READ is marked for source 0 alone (R615): source 1 is denied here, while
sources 2 and 3, which R616 answers with TM_RANGE, reach that answer (log entry 46). -/
def refusal (s : State) (q : Nat) (d : Desc) : Option Status :=
  let fn := fnOf (Desc.opcode d)
  let rsvd := match fn with | some f => rsvdAlways ||| rsvdOf f d | none => rsvdAlways
  if d &&& rsvd ≠ 0 then some St.cmdDescriptor
  else match fn with
    | none => some St.cmdOpcode
    | some f =>
      if ¬ f.permits (qClass q) ∨ (f.opcode = 0x81 ∧ qClass q = .host ∧ Desc.argField d 0 2 = 1) then some St.cmdFamilyDenied
      else if ¬ domPermitted s q d then some St.cmdDomain
      else if s.domState (Desc.dom d) = some .frozen ∧ qClass q ≠ .keeper then some St.cmdFrozen
      else none

/-- First tag and number of tags of an opcode's share in isolated mode (R19). -/
def shareOf (op : BitVec 8) : Nat × Nat :=
  match op.toNat / 16 with
  | 4 | 7 | 9 => (256, 160)
  | 8 | 10 => (416, 96)
  | _ => (0, 256)

/-- The free tags that the descriptor may be granted (R18, R19). -/
def freeTags (s : State) (op : BitVec 8) : List Nat :=
  let r := if s.bnd.isolated then shareOf op else (0, 512)
  (List.range' r.1 r.2).filter fun t => ¬ s.cmd.flights.any fun f => f.tag.toNat = t

/-- Completion entries that a descriptor needs: two for TEST_UNIT, which may complete in two parts (R93, R98). -/
def needOf (op : BitVec 8) : Nat := if op = 0xA0 then 2 else 1

/-- A partition queue dispatches while its partition is RUNNING; in FROZEN its heads are refused (R218, R92). -/
def queueRuns (s : State) (q : Nat) : Bool := 64 ≤ q || (s.part q).state = .running || (s.part q).state = .frozen

/-- Why the head descriptor `d` of queue `q` waits, as SQ_STATUS.CAUSE; 0 when it may be dispatched or refused (R93, R519). -/
def waitCause (s : State) (q : Nat) (d : Desc) : Nat :=
  let u := s.cmd.queue q
  let dom := (Desc.dom d).toNat
  let space (n : Nat) : Bool := s.cmd.reserved q + n ≤ s.cmd.ringFree q
  if ¬ s.bnd.ready then 7
  else if ¬ u.en ∨ ¬ queueRuns s q then 6
  else if (refusal s q d).isSome then (if space 1 then 0 else 4)
  else if (freeTags s (Desc.opcode d)).isEmpty then 1
  else if u.tagLimit.toNat ≤ s.cmd.tagsHeld q then 2
  else if dom < 64 ∧ (s.part dom).state ≠ .free ∧ qClass q ≠ .keeper ∧
      (s.part dom).tagQuota.toNat ≤ (s.cmd.flights.filter fun f => Desc.dom f.desc = Desc.dom d).length then 3
  else if ¬ space (needOf (Desc.opcode d)) then 4
  else if Desc.fence d ∧ 0 < s.cmd.tagsHeld q then 5
  else 0

/-- Take the head off the queue's waiting order. -/
def Cmd.popHead (c : Cmd) (time : W64) (q : Nat) : Cmd :=
  let u := c.queue q
  c.setQueue q { u with order := u.order.tail, headSince := time }

/-- Complete the head of a queue without a tag (R92). -/
def State.refuseHead (s : State) (q slot : Nat) (d : Desc) (st : Status) : State :=
  let s := s.countComplete q d s.bnd.timebase 0 st true
  { s with
    freeCount := s.freeCount + 1
    cmd := (s.cmd.popHead s.bnd.timebase q).writeRecord s.bnd.timebase q slot d { status := st, notag := true, result := s.draw 64 } }

/-- Post a work marker to Fumarole (R89). -/
def State.postMarker (s : State) (d : Desc) : State :=
  { s with fum := { s.fum with descMarker := if (Desc.dom d).toNat < 64 then SMap.put s.fum.descMarker (Desc.dom d).toNat (markerOf d) else s.fum.descMarker } }

/-- Grant tag `t` to the head of queue `q` and write it into the slot (R93, R95). -/
def State.grant (s : State) (q slot : Nat) (d : Desc) (t : Tag) : State :=
  let d' := putField d 16 9 t
  { s with
    freeCount := s.freeCount + 1
    cmd := { s.cmd.popHead s.bnd.timebase q with
      slots := SMap.set 0 s.cmd.slots (16 * q + slot) d'
      flights := s.cmd.flights ++ [{ tag := t, queue := q, slot := slot, desc := d', need := needOf (Desc.opcode d), disp := s.bnd.timebase }] } }

/-- Visit queue `q`: refuse its head or dispatch it, unless it waits (R92 to R95). Which free tag is granted is left open (log entry 10). -/
def visit (s : State) (q : Nat) : State :=
  match (s.cmd.queue q).order with
  | [] => s
  | slot :: _ =>
    let d := s.cmd.slot q slot
    if waitCause s q d ≠ 0 then s
    else match refusal s q d with
      | some st => s.refuseHead q slot d st
      | none =>
        let free := freeTags s (Desc.opcode d)
        let t : Tag := BitVec.ofNat 9 (free.getD ((s.draw 16).toNat % free.length) 0)
        let s := if Desc.mark d then s.postMarker d else s
        s.grant q slot d t

/-- The queues whose head could be dispatched or refused now. -/
def State.dispatchable (s : State) : List Nat :=
  (s.cmd.queues.map (·.1)).filter fun q => decide (q < 72) && match (s.cmd.queue q).order with
    | [] => false
    | slot :: _ => waitCause s q (s.cmd.slot q slot) = 0

/-- Queues strictly between queue `a` and queue `b` in the order of the dispatcher's round. -/
def roundFrom (a b : Nat) : Nat := (b + 71 - a % 72) % 72

/-- DESCRIPTOR_DISPATCH: the round reaches queue `q`. A queue that it passes on the way from its last visit, and that could dispatch at that
visit, is visited first: the round skips only queues that cannot dispatch (R94; log entry 44). -/
def dispatch (s : State) (q : Nat) : State :=
  let last := s.cmd.visited.toNat
  let passed := ((List.range (roundFrom last q)).map fun i => (last + 1 + i) % 72).filter s.cmd.couldRun.contains
  let s := visit (passed.foldl visit s) q
  { s with cmd := { s.cmd with visited := BitVec.ofNat 7 q, couldRun := s.dispatchable } }

/-- Before it issues a PART_CLAIM, Steward copies PART_QUOTA.POWER into the partition's budget (R577). -/
def State.claimBudget (s : State) (q slot : Nat) : State :=
  let x := s.cmd.slot q slot
  let d := (Desc.dom x).toNat
  if Desc.opcode x = 0x50 ∧ d < 64 then s.budgetWrite d (s.part d).power else s

/-- SQ_SUBMIT: submit the named slots that the queue does not hold, lowest bit first (R86, R87). -/
def submit (s : State) (c : Cls) (q : Nat) (bits : BitVec 16) : State :=
  if ¬ queueAllows q c then s
  else
    let u := s.cmd.queue q
    let add := (bitsSet bits).filter fun i => ¬ s.cmd.held q i
    let s := if c = .S then add.foldl (fun s i => s.claimBudget q i) s else s
    { s with cmd := s.cmd.setQueue q { u with order := u.order ++ add, headSince := if u.order.isEmpty then s.bnd.timebase else u.headSince } }

def execSqSubmit (cls : Cls) (queue : BitVec 7) (bits : BitVec 16) (s : State) : Host.Outcome State Fault Refusal :=
  .next (s.gated cls (0x0400008 + 4096 * queue.toNat) fun s => submit s cls queue.toNat bits)

def execDescriptorDispatch (queue : BitVec 7) (s : State) : Host.Outcome State Fault Refusal :=
  .next (dispatch s queue.toNat)

/-! ### Registers of the queue pages and the global command page -/

def u5 (x : BitVec 5) : BitVec 5 := if 16 < x.toNat then 16 else x

/-- The page offset of queue `q` is 0x040_0000 + q * 0x1000, for all 72 queues (R84). -/
def cmdRegs : List Reg :=
  [ { base := 0x0400000, count := 72, allow := fun q c _ => queueAllows q c            -- SQ_CTL
      get := fun q _ s => let u := s.cmd.queue q; pack [(0, b2n u.en), (1, b2n u.irqEn), (16, u.tagLimit.toNat)]
      put := fun q c v m s =>
        let u := s.cmd.queue q
        let u := { u with irqEn := mrgB u.irqEn 1 v m }
        { s with cmd := s.cmd.setQueue q (if c = .K then { u with en := mrgB u.en 0 v m, tagLimit := u5 (mrg u.tagLimit 16 v m) } else u) } },
    { base := 0x0400008, count := 72, allow := fun q c _ => queueAllows q c            -- SQ_SUBMIT
      get := fun _ _ _ => 0
      put := fun q c v m s => submit s c q (field (v &&& m) 0 16) },
    { base := 0x0400010, count := 72, allow := fun q c _ => queueAllows q c            -- SQ_SLOTS
      get := fun q _ s => pack [(0, (ofBits 16 ((List.range 16).filter (s.cmd.held q))).toNat), (16, (ofBits 16 (s.cmd.queue q).order).toNat)] },
    { base := 0x0400018, count := 72, allow := fun q c _ => queueAllows q c            -- SQ_STATUS
      get := fun q _ s =>
        let u := s.cmd.queue q
        let cause := match u.order with | [] => 0 | i :: _ => waitCause s q (s.cmd.slot q i)
        pack [(0, s.cmd.tagsHeld q), (5, b2n (cause ≠ 0)), (6, cause), (16, u.refused.toNat)]
      onRead := fun q _ m s => if bit m 16 then { s with cmd := s.cmd.setQueue q { s.cmd.queue q with refused := 0 } } else s },
    { base := 0x0400020, count := 72, allow := fun q c _ => queueAllows q c            -- CQ_PTR
      get := fun q _ s => let u := s.cmd.queue q; pack [(0, u.head.toNat), (8, u.tail.toNat)]
      put := fun q _ v m s => let u := s.cmd.queue q; { s with cmd := s.cmd.setQueue q { u with head := mrg u.head 0 v m } } },
    { base := 0x0400028, count := 72, allow := fun q c _ => queueAllows q c            -- CQ_IRQ
      get := fun q _ s => pack [(0, b2n (s.cmd.queue q).irqPending)]
      put := fun q _ v m s => let u := s.cmd.queue q; { s with cmd := s.cmd.setQueue q { u with irqPending := w1cB u.irqPending 0 v m } } },
    { base := 0x0448000, allow := capKSHO                                              -- CMD_POOL
      get := fun _ _ s =>
        let f (a n : Nat) : Nat := n - (s.cmd.flights.filter fun f => a ≤ f.tag.toNat ∧ f.tag.toNat < a + n).length
        pack [(0, f 0 512), (10, if s.bnd.isolated then f 0 256 else 0), (19, if s.bnd.isolated then f 256 160 else 0), (28, if s.bnd.isolated then f 416 96 else 0)] },
    { base := 0x0448008, allow := capKSO                                               -- CMD_LATE
      get := fun _ _ s => pack [(0, s.cmd.lateDiscarded.toNat), (32, s.cmd.lateReissued.toNat)]
      onRead := fun _ _ m s => { s with cmd := { s.cmd with lateDiscarded := if bit m 0 then 0 else s.cmd.lateDiscarded, lateReissued := if bit m 32 then 0 else s.cmd.lateReissued } } } ]

/-- Write bytes into a word of bytes. -/
def pokeBytes {w : Nat} (v : BitVec w) : Nat → List Byte → BitVec w
  | _, [] => v
  | o, b :: bs => pokeBytes (putField v (8 * o) 8 b) (o + 1) bs

/-- `n` bytes of a word from byte `o`. -/
def peekBytes {w : Nat} (v : BitVec w) (o n : Nat) : List Byte := (List.range n).map fun i => field v (8 * (o + i)) 8

def cmdWindows : List Window :=
  [ { base := 0x0400400, span := 0x400, count := 72, allow := fun q c _ => queueAllows q c      -- descriptor slots (R85, R87)
      get := fun q o n _ s => peekBytes (s.cmd.slot q (o / 64)) (o % 64) n
      put := fun q o _ bs s =>
        if s.cmd.held q (o / 64) then s
        else { s with cmd := { s.cmd with slots := SMap.set 0 s.cmd.slots (16 * q + o / 64) (pokeBytes (s.cmd.slot q (o / 64)) (o % 64) bs) } } },
    { base := 0x0400800, span := 0x400, count := 72, allow := fun q c _ => queueAllows q c      -- completion ring (R85)
      get := fun q o n _ s => (List.range n).map fun i => field (SMap.get 0 s.cmd.ring (32 * q + (o + i) / 32)) (8 * ((o + i) % 32)) 8 } ]

end Sys2Proof.Machine
end

