-- ==== Sys2Proof/Machine/HostWindow.lean ====
section
/-! DEFINITION. The host window unit: IDE key programming (R674, R675), containment (R670 to R672), streams as the host sees them (R657 to
R666), translation windows (R667 to R669), the discovery table (R655) and the interrupt outputs (R83, R673). -/
namespace Sys2Proof.Machine

def State.setHost (s : State) (h : HostUnit) : State := { s with host := h }

/-! ### IDE_KM (R674, R675) -/

/-- The stream ID of slot `j`. -/
def HostUnit.streamId (h : HostUnit) (j : Nat) : BitVec 8 := field h.sid (8 * j) 8
/-- The lowest slot that holds a stream ID. -/
def HostUnit.ideSlot (h : HostUnit) (id : BitVec 8) : Option Nat := (List.range 16).find? fun j => h.streamId j = id

/-- An IDE_KM message that names a stream: outside a secured session, or with a stream ID that no slot holds, it changes nothing. -/
def State.ideKm (s : State) (secured : Bool) (id : BitVec 8) (k : Nat → State) : State :=
  match (if secured then s.host.ideSlot id else none) with
  | some j => k j
  | none => s.emit (.ideKm .unsupported id)

/-- Bit of a slot's direction in HW_IDE_ACT. -/
def ideBit (j : Nat) (tx : Bool) : Nat := 2 * j + b2n tx

/-- A write of HW_IDE_GO with GO: the key set becomes active. -/
def HostUnit.ideGo (h : HostUnit) (j : Nat) (tx kset : Bool) : HostUnit :=
  { h with slot := BitVec.ofNat 4 j, dir := tx, kset := kset, active := putBit h.active (ideBit j tx) true, ksetUsed := putBit h.ksetUsed (ideBit j tx) kset }
/-- A write of HW_IDE_GO with STOP: the direction becomes inactive where the key set is the one in use. -/
def HostUnit.ideStop (h : HostUnit) (j : Nat) (tx kset : Bool) : HostUnit :=
  { h with slot := BitVec.ofNat 4 j, dir := tx, kset := kset, active := if bit h.ksetUsed (ideBit j tx) = kset then putBit h.active (ideBit j tx) false else h.active }

/-- KEY_PROG: the five steps of R674. Which Skein slot Keeper uses is open (log entry 10). -/
def keyProg (s : State) (secured : Bool) (id : BitVec 8) (kset : Bool) (sub : Fin 3) (tx : Bool) (key : Key256) (iv : W64) : State :=
  s.ideKm secured id fun j =>
    let free := (List.range' 24 232).filter fun i => ¬ (s.skn.slot i).valid ∧ ¬ (s.skn.slot i).erasing ∧ ¬ s.skn.locked i
    match free[(s.draw 16).toNat % max 1 free.length]? with
    | none => s.emit (.ideKm .noSlot id)
    | some t =>
      let s := s.drawn 1
      let attr : BitVec 32 := BitVec.ofNat 32 (packN [(0, if tx then 0 else 1), (2 + engIde, 1), (11, 64)])
      let s := s.setSkn (s.skn.setSlot t ((s.skn.slot t).fill attr 2 (leBytes 32 key)))
      let s := s.setHost { s.host with ideIv := iv }
      let s := s.emit (.ideKey j kset (b2n tx) sub.val (s.skn.slot t).bytes s.host.ideIv)
      (s.slotErase t).emit (.ideKm .kpAck id)

def execKeyProg (secured : Bool) (stream : BitVec 8) (kset : Bool) (sub : Fin 3) (tx : Bool) (key : Key256) (iv : W64) (s : State) :
    Host.Outcome State Fault Refusal := .next (keyProg s secured stream kset sub tx key iv)
def execKSetGo (secured : Bool) (stream : BitVec 8) (kset tx : Bool) (s : State) : Host.Outcome State Fault Refusal :=
  .next (s.ideKm secured stream fun j => (s.setHost (s.host.ideGo j tx kset)).emit (.ideKm .goStopAck stream))
def execKSetStop (secured : Bool) (stream : BitVec 8) (kset tx : Bool) (s : State) : Host.Outcome State Fault Refusal :=
  .next (s.ideKm secured stream fun j => (s.setHost (s.host.ideStop j tx kset)).emit (.ideKm .goStopAck stream))
/-- QUERY names a port, not a stream. -/
def execQuery (secured : Bool) (s : State) : Host.Outcome State Fault Refusal :=
  .next (s.emit (.ideKm (if secured then .queryResp else .unsupported) 0))

/-! ### Streams -/

/-- Stream `n` ends its consumer with `st` and returns to FREE (R665, R666). -/
def State.killStream (s : State) (n : Nat) (st : Status) : State := (s.wgStreamEnds n st).freeStream n st

/-- Stream `n` enters ERROR with code `st`; a bound one ends its consumer and returns to FREE when its command completes. -/
def State.streamError (s : State) (n : Nat) (st : Status) : State :=
  let s := ((s.setStream n { s.stream n with state := .error, status := st }).hostIrq 1).log 0x0E000082
  s.wgStreamEnds n st

/-- A refused register write of the unit (HW_STAT.STATUS). -/
def State.hwRefuse (s : State) (st : Status) : State := s.setHost { s.host with status := st }

/-- Count a stream write that no open stream takes. -/
def State.streamDropped (s : State) : State := s.setHost { s.host with dropped := satAdd s.host.dropped 1 }

/-- OPEN (R658); an unbound stream in ERROR returns to FREE first (R665). A refused OPEN leaves its code in the stream's STATUS. -/
def streamOpen (s : State) (n : Nat) : State :=
  let x := s.stream n
  let x := if x.state = .error ∧ x.tag = none then x.freed x.status else x
  if x.state = .free ∧ x.len ≠ 0 ∧ x.len.toNat % 4 = 0 then s.setStream n { state := .opened, len := x.len, status := x.status }
  else s.setStream n { x with status := 0x0E01 }

/-- CLOSE (R664). -/
def streamClose (s : State) (n : Nat) : State :=
  let x := s.stream n
  if x.state = .opened ∨ x.state = .bound then (s.setStream n { x with state := .closed, status := x.closeResult }).wgStreamClosed n else s

/-- ABORT (R665). -/
def streamAbort (s : State) (n : Nat) : State := if (s.stream n).state = .free then s else s.killStream n 0x0E05

/-- Only classes K and H write the stream registers. -/
def State.hwStr (s : State) (c : Cls) (n : Nat) (k : State → Nat → State) : State :=
  if c = .K ∨ c = .H then s.gated c (0x0E01000 + 0x40 * n) fun s => k s n else s

def execHwStrOpen (cls : Cls) (stream : BitVec 4) (s : State) : Host.Outcome State Fault Refusal := .next (s.hwStr cls stream.toNat streamOpen)
def execHwStrClose (cls : Cls) (stream : BitVec 4) (s : State) : Host.Outcome State Fault Refusal := .next (s.hwStr cls stream.toNat streamClose)
def execHwStrAbort (cls : Cls) (stream : BitVec 4) (s : State) : Host.Outcome State Fault Refusal := .next (s.hwStr cls stream.toNat streamAbort)

/-- STREAM_IDLE_TIMEOUT: 1,048,576 rows after the binding or the last data. -/
def execStreamIdleTimeout (stream : BitVec 4) (s : State) : Host.Outcome State Fault Refusal :=
  let x := s.stream stream.toNat
  .next (if x.state = .bound then (s.at (x.idle.toNat + 1048576000)).killStream stream.toNat 0x0E07 else s)

/-- F moves past the dwords received behind it. -/
def advanceF : Nat → Nat → List Nat → Nat × List Nat
  | 0, f, got => (f, got)
  | k + 1, f, got => if got.contains f then advanceF k (f + 4) (got.filter (· ≠ f)) else (f, got)

/-- Dwords at position `p` upward: those below the length are stored, one at or beyond it sets LONG. -/
def Stream.store (x : Stream) (p : Nat) (dws : List (BitVec 32)) (now : W64) : Stream :=
  let at_ := dws.zipIdx.map fun e => (p + 4 * e.2, e.1)
  let keep := at_.filter fun e => e.1 < x.len.toNat
  let ring := keep.foldl (fun m e => Mem.write 0 m e.1 (leBytes 4 e.2)) x.ring
  let r := advanceF (x.got.length + keep.length) x.f (x.got ++ keep.map (·.1))
  { x with ring := ring, f := r.1, got := r.2, long := x.long || keep.length < at_.length, idle := now }

/-- The position of an aperture write: the one within 512 KiB of F that aliases to its offset (R660). -/
def Stream.place (x : Stream) (off : Nat) : Int :=
  let base : Int := (x.f : Int) - 524288
  base + ((off : Int) - base) % 1048576

/-- Every dword lies in [F, L) and has not been received. -/
def Stream.fits (x : Stream) (p : Int) (n : Nat) : Bool :=
  decide ((x.f : Int) ≤ p) && decide (p + 4 * (n : Int) ≤ (x.limit : Int)) && !(x.got.any fun g => decide (p ≤ (g : Int)) && decide ((g : Int) < p + 4 * (n : Int)))

/-- A data write to stream `n` at byte offset `off` of a page of `size` bytes, in the order of R661: the stream's state first. -/
def streamWrite (s : State) (n : Nat) (mode : BitVec 2) (off size : Nat) (dws : List (BitVec 32)) (full relaxed : Bool) : State :=
  let x := s.stream n
  if x.state = .free ∨ x.state = .closed ∨ x.state = .error then s.streamDropped
  else if ¬ full ∨ size < off + 4 * dws.length then s.streamError n 0x0E04
  else if x.mode ≠ 0 ∧ x.mode ≠ mode then s.streamError n 0x0E03
  else if mode = 2 ∧ relaxed then s.streamError n 0x0E03
  else
    let x := { x with mode := mode }
    let p := if mode = 1 then x.place off else (x.f : Int)
    if ¬ x.fits p dws.length then (s.setStream n x).streamError n 0x0E02
    else s.setStream n (x.store p.toNat dws s.bnd.timebase)

/-! ### Containment (R670 to R672) -/

/-- A host-path error; the first one freezes the host path. -/
def containmentEnter (s : State) (cause : BitVec 3) : State :=
  let h := { s.host with errors := satAdd s.host.errors 1 }
  if h.frozen then s.setHost { h with overflow := true, causeRead := false }
  else
    let s := s.setHost { h with cause := cause, frozen := true }
    let s := (List.range 16).foldl (fun s n => if (s.stream n).state = .free then s else s.killStream n 0x0E06) s
    (s.hostIrq 0).log 0x0E000080 (p0 := cause.setWidth 64)

def execContainmentEnter (cause : Fin 4) (s : State) : Host.Outcome State Fault Refusal := .next (containmentEnter s (BitVec.ofNat 3 (cause.val + 1)))

/-- The value of HW_CONT. -/
def HostUnit.cont (h : HostUnit) : W64 := pack [(0, h.cause.toNat), (3, b2n h.frozen), (4, b2n h.causeRead), (5, b2n h.overflow), (16, h.errors.toNat)]

/-- What a read of HW_CONT does. -/
def contRead (s : State) (c : Cls) : State := if s.host.frozen ∧ (c = .H ∨ c = .K) then s.setHost { s.host with causeRead := true } else s

/-- HW_CONT_READ: P and C do not reach it (R8). -/
def execHwContRead (cls : Cls) (s : State) : Host.Outcome State Fault Refusal :=
  .next (if capKSHO 0 cls s ∧ s.reaches cls 0x0E00000 then (contRead s cls).emit (.regData (s.host.cont.setWidth 512)) else s.emit (.regData 0))

/-- A write of RELEASE by class K or H. -/
def contRelease (s : State) (c : Cls) (v : BitVec 3) : State :=
  if c ≠ .K ∧ c ≠ .H then s
  else if s.host.frozen ∧ s.host.causeRead ∧ v = s.host.cause then
    (s.setHost { s.host with frozen := false, cause := 0, causeRead := false, overflow := false }).log 0x0E000081
  else s.hwRefuse 0x0E09

def execHwContRelease (cls : Cls) (value : BitVec 3) (s : State) : Host.Outcome State Fault Refusal :=
  .next (s.gated cls 0x0E00000 fun s => contRelease s cls value)

/-! ### Translation windows (R667 to R669) -/

def HostUnit.win (h : HostUnit) (w : Nat) : HwWin := SMap.get {} h.wins w

/-- R667. -/
def State.winAllowed (s : State) (x : HwWin) : Bool :=
  !x.en || (s.unsignedOk && x.space ≠ 3) || (s.bnd.recovery && x.space = 0 && !x.wr)

/-- Store a window as class K writes it. -/
def State.putWin (s : State) (c : Cls) (w : Nat) (x : HwWin) : State :=
  if c ≠ .K then s else if s.winAllowed x then s.setHost { s.host with wins := SMap.set {} s.host.wins w x } else s.hwRefuse 0x0E08

/-- The lower word of a window after a write. -/
def HwWin.write (x : HwWin) (v m : W64) : HwWin :=
  { x with hostBase := mrg x.hostBase 0 v m, size := mrg x.size 8 v m, space := mrg x.space 17 v m, rd := mrgB x.rd 19 v m, wr := mrgB x.wr 20 v m, en := mrgB x.en 21 v m }

/-- HW_WIN_WRITE. -/
def execHwWinWrite (cls : Cls) (win : BitVec 4) (hi : Bool) (data : W64) (s : State) : Host.Outcome State Fault Refusal :=
  let x := s.host.win win.toNat
  let m : W64 := BitVec.allOnes 64
  .next (s.putWin cls win.toNat (if hi then { x with target := mrg x.target 0 data m } else x.write data m))

/-- BAR2 is in translation mode. -/
def HostUnit.translating (h : HostUnit) : Bool := h.wins.any fun e => e.2.en

/-- The lowest-numbered enabled window that holds a BAR2 offset. -/
def HostUnit.winAt (h : HostUnit) (off : Nat) : Option HwWin :=
  ((List.range 16).find? fun w =>
    let x := h.win w
    x.en && x.hostBase.toNat * 65536 ≤ off && off < (x.hostBase.toNat + x.size.toNat) * 65536).map h.win

/-- Bytes of a core's SRAM; beyond its end they are open. -/
def State.sramSpan (s : State) (service : Bool) (a n : Nat) : List Byte :=
  (List.range n).map fun i =>
    if a + i < (if service then 1048576 else 524288) then SMap.get 0 (if service then s.skn.stewardSram else s.skn.keeperSram) (a + i) else field (s.drawAt 8 i) 0 8

/-- Write bytes into a core's SRAM; those beyond its end are dropped. -/
def State.sramPoke (s : State) (service : Bool) (a : Nat) (bs : List (Option Byte)) : State :=
  let m := bs.zipIdx.foldl (fun m e => match e.1 with
    | some b => if a + e.2 < (if service then 1048576 else 524288) then SMap.set 0 m (a + e.2) b else m
    | none => m) (if service then s.skn.stewardSram else s.skn.keeperSram)
  s.setSkn (if service then { s.skn with stewardSram := m } else { s.skn with keeperSram := m })

/-- The part of a byte list at address `a` that lies in the line `l`: its mask and its data. -/
def linePart (a : Nat) (bs : List (Option Byte)) (l : Addr) : BitVec 64 × Line :=
  bs.zipIdx.foldl (fun r e => match e.1 with
    | some b => if (a + e.2) / 64 = l.toNat / 64 then (putBit r.1 ((a + e.2) % 64) true, putField r.2 (8 * ((a + e.2) % 64)) 8 b) else r
    | none => r) (0, 0)

/-- A plain access of a window with SPACE 2, one request per line (R668). -/
def State.plainAccess (s : State) (a : Nat) (write : Bool) (bs : List (Option Byte)) : State :=
  (linesOf a bs.length).foldl (fun s l =>
    let p := linePart a (if write then bs else bs.map fun _ => some 0) l
    if ¬ write then s.request .host 0 l 65 0 p.1
    else if p.1 = 0 then s
    else s.request .host (if p.1 = BitVec.allOnes 64 then 1 else 2) l 65 p.2 p.1) s

/-- An access in translation mode; the window of its first byte decides it (R651, R668). -/
def translated (s : State) (off : Nat) (write : Bool) (bs : List (Option Byte)) : State :=
  let n := bs.length
  let none_ (s : State) : State := if write then s else s.emit (.hostRead (List.replicate n 0))
  let miss (s : State) : State := s.setHost { s.host with miss := satAdd s.host.miss 1 }
  match (if off < 16777216 then s.host.winAt off else none) with
  | none => none_ (miss s)
  | some x =>
    let room := (x.hostBase.toNat + x.size.toNat) * 65536 - off
    let a := x.target.toNat + (off - x.hostBase.toNat * 65536)
    if ¬ (if write then x.wr else x.rd) then none_ (miss s)
    else
      let s := if room < n then miss s else s
      let bs := bs.take room
      if x.space = 2 then s.plainAccess a write bs
      else if write then s.sramPoke (x.space = 1) a bs
      else (s.drawn bs.length).emit (.hostRead (s.sramSpan (x.space = 1) a bs.length ++ List.replicate (n - room) 0))

/-- The dwords of a byte list, and whether every byte enable is set. -/
def dwsOf : List (Option Byte) → List (BitVec 32)
  | a :: b :: c :: d :: l => ofLeBytes 32 [a.getD 0, b.getD 0, c.getD 0, d.getD 0] :: dwsOf l
  | _ => []

/-- A BAR2 access: dropped or all ones in containment (R671), through a window in translation mode, a stream write else. Reads of apertures and
burst ports are open. -/
def bar2 (s : State) (off : Nat) (write : Bool) (bs : List (Option Byte)) (relaxed : Bool) : State :=
  let n := bs.length
  if s.host.frozen then (if write then s else s.emit (.hostRead (List.replicate n 0xFF)))
  else if s.host.translating then translated s off write bs
  else if 16842752 ≤ off then (if write then s else s.emit (.hostRead (List.replicate n 0)))
  else if ¬ write then (s.drawn n).emit (.hostRead ((List.range n).map fun i => s.drawAt 8 i))
  else
    let full := bs.all Option.isSome && n % 4 = 0
    if off < 16777216 then streamWrite s (off / 1048576) 1 (off % 1048576) 1048576 (dwsOf bs) full relaxed
    else streamWrite s ((off - 16777216) / 4096) 2 (off % 4096) 4096 (dwsOf bs) full relaxed

/-- The bytes of dwords; with a byte enable clear, the first byte stands for it. -/
def bytesOf (dws : List (BitVec 32)) (full : Bool) : List (Option Byte) :=
  let bs := dws.flatMap fun d => (leBytes 4 d).map some
  if full then bs else none :: bs.drop 1

def execStreamApertureWrite (stream : BitVec 4) (off : BitVec 18) (dws : List (BitVec 32)) (full : Bool) (s : State) : Host.Outcome State Fault Refusal :=
  .next (bar2 s (1048576 * stream.toNat + 4 * off.toNat) true (bytesOf dws full) false)
def execStreamBurstWrite (stream : BitVec 4) (off : BitVec 10) (dws : List (BitVec 32)) (full relaxed : Bool) (s : State) : Host.Outcome State Fault Refusal :=
  .next (bar2 s (16777216 + 4096 * stream.toNat + 4 * off.toNat) true (bytesOf dws full) relaxed)
def execTranslationAccess (off : BitVec 25) (write : Bool) (bytes : List (Option Byte)) (s : State) : Host.Outcome State Fault Refusal :=
  .next (bar2 s off.toNat write bytes false)

/-- The answer to a plain access of a window: a read is completed with the bytes wanted, zero where the access was refused (R42, R654). -/
def State.hostAnswer (s : State) (r : OwnReq) : State :=
  let data : Line := match r.answer with | some (.ok, d) => d | _ => 0
  let s := { s with own := s.own.erase r }
  if r.op = 0 then s.emit (.hostRead ((bitsSet r.mask).map fun i => field data (8 * i) 8)) else s

/-! ### Interrupt outputs (R81, R83, R107, R673) -/

/-- IRQ_HUB[7:0]. -/
def State.irqHub (s : State) : BitVec 8 :=
  ofBits 8 (((List.range 6).zip [s.bnd.clamp, s.gov.hold, s.bnd.recovery || s.co.halted, !s.vent.storms.isEmpty, s.host.frozen,
    (List.range Config.slices).any fun n => (s.slice n).suspended]).filterMap fun e => if e.2 then some e.1 else none)

/-- A direction rings its receiver: a doorbell that its mask lets through (R109). -/
def MbDir.rings (d : MbDir) : Bool := d.db &&& d.dbMask ≠ 0
/-- A direction calls its sender: TIMEOUT or EMPTY under its enable. -/
def MbDir.calls (d : MbDir) : Bool := (d.timeout && d.timeoutEn) || (d.empty && d.emptyEn)
/-- A down direction rings its client. -/
def Mailbox.downIrq (x : Mailbox) : Bool := x.down.rings

/-- The mailbox causes of Keeper's interrupt: it receives the up and sends the down directions whose firmware side it is (R107, R109). -/
def State.irqKeeper (s : State) : Bool :=
  (List.range 80).any fun m => let x := s.cmd.mailbox m; mbFirmware m .K && (x.up.rings || x.down.calls)

/-- The mailbox causes of Steward's interrupt: likewise, and of mailboxes 76 and 77 it is the client (R107, R109). -/
def State.irqSteward (s : State) : Bool :=
  (List.range 80).any fun m =>
    let x := s.cmd.mailbox m
    (mbFirmware m .S && (x.up.rings || x.down.calls)) || ((m = 76 || m = 77) && (x.down.rings || x.up.calls))

/-- IRQ_HOST[31:0]. The table of R673 gives bits 7 to 0 the down doorbells alone, so a host's enabled TIMEOUT or EMPTY reaches no output
(log entry 46). -/
def State.irqHost (s : State) : BitVec 32 :=
  ofBits 32 ((List.range 8).filter (fun i => (s.cmd.mailbox (64 + i)).downIrq) ++
    ((List.range 4).filter fun i => (s.cmd.queue (64 + i)).irqPending ∧ (s.cmd.queue (64 + i)).irqEn).map (8 + ·) ++
    ((List.range 3).filter fun i => bit s.host.irqPending i ∧ bit s.host.irqMask i).map (12 + ·))

/-- IRQ_SITE[n]. As for the host, a chiplet's enabled TIMEOUT or EMPTY reaches no output (log entry 46). -/
def State.irqSite (s : State) (n : Nat) : Bool :=
  (List.range 76).any fun m =>
    let x := s.cmd.mailbox m
    (m < 64 || 72 ≤ m) && bit x.siteMask n && (x.downIrq || (decide (m < 64) && (s.cmd.queue m).irqPending && (s.cmd.queue m).irqEn))

/-! ### Discovery table (R655) -/

/-- An entry: UNIT, COUNT, BASE, STRIDE, CLASSES as K, S, H, P, O, C from the lowest bit (log entry 36). -/
def discoveryUnits : List (Nat × Nat × Nat × BitVec 24 × Nat) :=
  let one (u base cls : Nat) : Nat × Nat × Nat × BitVec 24 × Nat := (u, 1, base, Config.soleStride u, cls)
  [ one 0x01 0x0000000 0x3F, (0x02, 80, 0x0100000, 0x1000, 0x2F), one 0x03 0x0200000 0x2F, (0x04, 72, 0x0400000, 0x1000, 0x0F), one 0x05 0x0448000 0x17,
    (0x06, 64, 0x0480000, 0x1000, 0x17), (0x07, 64, 0x04C0000, 0x1000, 0x1F), one 0x08 0x0500000 0x17, one 0x09 0x0580000 0x17, (0x0A, 32, 0x0581000, 0x1000, 0x0F),
    one 0x0B 0x0600000 0x17, one 0x0C 0x0700000 0x17, one 0x0D 0x0900000 0x17, one 0x0E 0x0AFF000 0x17, (0x0F, Config.slices, 0x0A00000, 0x1000, 0x13),
    one 0x10 0x0BFF000 0x17, (0x11, Config.lanes, 0x0B00000, 0x1000, 0x17), (0x12, 64, 0x0C00000, 0x1000, 0x1F), one 0x13 0x0CFF000 0x13, one 0x14 0x0D00000 0x17,
    one 0x15 0x0E00000 0x17, one 0x16 0x0F00000 0x13, one 0x17 0x0780000 0x3F, one 0x18 0x0800000 0x13 ]

/-- The bytes of the table up to its last entry; an entry with UNIT 0 ends the list. -/
def discoveryBytes : List Byte :=
  leBytes 4 (BitVec.ofNat 32 (0x0E4B + 0x0D52 * 65536)) ++ leBytes 4 (BitVec.ofNat 32 (0x21 + 0x100 + discoveryUnits.length * 65536)) ++
  leBytes 8 (BitVec.ofNat 64 0x54534452) ++
  leBytes 4 (BitVec.ofNat 32 (packN [(0, Config.slices), (7, Config.calderaGiB), (10, Config.lanes), (17, Config.knots / 16384), (21, Config.sites)])) ++
  leBytes 4 (BitVec.ofNat 32 (packN [(0, Config.sensors), (9, Config.regions), (16, 8 * Config.flashMiB)])) ++ List.replicate 40 0 ++
  discoveryUnits.flatMap (fun e => leBytes 16 (BitVec.ofNat 128 (packN [(0, e.1), (8, 1), (16, e.2.1), (32, e.2.2.1), (64, e.2.2.2.1.toNat), (88, e.2.2.2.2)]))) ++ List.replicate 16 0

/-- Bytes `o` to `o + n - 1` of the identity page; beyond the ending entry the ROM's contents are open. -/
def discoveryRead (o n : Nat) : List Byte := (List.range n).map fun i => discoveryBytes.getD (o + i) (Config.discoveryTail (o + i))

/-! ### Registers -/

def StState.code : StState → Nat
  | .free => 0 | .opened => 1 | .bound => 2 | .closed => 3 | .error => 4

def hwRegs : List Reg :=
  [ { base := 0x0E00000, allow := capKSHO, get := fun _ _ s => s.host.cont                                                    -- HW_CONT
      onRead := fun _ c _ s => contRead s c
      put := fun _ c v m s => if m &&& 0x700000000 ≠ 0 then contRelease s c (field (v &&& m) 32 3) else s },
    { base := 0x0E00008, allow := caption [.K, .H]                                                                            -- HW_IRQ
      get := fun _ _ s => pack [(0, s.host.irqPending.toNat), (8, s.host.irqMask.toNat)]
      put := fun _ _ v m s => s.setHost { s.host with irqPending := w1c s.host.irqPending 0 v m, irqMask := mrg s.host.irqMask 8 v m } },
    { base := 0x0E00010, allow := capKSHO                                                                                     -- HW_STAT
      get := fun _ _ s => pack [(0, s.host.malformed.toNat), (16, s.host.miss.toNat), (32, s.host.dropped.toNat), (48, s.host.status.toNat)]
      onRead := fun _ _ m s => s.setHost { s.host with
        malformed := if bit m 0 then 0 else s.host.malformed, miss := if bit m 16 then 0 else s.host.miss, dropped := if bit m 32 then 0 else s.host.dropped } },
    { base := 0x0E00100, stride := 16, count := 16, allow := capKSHO                                                          -- HW_WIN
      get := fun w _ s =>
        let x := s.host.win w
        pack [(0, x.hostBase.toNat), (8, x.size.toNat), (17, x.space.toNat), (19, b2n x.rd), (20, b2n x.wr), (21, b2n x.en)]
      put := fun w c v m s => s.putWin c w ((s.host.win w).write v m) },
    { base := 0x0E00108, stride := 16, count := 16, allow := capKSHO
      get := fun w _ s => (s.host.win w).target.setWidth 64
      put := fun w c v m s => s.putWin c w { s.host.win w with target := mrg (s.host.win w).target 0 v m } },
    { base := 0x0E00200, stride := 8, count := 2, allow := caption [.K, .H], get := fun i _ s => field s.host.sid (64 * i) 64  -- HW_IDE_SID
      put := fun i c v m s => if c = .K then s.setHost { s.host with sid := putField s.host.sid (64 * i) 64 (mrg (field s.host.sid (64 * i) 64) 0 v m) } else s },
    { base := 0x0E00210, allow := caption [.K, .H], get := fun _ _ _ => 0                                                     -- HW_IDE_IV
      put := fun _ c v m s => if c = .K then s.setHost { s.host with ideIv := mrg s.host.ideIv 0 v m } else s },
    { base := 0x0E00218, allow := caption [.K, .H]                                                                            -- HW_IDE_GO
      get := fun _ _ s => pack [(0, s.host.slot.toNat), (4, b2n s.host.dir), (5, b2n s.host.kset)]
      put := fun _ c v m s =>
        if c ≠ .K then s
        else
          let h := { s.host with slot := mrg s.host.slot 0 v m, dir := mrgB s.host.dir 4 v m, kset := mrgB s.host.kset 5 v m }
          let h := if bit (v &&& m) 6 then h.ideGo h.slot.toNat h.dir h.kset else h
          s.setHost (if bit (v &&& m) 7 then h.ideStop h.slot.toNat h.dir h.kset else h) },
    { base := 0x0E00220, allow := caption [.K, .H], get := fun _ _ s => pack [(0, s.host.active.toNat), (32, s.host.ksetUsed.toNat)] },
    { base := 0x0E01000, stride := 0x40, count := 16, allow := capKSHO                                                        -- HW_STR_CTL
      get := fun n _ s =>
        let x := s.stream n
        pack [(3, x.state.code), (6, x.mode.toNat), (8, b2n x.long), (16, x.status.toNat)]
      put := fun n c v m s =>
        if c ≠ .K ∧ c ≠ .H then s
        else
          let w := v &&& m
          let s := if bit w 0 then streamOpen s n else s
          if bit w 2 then streamAbort s n else if bit w 1 then streamClose s n else s },
    { base := 0x0E01008, stride := 0x40, count := 16, allow := capKSHO, get := fun n _ s => (s.stream n).len.setWidth 64        -- HW_STR_LEN
      put := fun n c v m s =>
        let x := s.stream n
        if (c = .K ∨ c = .H) ∧ x.state = .free then s.setStream n { x with len := mrg x.len 0 v m } else s },
    { base := 0x0E01010, stride := 0x40, count := 16, allow := capKSHO, get := fun n _ s => pack [(0, (s.stream n).f % 2 ^ 32)] },
    { base := 0x0E01018, stride := 0x40, count := 16, allow := capKSHO, get := fun n _ s => pack [(0, (s.stream n).c % 2 ^ 32)] },
    { base := 0x0E01020, stride := 0x40, count := 16, allow := capKSHO, get := fun n _ s => pack [(0, (s.stream n).limit % 2 ^ 32)] },
    { base := 0x0E01028, stride := 0x40, count := 16, allow := capKSHO
      get := fun n _ s => match (s.stream n).tag with | some t => pack [(0, t.toNat), (9, 1)] | none => 0 } ]

end Sys2Proof.Machine
end

