-- ==== Sys2Proof/Machine/GeyserPort.lean ====
section
/-! DEFINITION. The Geyser port: lanes and bypass (R76 to R80, R683), frames on the ring (R679 to R682), sequence numbers and
acknowledgement (R685 to R687), session ends (R691), fault injection (R697, R698), registers. -/
namespace Sys2Proof.Machine

/-! ### Lanes and the bypass switch -/

/-- LOOPBACK_TRAINED: 1 ms of loopback traffic begins, while the switch passes the hub by. -/
def loopbackTrained (s : State) : State :=
  if s.bnd.bypass ∨ s.gy.retryAt.isSome ∨ ¬ s.bnd.porN ∨ s.co.halted then s else s.setGy { s.gy with loopAt := some s.bnd.timebase }

/-- BYPASS_RELEASE: 1 ms of loopback traffic with lock on both lanes has passed and BYPASS_N goes high (R76). -/
def bypassRelease (s : State) : State :=
  match s.gy.loopAt with
  | none => s
  | some t =>
    if s.gy.lock ≠ 3 then s
    else
      let s := s.at (t.toNat + 1000000)
      (s.setGy { s.gy with loopAt := none, ringAt := some s.bnd.timebase }).setBnd { s.bnd with bypass := true }

def ringTrained (s : State) : State :=
  if s.gy.ringAt.isSome then (s.setGy { s.gy with ringAt := none }).setBnd { s.bnd with gyTrained := 3 } else s

/-- BYPASS_N goes low; the sequence of R76 follows after 1 s (R80, R683). -/
def State.ringFails (s : State) : State :=
  (s.setGy { s.gy with loopAt := none, ringAt := none, retryAt := some s.bnd.timebase }).setBnd { s.bnd with bypass := false, gyTrained := 0 }

def ringTrainTimeout (s : State) : State :=
  match s.gy.ringAt with
  | some t => (s.at (t.toNat + 20000000)).ringFails
  | none => s

def ringRetry (s : State) : State :=
  match s.gy.retryAt with
  | some t => let s := s.at (t.toNat + 1000000000); s.setGy { s.gy with retryAt := none }
  | none => s

/-- FEC_LOCK_CHANGE: a loss starts the lane's timers, a gain ends them; a gain and an uncorrectable codeword start
the 1 ms of loopback over (R76, R683). -/
def fecLock (s : State) (l : Nat) (level : FecLevel) : State :=
  let g := s.gy
  match level with
  | .gained => s.setGy { g with
    lock := putBit g.lock l true, lockLost := SMap.set none g.lockLost l none, lossTold := putBit g.lossTold l false
    loopAt := if bit g.lock l then g.loopAt else g.loopAt.map fun _ => s.bnd.timebase }
  | .uncorrectable => if bit g.lock l then s.setGy { g with loopAt := g.loopAt.map fun _ => s.bnd.timebase } else s
  | .lost =>
    if ¬ bit g.lock l then s
    else s.setGy { g with lock := putBit g.lock l false, lockLost := SMap.set none g.lockLost l (some s.bnd.timebase), lossTold := putBit g.lossTold l false }

/-- LANE_LOCK_LOSS: after 1 ms the lane is reported, class LINK for unit kind 17; after 20 ms the switch goes to bypass. -/
def laneLockLoss (s : State) (l : Nat) : State :=
  match (if s.bnd.porN then SMap.get none s.gy.lockLost l else none) with
  | none => s
  | some t =>
    if ¬ bit s.gy.lossTold l then
      let s := s.at (t.toNat + 1000000)
      (s.setGy { s.gy with lossTold := putBit s.gy.lossTold l true }).report 7 (unitOf 17 l) (Config.reportCode 7)
    else if s.bnd.bypass then (s.at (t.toNat + 20000000)).ringFails
    else s

def execLoopbackTrained (s : State) : Host.Outcome State Fault Refusal := .next (loopbackTrained s)
def execBypassRelease (s : State) : Host.Outcome State Fault Refusal := .next (bypassRelease s)
def execRingTrained (s : State) : Host.Outcome State Fault Refusal := .next (ringTrained s)
def execRingTrainTimeout (s : State) : Host.Outcome State Fault Refusal := .next (ringTrainTimeout s)
def execRingRetry (s : State) : Host.Outcome State Fault Refusal := .next (ringRetry s)
def execFecLockChange (lane : BitVec 1) (level : FecLevel) (s : State) : Host.Outcome State Fault Refusal := .next (fecLock s lane.toNat level)
def execLaneLockLoss (lane : BitVec 1) (s : State) : Host.Outcome State Fault Refusal := .next (laneLockLoss s lane.toNat)

/-! ### Sessions and flows -/

/-- The ends of a flow of frames: a session's two classes (a handshake's pending session has class 1), GY_HELLO without a session, the station pair
of ROM recovery. -/
inductive GyEnd where
  | session (id : BitVec 32) (update : Bool)
  | hello
  | recovery
  deriving DecidableEq, Repr

/-- The pending handshake of a session identifier. -/
def Gy.shake (g : Gy) (id : BitVec 32) : Option GyShake := g.shakes.find? fun x => x.id = id

/-- The flow of an end, none where the session is neither open nor pending. -/
def Gy.flow (g : Gy) : GyEnd → Option GyFlow
  | .session id u => match g.session id with
    | some x => some (if u then x.update else x.mgmt)
    | none => if u then none else (g.shake id).map (·.flow)
  | .hello => some g.hello
  | .recovery => some g.recFlow
def Gy.setFlow (g : Gy) (e : GyEnd) (f : GyFlow) : Gy :=
  match e with
  | .session id u => match g.session id with
    | some x => g.setSession (if u then { x with update := f } else { x with mgmt := f })
    | none => if u then g else { g with shakes := g.shakes.map fun x => if x.id = id then { x with flow := f } else x }
  | .hello => { g with hello := f }
  | .recovery => { g with recFlow := f }

/-- The class of an end's frames. -/
def GyEnd.cls : GyEnd → Nat
  | .session _ u => if u then 3 else 1
  | .hello => 1
  | .recovery => 4
def GyEnd.sid : GyEnd → BitVec 32
  | .session id _ => id
  | _ => 0

/-- The end that a SESSION and class name. -/
def State.gyEnd (s : State) (id : BitVec 32) (update : Bool) : GyEnd :=
  if id ≠ 0 then .session id update else if s.bnd.recovery then .recovery else .hello

/-- The MAC of a frame of an end in the hub's direction: the session's role 0 key; handshake and recovery frames carry none (R686). -/
def State.gyOutMac (s : State) (e : GyEnd) (h : GyHead) (payload : List Byte) : List Byte :=
  match e with
  | .session id _ => match s.gy.session id with | some x => gyMac (s.skn.slot x.slot0).bytes h payload | none => []
  | _ => []

/-- Steward computes the MAC over `n` bytes with DIG_FINISH, or checks it with DIG_COMPARE, `bad` where it fails: the digest engine's counters (R686; the comparators'
own faults come by DIG_BLOCK_ABSORBED alone, log entry 34). -/
def State.gyMacRan (s : State) (e : GyEnd) (n : Nat) (bad : Bool := false) : State :=
  match e with
  | .session id _ => match s.gy.session id with
    | some x =>
      let blocks := digHead 12 (s.skn.slot x.slot0).bytes (ascii "RDSG") + n / digBlock 12 + digTail 12 n 32
      { s with dig := { s.dig with cntBlocks := s.dig.cntBlocks + BitVec.ofNat 48 blocks, cntMismatch := if bad then s.dig.cntMismatch + 1 else s.dig.cntMismatch } }
    | none => s
  | _ => s

/-- Send one frame of an end: it takes the next SEQ, acknowledges, and stays unacknowledged (R685). -/
def State.gyPiece (s : State) (e : GyEnd) (f : GyFlow) (p : GyPiece) : State :=
  let h : GyHead := { cls := e.cls, dst := 0xFE, src := s.gy.station, last := p.last, session := e.sid, msgId := p.msgId, seq := BitVec.ofNat 64 (f.sent + 1)
                      ack := BitVec.ofNat 64 f.got, type := p.type, frag := p.frag, msgBytes := p.msgBytes }
  let fr := gyFrame h (s.gyOutMac e h p.payload) p.payload
  let f := { f with sent := f.sent + 1, unacked := f.unacked ++ [(f.sent + 1, fr)], since := if f.unacked.isEmpty then s.bnd.timebase else f.since
                    resends := if f.unacked.isEmpty then 0 else f.resends, ackDue := false }
  ((s.gyMacRan e (64 + p.payload.length)).setGy (s.gy.setFlow e f)).gySend e.cls p.payload.length fr

/-- Send waiting frames while fewer than 64 are unacknowledged. -/
def State.gyFlush (s : State) (e : GyEnd) : Nat → State
  | 0 => s
  | k + 1 =>
    match s.gy.flow e with
    | some f => match f.queue with
      | p :: l => if f.unacked.length < 64 then (s.gyPiece e { f with queue := l } p).gyFlush e k else s
      | [] => s
    | none => s

/-- Send a message: fragments of up to 4,096 bytes. Its MSG_ID is open. -/
def State.gyMsg (s : State) (e : GyEnd) (type : BitVec 16) (body : List Byte) : State :=
  match s.gy.flow e with
  | none => s
  | some f =>
    let ps := if body.isEmpty then [[]] else pieces 4096 body.length body
    let id := s.draw 32
    let q := ps.zipIdx.map fun x => ({ last := x.2 + 1 = ps.length, type := type, msgId := id, frag := BitVec.ofNat 16 x.2, msgBytes := BitVec.ofNat 32 body.length, payload := x.1 } : GyPiece)
    ((s.drawn 1).setGy (s.gy.setFlow e { f with queue := f.queue ++ q })).gyFlush e (f.queue.length + q.length)

/-- Answer a request: TYPE + 0x80, STATUS, two zero bytes, then the body (R687). -/
def State.gyReply (s : State) (e : GyEnd) (type : BitVec 16) (st : Status) (body : List Byte := []) : State :=
  s.gyMsg e (type + 0x80) (leBytes 2 st ++ [0, 0] ++ body)

/-- Steward runs: from the end of CO5, outside ROM recovery, halts, test hold and the root-hash step; unsigned code only while the states permit it
(R406, R420). -/
def State.stewardRuns (s : State) : Bool :=
  s.bnd.porN && !s.bnd.recovery && !s.co.halted && !s.co.testHold && !s.co.rootprov && decide (6 ≤ s.bnd.coStage.toNat) && (!bit s.co.unsignedImgs 1 || s.unsignedOk)

/-! ### Receiving (R679 to R683, R685, R686, R711) -/

/-- Bytes 0 to 63 read as a header. -/
def headOf (b : List Byte) : GyHead :=
  { cls := leNat (sub b 1 1), dst := ofLeBytes 8 (sub b 2 1), src := ofLeBytes 8 (sub b 3 1), hops := ofLeBytes 8 (sub b 4 1), last := bit (ofLeBytes 8 (sub b 5 1)) 0
    ackOnly := bit (ofLeBytes 8 (sub b 5 1)) 1, session := ofLeBytes 32 (sub b 8 4), msgId := ofLeBytes 32 (sub b 12 4), seq := ofLeBytes 64 (sub b 16 8)
    ack := ofLeBytes 64 (sub b 24 8), type := ofLeBytes 16 (sub b 32 2), frag := ofLeBytes 16 (sub b 34 2), msgBytes := ofLeBytes 32 (sub b 36 4), channel := ofLeBytes 8 (sub b 40 1) }

/-- PAYLOAD_BYTES of a frame. -/
def frameBytes (b : List Byte) : Nat := leNat (sub b 6 2)

/-- The frame passes R679. -/
def frameOk (b : List Byte) : Bool :=
  let n := frameBytes b
  let cells := (n + 255) / 256
  let h := headOf b
  let zero (o k : Nat) : Bool := sub b o k = zeros k
  leNat (sub b 0 1) = cells && n ≤ 4096 && b.length = 256 * (1 + cells) && h.cls ≤ 4 && leNat (sub b 5 1) < 4 && zero 41 23 && zero 96 160 && zero (256 + n) (256 * cells - n) &&
  (h.cls = 2 || h.channel = 0) && (h.cls = 1 || h.cls = 3 || (zero 64 32 && h.session = 0))

/-- The acknowledgement that a frame carries: progress restarts the timer and lets waiting frames go. -/
def State.gyAcked (s : State) (e : GyEnd) (ack : Nat) : State :=
  match s.gy.flow e with
  | none => s
  | some f =>
    let l := f.unacked.filter fun u => ack < u.1
    if ack ≤ f.sent ∧ l.length < f.unacked.length then
      (s.setGy (s.gy.setFlow e { f with unacked := l, acked := ack, resends := 0, since := s.bnd.timebase })).gyFlush e f.queue.length
    else s

/-- The messages that a hub receives, by the end that accepts them (R694 to R710). -/
def Gy.accepts (g : Gy) (e : GyEnd) (type : Nat) : Bool :=
  match e with
  | .hello => type = 0x01
  | .session id true => (g.session id).isSome && 0x20 ≤ type && type ≤ 0x26
  | .session id false => if (g.session id).isSome then 0x10 ≤ type && type ≤ 0x16 else type = 0x03
  | .recovery => 0x30 ≤ type && type ≤ 0x33

/-- A TYPE that R688 to R710 define. -/
def gyType (type : Nat) : Bool := (1 ≤ type && type ≤ 4) || (0x10 ≤ type && type ≤ 0x16) || (0x20 ≤ type && type ≤ 0x26) || (0x30 ≤ type && type ≤ 0x33)

/-- A message of `total` bytes has ended: a wrong length, an unknown TYPE, and a TYPE that its class or state does not accept are answered (R685,
R712); the others have rows of their own. -/
def State.gyMessage (s : State) (e : GyEnd) (h : GyHead) (total : Nat) : State :=
  if total ≠ h.msgBytes.toNat then s.gyReply e h.type (if total < h.msgBytes.toNat then St.lengthShort else St.lengthLong)
  else if ¬ gyType h.type.toNat then s.gyReply e h.type 0x0F01
  else if ¬ s.gy.accepts e h.type.toNat then s.gyReply e h.type 0x0F02
  else s

/-- A frame of a session, of a handshake or of recovery (R685, R686): its MAC, its SEQ, the message that it ends. -/
def State.gyTake (s : State) (e : GyEnd) (b : List Byte) : State :=
  let h := headOf b
  let n := frameBytes b
  let key : Option (List Byte) := match e with | .session id _ => (s.gy.session id).map fun x => (s.skn.slot x.slot1).bytes | _ => none
  let good : Bool := match key with | some k => gyMac k h (sub b 256 n) = sub b 64 32 | none => true
  match s.gy.flow e with
  | none => s
  | some f =>
    let s := s.gyMacRan e (64 + n) (!good)
    if ¬ good then s
    else if ¬ h.ackOnly ∧ h.seq.toNat ≠ f.got + 1 then s
    else
      let s := match e with
        | .session id _ => match s.gy.session id with | some x => s.setGy (s.gy.setSession { x with last := s.bnd.timebase }) | none => s
        | _ => s
      if h.ackOnly then s.gyAcked e h.ack.toNat
      else
        let total := f.asm + n
        let s := s.setGy (s.gy.setFlow e { f with got := f.got + 1, asm := if h.last then 0 else total, ackDue := true, ackSince := if f.ackDue then f.ackSince else s.bnd.timebase })
        let s := s.gyAcked e h.ack.toNat
        if h.last then s.gyMessage e h total else s

def State.gyCount (s : State) (f : Gy → Gy) : State := s.setGy (f s.gy)

/-- Deliver a frame: enumeration aside, what each class does (R681, R687, R711). -/
def State.gyDeliver (s : State) (b : List Byte) : State :=
  let h := headOf b
  let s := s.gyCount fun g => { g with cntRx := g.cntRx + 1 }
  let drop (s : State) : State := s.gyCount fun g => { g with cntDrop := g.cntDrop + 1 }
  if h.cls = 4 then (if ¬ s.bnd.recovery then drop s else if h.src = 0xFE then s.gyTake .recovery b else s)
  else if h.cls = 1 ∨ h.cls = 3 then
    if s.bnd.recovery then drop s
    else if h.src ≠ 0xFE ∨ ¬ s.stewardRuns then s
    else if h.session = 0 then (if h.cls = 1 then s.gyTake .hello b else s)
    else s.gyTake (.session h.session (h.cls = 3)) b
  else s

/-- Forward a frame on its lane with HOPS one lower; an ENUM frame takes effect as it leaves (R680). -/
def State.gyForward (s : State) (lane : Nat) (b : List Byte) (enum : Option (BitVec 8) := none) : State :=
  let e : GyEntry := { frame := b.set 4 (BitVec.ofNat 8 ((headOf b).hops.toNat - 1)), own := false, enum := enum }
  (s.gyCount fun g => { g with cntFwd := g.cntFwd + 1 }.forward lane (headOf b).cls e).gyDrain

/-- A frame arrives (R679, R681); on a lane without lock it is lost (R683). -/
def gyArrive (s : State) (lane : Nat) (b : List Byte) (bad : Bool) : State :=
  if ¬ bit s.gy.lock lane then s
  else if bad ∨ ¬ frameOk b then s.gyCount fun g => { g with cntDrop := g.cntDrop + 1 }
  else
    let h := headOf b
    let me := s.gy.station
    let mine : Bool := me ≠ 0xFF || h.cls = 0 || h.cls = 4
    if h.src = me ∧ me ≠ 0xFF then s
    else if h.dst = me ∧ me ≠ 0xFF then s.gyDeliver b
    else if h.dst = 0xFF then
      let s := if mine then s.gyDeliver b else s
      if h.cls = 0 ∧ h.type = 1 then
        let c : BitVec 8 := (sub b 256 1).headD 0
        s.gyForward lane (b.set 256 (satAdd c 1)) (some c)
      else s.gyForward lane b
    else if h.hops.toNat ≤ 1 then s.gyCount fun g => { g with cntHops := g.cntHops + 1 }
    else s.gyForward lane b

/-- The ENUM frame of the gateway. -/
def enumFrame (count hops : BitVec 8) : List Byte :=
  gyFrame { cls := 0, dst := 0xFF, src := 0xFE, hops := hops, type := 1, msgBytes := 4 } [] [count, 0, 0, 0]

def execGeyserFrame (lane : BitVec 1) (frame : List Byte) (bad : Bool) (s : State) : Host.Outcome State Fault Refusal := .next (gyArrive s lane.toNat frame bad)
def execEnum (lane : BitVec 1) (count hops : BitVec 8) (s : State) : Host.Outcome State Fault Refusal := .next (gyArrive s lane.toNat (enumFrame count hops) false)

/-! ### Timers of a flow -/

/-- The handshake ends; Keeper clears its holder with PKE_EPH_CLEAR. -/
def State.gyForget (s : State) (x : GyShake) : State :=
  (s.clearHolder x.holder).setGy { s.gy with shakes := s.gy.shakes.filter fun y => y.id ≠ x.id }

/-- GEYSER_RESEND_TIMEOUT: resend every unacknowledged frame; after 8 resends without progress the session, the pending one with its handshake, or
the recovery transfer ends. -/
def gyResend (s : State) (e : GyEnd) : State :=
  match s.gy.flow e with
  | none => s
  | some f =>
    if f.unacked.isEmpty then s
    else
      let s := s.at (f.since.toNat + 500000)
      if 8 ≤ f.resends then
        match e with
        | .session id _ => match (if (s.gy.session id).isSome then none else s.gy.shake id) with
          | some x => s.gyForget x
          | none => s.gyEndSession id 2
        | .hello => s.setGy { s.gy with hello := { f with unacked := [], queue := [] } }
        | .recovery => s.setGy { s.gy with recFlow := {}, upload := none }
      else
        let s := s.setGy (s.gy.setFlow e { f with resends := f.resends + 1, since := s.bnd.timebase })
        f.unacked.foldl (fun s u => s.gySend e.cls (frameBytes u.2) u.2) s

/-- ACK_ONLY_SEND: it takes no SEQ of its own; what it carries there is open. -/
def gyAckOnly (s : State) (e : GyEnd) : State :=
  match s.gy.flow e with
  | none => s
  | some f =>
    if ¬ f.ackDue then s
    else
      let h : GyHead := { cls := e.cls, dst := 0xFE, src := s.gy.station, last := true, ackOnly := true, session := e.sid, msgId := s.draw 32, seq := s.drawAt 64 1
                          ack := BitVec.ofNat 64 f.got, type := s.drawAt 16 2 }
      let fr := gyFrame h (s.gyOutMac e h []) []
      (((s.drawn 3).gyMacRan e 64).setGy (s.gy.setFlow e { f with ackDue := false })).gySend e.cls 0 fr

def execGeyserResendTimeout (session : BitVec 32) (update : Bool) (s : State) : Host.Outcome State Fault Refusal := .next (gyResend s (s.gyEnd session update))
def execAckOnlySend (session : BitVec 32) (update : Bool) (s : State) : Host.Outcome State Fault Refusal := .next (gyAckOnly s (s.gyEnd session update))

/-- GY_SESSION_IDLE_TIMEOUT. -/
def execGySessionIdleTimeout (session : BitVec 32) (s : State) : Host.Outcome State Fault Refusal :=
  .next (match s.gy.session session with
    | some x => (s.at (x.last.toNat + 600000000000)).gyEndSession session 1
    | none => s)

/-! ### Fault injection (R697, R698) -/

/-- A write of GY_FI: the generator is loaded, the event carries the value; with DURATION 0 the whole register reads 0. -/
def State.gyFi (s : State) (v : W64) : State :=
  let v := v &&& 0xFFFF0007FFFFFFFF
  let v := if 3600 < (field v 48 16).toNat then putField v 48 16 3600 else v
  (s.setGy { s.gy with fi := if (field v 48 16).toNat = 0 then 0 else v, fiSecond := s.now / 1000000000, lfsr := if s.gy.fiSeed = 0 then 1 else s.gy.fiSeed }).log 0x0F000086 (p0 := v)

/-- Classes K, S and O write GY_FI. -/
def gyFiWrite (s : State) (c : Cls) (v : W64) : State := if capKSO 0 c s then s.gyFi v else s
def execGyFiWrite (cls : Cls) (data : W64) (s : State) : Host.Outcome State Fault Refusal := .next (gyFiWrite s cls data)

/-- GY_FI_SECOND: DURATION falls by 1; at 0 the register reads 0. -/
def gyFiSecond (s : State) : State :=
  let n := s.gy.duration
  if n = 0 then s
  else
    let s := s.at ((s.gy.fiSecond + 1) * 1000000000)
    s.setGy { s.gy with fiSecond := s.gy.fiSecond + 1, fi := if n = 1 then 0 else putField s.gy.fi 48 16 (BitVec.ofNat 16 (n - 1)) }
def execGyFiSecond (s : State) : Host.Outcome State Fault Refusal := .next (gyFiSecond s)

/-! ### ACTIVATE (R708) and the registers -/

/-- A write of UPD_CTL.ACTIVATE: class K, READY 1, RECOVERY 0. Keeper's write appends event 0x0F00_0084 (R707). -/
def activateNow (s : State) (c : Cls) : State :=
  if c ≠ .K ∨ ¬ s.bnd.ready ∨ s.bnd.recovery then s else warmReset (s.log 0x0F000084) 4

/-- ACTIVATE: Steward writes a checkpoint before it yields (R451, R708). -/
def activate (s : State) (c : Cls) : State :=
  if c ≠ .K ∨ ¬ s.bnd.ready ∨ s.bnd.recovery then s else activateNow (if s.stewardRuns then sinterCheckpoint s else s) c
def execActivate (cls : Cls) (s : State) : Host.Outcome State Fault Refusal := .next (activate s cls)

def gyRegs : List Reg :=
  [ { base := 0x0D00000, allow := capKSO                                                                                    -- GY_CTL
      get := fun _ _ s => pack [(0, b2n s.gy.traceEn), (32, s.gy.fiSeed.toNat)]
      put := fun _ c v m s =>
        if c = .K ∨ c = .S then s.setGy { s.gy with traceEn := mrgB s.gy.traceEn 0 v m, fiSeed := mrg s.gy.fiSeed 32 v m } else s },
    { base := 0x0D00008, allow := capKSHO                                                                                   -- GY_STAT
      get := fun _ _ s => pack [(0, s.gy.station.toNat), (8, s.gy.lock.toNat), (10, b2n (decide (0 < s.gy.duration))), (32, s.gy.duration)] },
    { base := 0x0D00010, allow := capKSO, get := fun _ _ s => s.gy.fi                                                         -- GY_FI
      put := fun _ c v m s => gyFiWrite s c (mrg s.gy.fi 0 v m) },
    { base := 0x0D00018, allow := capKSO, get := fun _ _ _ => 0                                                             -- UPD_CTL
      put := fun _ c v m s => if bit (v &&& m) 0 then activate s c else s } ] ++
  (([fun g => g.cntTx, fun g => g.cntRx, fun g => g.cntFwd, fun g => g.cntDrop, fun g => g.cntHops, fun g => g.cntTrace, fun g => g.cntFiDrop,
     fun g => g.cntFiCorrupt] : List (Gy → BitVec 48)).zipIdx.map fun f =>
    { base := 0x0D00040 + 8 * f.2, allow := capKSO, get := fun _ _ s => (f.1 s.gy).setWidth 64 })

end Sys2Proof.Machine
end

