-- ==== Sys2Proof/Machine/RegAccess.lean ====
section
/-! DEFINITION. The register map as a whole: every unit's registers and windows, the block status page (R22, R36, R73), and accesses to
it by classes K, S, H and O (R7, R8, R520, R652, R654, R671) and over the hub NoC (R41 to R43). -/
namespace Sys2Proof.Machine

/-! ### Identity and status pages -/

def statusRegs : List Reg :=
  [ { base := 0x1000, allow := capKSHO                                                                       -- BLK_STATUS
      get := fun _ _ s =>
        let b := s.bnd
        pack [(0, b2n b.isolated), (1, b2n b.ready), (2, b2n b.recovery), (4, b.coStage.toNat), (8, b.lastReset.toNat), (11, b2n s.gov.hold)] },
    { base := 0x1010, allow := capKSHO, get := fun _ _ s => pack [(0, s.bnd.pkgSlot.toNat), (8, s.bnd.avsEn.toNat)] },          -- BND_STRAPS
    { base := 0x1018, allow := capKSHO                                                                       -- BND_PORTS
      get := fun _ _ s =>
        let b := s.bnd
        pack [(0, b.sitePresent.toNat), (24, b.siteTrusted.toNat), (48, b2n b.pwrWarn), (49, b2n b.thermTrip), (50, b2n b.clamp), (51, b2n b.wiredValid),
              (52, b.gyTrained.toNat), (54, b2n b.bypass)] },
    { base := 0x1020, allow := capKSHO                                                                       -- BND_MEMTRN
      get := fun _ _ s => ofBits 64 ((List.range Config.slices).filter (bit s.bnd.memtrn)) } ]

/-- The latched high half of TIMEBASE for a class, else the current one. -/
def Bnd.tbHigh (b : Bnd) (c : Cls) : BitVec 32 := (SMap.get none b.tbLatch (clsNum c)).getD (field b.timebase 32 32)

/-- The identity page, which every class reads at every stage, and TIMEBASE with its latch (R36, R655). -/
def statusWindows : List Window :=
  [ { base := 0, span := 0x1000, allow := fun _ _ _ => true, get := fun _ o n _ _ => discoveryRead o n },
    { base := 0x1008, span := 8, allow := fun _ c _ => match c with | .C _ _ | .I => false | _ => true
      get := fun _ o n c s => if o = 4 ∧ n = 4 then leBytes 4 (s.bnd.tbHigh c) else (leBytes 8 s.bnd.timebase).drop o |>.take n
      onRead := fun _ o n c s =>
        if n ≠ 4 then s
        else s.setBnd { s.bnd with tbLatch := SMap.set none s.bnd.tbLatch (clsNum c) (if o = 0 then some (field s.bnd.timebase 32 32) else none) } } ]

def allRegs : List Reg :=
  statusRegs ++ coRegs ++ attRegs ++ mbRegs ++ cmdRegs ++ knotRegs ++ partRegs ++ sknRegs ++ digRegs ++ pkeRegs ++ otpRegs ++ lcRegs ++ fumRegs ++ ventRegs ++
  rowRegs ++ govRegs ++ guardRegs ++ linkRegs ++ wgRegs ++ gyRegs ++ hwRegs ++ flashRegs

def allWindows : List Window :=
  statusWindows ++ mbWindows ++ knotWindows ++ cmdWindows ++ sknWindows ++ digWindows ++ pkeWindows ++ otpWindows ++ lcWindows ++ ventWindows ++ rowWindows ++ wgWindows

/-! ### One access -/

/-- The window that class `c` reaches at `off`. -/
def windowAt (s : State) (c : Cls) (off : Nat) : Option (Window × Nat × Nat) :=
  allWindows.findSome? fun w => match w.idx off with
    | some (i, o) => if w.allow i c s then some (w, i, o) else none
    | none => none

/-- The register that class `c` reaches at the 8-byte location `loc`. -/
def regAt (s : State) (c : Cls) (loc : Nat) : Option (Reg × Nat) :=
  allRegs.findSome? fun r => match r.idx loc with
    | some i => if r.allow i c s then some (r, i) else none
    | none => none

/-- The mask of the bits of location `loc` that an access of `n` bytes at `off` covers. -/
def locMask (loc off n : Nat) : W64 := ofBits 64 ((List.range 64).filter fun b => off ≤ loc + b / 8 ∧ loc + b / 8 < off + n)

/-- The 8-byte locations of an access. -/
def locsOf (off n : Nat) : List Nat := if n = 0 then [] else (List.range' (off / 8) ((off + n - 1) / 8 - off / 8 + 1)).map (8 * ·)

/-- A read of `n` bytes by class `c`: a class that no register's caption names reads 0 (R8). -/
def State.readBytes (s : State) (c : Cls) (off n : Nat) : State × List Byte :=
  match windowAt s c off with
  | some (w, i, o) =>
    let k := min n (w.span - o)
    (w.onRead i o k c s, w.get i o k c s ++ zeros (n - k))
  | none =>
    let step (r : State × List Byte) (loc : Nat) : State × List Byte :=
      match regAt r.1 c loc with
      | some (g, i) => (g.onRead i c (locMask loc off n) r.1, r.2 ++ leBytes 8 (g.get i c r.1))
      | none => (r.1, r.2 ++ zeros 8)
    let r := (locsOf off n).foldl step (s, [])
    (r.1, (r.2.drop (off % 8)).take n)

/-- A write of bytes by class `c`; elsewhere it has no effect (R8). -/
def State.writeBytes (s : State) (c : Cls) (off : Nat) (bs : List Byte) : State :=
  match windowAt s c off with
  | some (w, i, o) => w.put i o c (bs.take (w.span - o)) s
  | none =>
    (locsOf off bs.length).foldl (fun s loc => match regAt s c loc with
      | some (g, i) =>
        let v : W64 := ofLeBytes 64 ((List.range 8).map fun b => if off ≤ loc + b then bs.getD (loc + b - off) 0 else 0)
        g.put i c v (locMask loc off bs.length) s
      | none => s) s

/-! ### Classes K, S, H and O -/

/-- A read by class `c`: all ones in containment, counted when malformed, zero where the class does not reach. -/
def regRead (s : State) (c : Cls) (off n : Nat) : State × List Byte :=
  if s.contained c off then (s, List.replicate n 0xFF)
  else if c = .H ∧ ¬ barOk off n then (s.malformed, zeros n)
  else if s.reaches c off then s.readBytes c off n
  else (s, zeros n)

def regWrite (s : State) (c : Cls) (off : Nat) (bs : List Byte) (full : Bool) : State :=
  if s.contained c off then s
  else if c = .H ∧ (¬ full ∨ ¬ barOk off bs.length) then s.malformed
  else if s.reaches c off then s.writeBytes c off bs
  else s

/-- A post to a report or intake port; a write to the intake page that names no port is refused (R597). Keeper and Steward are no chiplet site,
so that theirs are judged with SRC_SITE 31. -/
def intakeWrite (s : State) (h : NocHdr) (off n : Nat) (d : Line) : Option State :=
  let o := off - 0x0790000
  let v : W64 := field d 0 64
  if off < 0x0790000 ∨ 0x0791000 ≤ off then (if off = 0x07E0000 then some (ventReport s h n (field d 0 128)) else none)
  else if o = 0 then some (markerPost s h n (field d 0 128))
  else if 0x100 ≤ o ∧ o < 0x120 ∧ o % 8 = 0 then some (siteAddPost s h ((o - 0x100) / 8) n v)
  else if o = 0x200 then some (pcPost s h n v)
  else if 0x400 ≤ o ∧ o < 0x600 ∧ o % 8 = 0 then some (regionPost s h ((o - 0x400) / 8) n v)
  else if 0x600 ≤ o ∧ o < 0x700 ∧ o % 8 = 0 then some (intAddPost s h ((o - 0x600) / 8) n v)
  else some (s.postRefused h)

/-- The header that stands for a core's access. -/
def coreHdr : NocHdr := { addr := 0, dom := 65, epoch := 0, site := 31, txid := 0 }

/-- Bytes a bus beat of a core or of the NoC moves at most. The host's are judged at the size that they ask (R652). -/
def accessSize (c : Cls) (size : BitVec 7) : Nat := if c = .H then size.toNat else min size.toNat 64

/-- The register unit refused the access: it is the last thing it said. -/
def refusedBy (s s' : State) : Bool := decide (s.out.length < s'.out.length) && decide (s'.out.getLast? = some .regRefused)
/-- REFUSED is an answer on the NoC alone (R116, R654). -/
def unrefused (s s' : State) : State := if refusedBy s s' then { s' with out := s'.out.dropLast } else s'

def execRegisterRead (cls : Cls) (off : BitVec 26) (size : BitVec 7) (s : State) : Host.Outcome State Fault Refusal :=
  let r := regRead s cls off.toNat (accessSize cls size)
  .next (if isNocClass cls then s else (unrefused s r.1).emit (.regData (ofLeBytes 512 r.2)))

def execRegisterWrite (cls : Cls) (off : BitVec 26) (size : BitVec 7) (data : Line) (full : Bool) (s : State) : Host.Outcome State Fault Refusal :=
  .next (if isNocClass cls then s
    else match (if cls = .K ∨ cls = .S then intakeWrite s coreHdr off.toNat (accessSize cls size) data else none) with
      | some s' => if s'.out.getLast? = some (.nocResp coreHdr.txid .refused 0) then { s' with out := s.out ++ [.regRefused] } else { s' with out := s.out }
      | none => unrefused s (regWrite s cls off.toNat (leBytes (accessSize cls size) data) full))

/-! ### The hub NoC (R41 to R43) -/

/-- The classes in which a request may reach a register: its partition's, then class C. -/
def nocClasses (h : NocHdr) : List Cls :=
  if h.dom.toNat < 64 then [.P (h.dom.setWidth 6), .C h.site false] else [.C h.site (h.dom = 64)]

/-- The class that the register map gives a request at `off`. -/
def nocClass (s : State) (h : NocHdr) (off : Nat) : Cls :=
  ((nocClasses h).find? fun c => (windowAt s c off).isSome || (regAt s c (off / 8 * 8)).isSome).getD (.C h.site (h.dom = 64))

/-- Answer with what the access gave; one that the unit refused is answered REFUSED. -/
def State.answerReg (s s' : State) (h : NocHdr) (d : Line) : State :=
  if refusedBy s s' then ({ s' with out := s'.out.dropLast }).respond h .refused else s'.respond h .ok d

def execRegRead (h : NocHdr) (size : BitVec 7) (s : State) : Host.Outcome State Fault Refusal :=
  let off := h.addr.toNat
  .next (if s.portRefuses h then s.respond h .refused
    else
      let r := regRead s (nocClass s h off) off (accessSize (nocClass s h off) size)
      s.answerReg r.1 h (ofLeBytes 512 r.2))

def execRegWrite (h : NocHdr) (size : BitVec 7) (data : Line) (s : State) : Host.Outcome State Fault Refusal :=
  let off := h.addr.toNat
  .next (if s.portRefuses h then s.respond h .refused
    else if ¬ s.reaches (.C h.site false) off then s.respond h .ok
    else match intakeWrite s h off size.toNat data with
      | some s' => s'
      | none => s.answerReg (regWrite s (nocClass s h off) off (leBytes (accessSize (nocClass s h off) size) data) true) h 0)

end Sys2Proof.Machine
end

