-- ==== Sys2Proof/Machine/Geyser.lean ====
section
/-! DEFINITION. Geyser messages: the handshake (R688 to R690, R692), operator requests (R693 to R695, R642), firmware update (R701 to R709)
and recovery (R710). A message row carries a message that has been received whole; the frames that bring it are GEYSER_FRAME. -/
namespace Sys2Proof.Machine

/-! ### Handshake -/

/-- The length of the DER element at the front. -/
def derLength (bs : List Byte) : Nat :=
  let l := leNat (sub bs 1 1)
  if l < 128 then 2 + l else 2 + (l - 128) + number (sub bs 2 (l - 128))

/-- The certificates of a chain, DER, one behind the other. -/
def derSplit : Nat → List Byte → List (List Byte)
  | 0, _ => []
  | _, [] => []
  | k + 1, bs => bs.take (derLength bs) :: derSplit k (bs.drop (derLength bs))

/-- A handshake is refused: answer and event 0x0F00_0082. -/
def State.gyRefuse (s : State) (type : BitVec 16) (st : Status) (e : GyEnd := .hello) : State :=
  (s.gyReply e type st).log 0x0F000082 (p0 := st.setWidth 64)

/-- A free, unused, nonzero session identifier; which one is open. -/
def State.gyNewId (s : State) : BitVec 32 :=
  let used : List (BitVec 32) := 0 :: (s.gy.sessions.map (·.id) ++ s.gy.shakes.map (·.id))
  ((List.range (used.length + 1)).map fun i => s.draw 32 + BitVec.ofNat 32 i).find? (fun i => ¬ used.contains i) |>.getD 1

/-- Keeper signs a 48-byte hash with both Alias keys. -/
def State.aliasSign (s : State) (h : List Byte) : List Byte × List Byte × State :=
  let rs := p384.sign (p384.scalar (s.skn.slot 17).bytes) (number (s.randomBytes 64) % (p384.n - 1) + 1) h
  let s := s.drbgUsed 64
  let seed := (s.skn.slot 18).bytes
  let m := (mldsaSign 3 seed (mldsaMu (mldsaPublic 3 seed) h) (s.randomBytes 32)).1
  let s := s.drbgUsed 32
  (octets 48 rs.1 ++ octets 48 rs.2, m, s.pkeRan [1, 3] 2)

/-- An accepted GY_HELLO: N_B, a holder, the challenge (R689). -/
def State.gyChallenge (s : State) (hello leafP leafM ski : List Byte) : State :=
  let nb := s.randomBytes 32
  let s := s.drbgUsed 32
  let id := s.gyNewId
  let (h, s) := (s.drawn 1).fillHolder 64
  let x : PkeHolder := SMap.get {} s.pke.holders h
  let signed := (s.skn.slot 17).valid && (s.skn.slot 18).valid
  let head := leBytes 4 id ++ [BitVec.ofNat 8 h, BitVec.ofNat 8 (b2n signed), 0, 0] ++ nb ++ fitBytes 1568 (mlkemPublic 5 x.dz) ++ fitBytes 96 (p384.pub x.scalar)
  let h1 := sha384 (ascii "RDS2-GY" ++ hello ++ head)
  let (g1, g2, s) := if signed then s.aliasSign h1 else ([], [], s)
  let body := head ++ fitBytes 96 g1 ++ fitBytes 4627 g2 ++ zeros 5 ++ (if signed then s.chain.flatten else (s.chain.drop 1).flatten)
  let s := s.setGy { s.gy with nextId := s.gy.nextId + 1
                               shakes := s.gy.shakes ++ [{ id := id, holder := h, h1 := h1, leafP384 := leafP, leafMldsa := leafM, ski := ski, time := s.bnd.timebase }] }
  s.gyMsg (.session id false) 0x02 body

/-- The leaf and the hash of the root's keys of an operator chain in the profile, signed whole, with a leaf that signs (R688). -/
def operatorChain (certs : List (List Byte)) : Option (Cert × List Byte) :=
  match parseCerts certs with
  | some (leaf :: l) => if chainSigned (leaf :: l) ∧ leaf.uses 0 then (l.getLast?).map fun r => (leaf, r.rootHash) else none
  | _ => none

/-- GY_HELLO (R688, R689). -/
def gyHello (s : State) (b : List Byte) : State :=
  if ¬ s.stewardRuns then s
  else if b.length < 64 ∨ leNat (sub b 32 4) ≠ b.length - 64 ∨ sub b 36 28 ≠ zeros 28 then s.gyRefuse 0x01 0x0F01
  else
    let certs := derSplit 6 (b.drop 64)
    match (if 2 ≤ certs.length ∧ certs.length ≤ 5 then operatorChain certs else none) with
    | none => s.gyRefuse 0x01 0x0F03
    | some (leaf, root) =>
      if root ≠ s.authoriser then s.gyRefuse 0x01 0x0F03
      else if 2 ≤ s.gy.shakes.length ∨ 4 ≤ s.gy.sessions.length ∨ (s.freeHolders 64).isEmpty then s.gyRefuse 0x01 0x0F06
      else if ¬ s.skn.drbgReady 0 then s.gyRefuse 0x01 0x020A
      else s.gyChallenge b leaf.pubP leaf.pubM leaf.ski

/-- Keeper refuses what names a holder that is assigned to no handshake (R692). Its other requests on mailbox 76 are those of RPT_REQ and KEY_REQ. -/
def State.gyOwns (s : State) (x : GyShake) : Bool := s.gy.shakes.any fun y => y.holder = x.holder

/-- The pending handshake fails: answered in its session, and forgotten. -/
def State.gyFails (s : State) (x : GyShake) (st : Status) : State := (s.gyRefuse 0x03 st (.session x.id false)).gyForget x

/-- The parts of a holder have been used, and the handshake goes on as a session or not at all (R348). -/
def State.gyUsed (s : State) (x : GyShake) : State :=
  (s.emptyHolder x.holder).setGy { s.gy with shakes := s.gy.shakes.filter fun y => y.id ≠ x.id }

/-- Keeper's part of an accepted GY_FINISH (R690): decapsulation, agreement, derivation, the two blobs. Which free slots it uses is open. -/
def State.gyKeys (s : State) (x : GyShake) (b h2 : List Byte) : State :=
  let k : PkeHolder := SMap.get {} s.pke.holders x.holder
  let end_ : GyEnd := .session x.id false
  let free := (List.range' 64 192).filter fun i => ¬ (s.skn.slot i).valid ∧ ¬ (s.skn.slot i).erasing
  let n := (s.draw 16).toNat % max 1 free.length
  let pick := (free.drop n ++ free.take n).take 5
  let s := s.drawn 1
  if ¬ s.gyOwns x ∨ ¬ s.skn.drbgReady 0 ∨ pick.length < 5 then s.gyFails x 0x0F05
  else
  let s := s.pkeRan [1, 5] 1
  let peer := (number (sub b 1572 48), number (sub b 1620 48))
  let shared := if p384.onCurve peer.1 peer.2 && peer.1 < p384.p && peer.2 < p384.p then p384.mul k.scalar (some peer) else none
  let fails (s : State) : State := (s.gyRefuse 0x03 0x0F05 end_).gyUsed x
  match shared with
  | none => fails ((pick.take 1).foldl State.slotSpent { s with pke := { s.pke with cntRefused := s.pke.cntRefused + 1 } })
  | some q =>
    let s := (pick.take 3).foldl State.slotSpent (s.pkeRan [] 1)
    let kek : Key256 := ofLeBytes 256 (derive (fitBytes 32 (mlkemDecaps 5 k.dz (sub b 4 1568))) "kem" (octets 48 q.1) h2 32)
    let key (r : Nat) : Option (List Byte) :=
      let blob := sub b (1668 + 60 * r) 60
      gcmOpen kek (blob.take 12) (h2 ++ [BitVec.ofNat 8 r]) (sub blob 12 32) (ofLeBytes 128 (blob.drop 44))
    match key 0, key 1, pick.drop 3 with
    | some k0, some k1, [a0, a1] =>
      let attr (usage : Nat) : BitVec 32 := BitVec.ofNat 32 (packN [(0, usage), (2 + engDig, 1), (11, 64)])
      let s := s.setSkn (s.skn.setSlot a0 ((s.skn.slot a0).fill (attr 0) 5 k0))
      let s := s.setSkn (s.skn.setSlot a1 ((s.skn.slot a1).fill (attr 1) 5 k1))
      let flow := ((s.gy.shake x.id).map (·.flow)).getD x.flow
      let s := s.gyUsed x
      let s := s.setGy { s.gy with sessions := s.gy.sessions ++ [{ id := x.id, slot0 := a0, slot1 := a1, ski := x.ski, last := s.bnd.timebase, mgmt := flow }] }
      (s.gyMsg end_ 0x04 (leBytes 4 x.id ++ leBytes 8 s.bnd.timebase)).logItems 0x0F000080 [number x.ski]
    | some _, _, a0 :: _ => fails (s.slotSpent a0)
    | _, _, _ => fails s

/-- GY_FINISH (R690). One that names no pending session is stale for the oldest pending one: Steward answers there, and Keeper clears its holder (log
entry 34). -/
def gyFinish (s : State) (b : List Byte) : State :=
  if ¬ s.stewardRuns then s
  else if b.length ≠ 6511 then s.gyRefuse 0x03 0x0F01
  else match s.gy.shakes.find? fun x => leBytes 4 x.id = sub b 0 4 with
    | none => match s.gy.shakes with
      | x :: _ => s.gyFails x 0x0F07
      | [] => s.gyRefuse 0x03 0x0F07
    | some x =>
      if x.time.toNat + 10000000000 < s.now then s.gyFails x 0x0F07
      else
        let h2 := sha384 (x.h1 ++ sub b 0 1788)
        let q := (number (sub x.leafP384 0 48), number (sub x.leafP384 48 48))
        if p384.verify q (number (sub b 1788 48)) (number (sub b 1836 48)) h2 ∧ mldsaVerify 3 x.leafMldsa (mldsaMu x.leafMldsa h2) (sub b 1884 4627) then s.gyKeys x b h2
        else s.gyRefuse 0x03 0x0F04 (.session x.id false)

/-- GY_CHALLENGE_EXPIRE: 10 s without a GY_FINISH. -/
def challengeExpire (s : State) (id : BitVec 32) : State :=
  match s.gy.shakes.find? fun x => x.id = id with
  | some x => (s.at (x.time.toNat + 10000000000)).gyForget x
  | none => s

def execGyHello (body : List Byte) (s : State) : Host.Outcome State Fault Refusal := .next (gyHello s body)
def execGyFinish (body : List Byte) (s : State) : Host.Outcome State Fault Refusal := .next (gyFinish s body)
def execGyChallengeExpire (session : BitVec 32) (s : State) : Host.Outcome State Fault Refusal := .next (challengeExpire s session)

/-! ### Operator requests -/

/-- A request of an open session while Steward runs: `k` is told how to answer. -/
def State.gyReq (s : State) (id : BitVec 32) (update : Bool) (type : BitVec 16) (k : (State → Status → List Byte → State) → State) : State :=
  if s.stewardRuns ∧ (s.gy.session id).isSome then k (fun s st body => s.gyReply (.session id update) type st body) else s

/-- The offset and width of a register request, naturally aligned. -/
def gyRegForm (b : List Byte) (n : Nat) : Bool :=
  b.length = n && (leNat (sub b 8 1) = 4 || leNat (sub b 8 1) = 8) && sub b 9 7 = zeros 7 && leNat (sub b 0 8) % leNat (sub b 8 1) = 0

def gyRegRead (s : State) (id : BitVec 32) (b : List Byte) : State :=
  s.gyReq id false 0x10 fun ans =>
    if ¬ gyRegForm b 16 then ans s 0x0F01 []
    else
      let r := regRead s .O (leNat (sub b 0 8)) (leNat (sub b 8 1))
      ans r.1 0 (fitBytes 8 r.2)

def gyRegWrite (s : State) (id : BitVec 32) (b : List Byte) : State :=
  s.gyReq id false 0x11 fun ans =>
    if ¬ gyRegForm b 24 then ans s 0x0F01 []
    else ans (regWrite s .O (leNat (sub b 0 8)) (sub b 16 (leNat (sub b 8 1))) true) 0 []

/-- GY_CMD: the descriptor goes into a free slot of queue 68, which one is open, and is submitted by Steward. -/
def gyCmd (s : State) (id : BitVec 32) (b : List Byte) : State :=
  s.gyReq id false 0x12 fun ans =>
    let free := (List.range 16).filter fun i => ¬ s.cmd.held 68 i
    if b.length ≠ 64 then ans s 0x0F01 []
    else match free[(s.draw 16).toNat % max 1 free.length]? with
      | none => ans s 0x0F06 []
      | some slot =>
        let s := s.drawn 1
        let s := { s with cmd := { s.cmd with slots := SMap.set 0 s.cmd.slots (16 * 68 + slot) (ofLeBytes 512 b), awaited := s.cmd.awaited ++ [(68, slot)] } }
        submit (s.setGy { s.gy with waits := s.gy.waits ++ [{ session := id, slot := slot }] }) .S 68 (ofBits 16 [slot])

/-- GY_REPORT: queued for mailbox 76. -/
def gyReport (s : State) (id : BitVec 32) (b : List Byte) : State :=
  s.gyReq id false 0x13 fun ans =>
    if b.length ≠ 64 ∨ sub b 48 12 ≠ zeros 12 then ans s 0x0F01 []
    else s.setGy { s.gy with reports := s.gy.reports ++ [{ session := id, request := b }] }

def gyLog (s : State) (id : BitVec 32) (b : List Byte) : State :=
  s.gyReq id false 0x14 fun ans =>
    let n := leNat (sub b 4 4)
    if b.length ≠ 8 ∨ n = 0 ∨ 4095 < n then ans s 0x0F01 []
    else ans s 0 ((List.range n).flatMap fun i => (SMap.get {} s.snt.ring ((leNat (sub b 0 4) + i) % sntSize)).bytes)

def gyFiSet (s : State) (id : BitVec 32) (b : List Byte) : State :=
  s.gyReq id false 0x15 fun ans => if b.length ≠ 8 then ans s 0x0F01 [] else ans (s.gyFi (ofLeBytes 64 b)) 0 []

def gyClose (s : State) (id : BitVec 32) (b : List Byte) : State :=
  s.gyReq id false 0x16 fun ans => if ¬ b.isEmpty then ans s 0x0F01 [] else (ans s 0 []).gyEndSession id 0

def execGyRegRead (session : BitVec 32) (body : List Byte) (s : State) : Host.Outcome State Fault Refusal := .next (gyRegRead s session body)
def execGyRegWrite (session : BitVec 32) (body : List Byte) (s : State) : Host.Outcome State Fault Refusal := .next (gyRegWrite s session body)
def execGyCmd (session : BitVec 32) (body : List Byte) (s : State) : Host.Outcome State Fault Refusal := .next (gyCmd s session body)
def execGyReport (session : BitVec 32) (body : List Byte) (s : State) : Host.Outcome State Fault Refusal := .next (gyReport s session body)
def execGyLog (session : BitVec 32) (body : List Byte) (s : State) : Host.Outcome State Fault Refusal := .next (gyLog s session body)
def execGyFiSet (session : BitVec 32) (body : List Byte) (s : State) : Host.Outcome State Fault Refusal := .next (gyFiSet s session body)
def execGyClose (session : BitVec 32) (body : List Byte) (s : State) : Host.Outcome State Fault Refusal := .next (gyClose s session body)

/-- Answer the operator commands whose completions have been written (R694). -/
def State.gyWaits (s : State) : State :=
  s.gy.waits.foldl (fun s w => match s.cmd.takeRecords 68 w.slot with
    | some (recs, c) =>
      let s := { s with cmd := c }
      (s.setGy { s.gy with waits := s.gy.waits.erase w }).gyReply (.session w.session false) 0x12 0 (recs.flatMap (leBytes 32))
    | none => s) s

/-- The first GY_REPORT goes on: its request to mailbox 76 with a buffer of Steward's own, which one is open; then its answer (R695). -/
def State.gyReports (s : State) : State :=
  match s.gy.reports with
  | [] => s
  | r :: l =>
    let x := s.cmd.mailbox 76
    if ¬ r.sent then
      if ¬ x.en ∨ x.up.full ∨ x.down.full then s
      else
        let a := (s.draw 46).toNat * 64
        let msg := sub r.request 0 48 ++ leBytes 8 (BitVec.ofNat 64 a) ++ leBytes 4 (BitVec.ofNat 32 65536) ++ sub r.request 60 4
        let s := (s.drawn 1).mbUpd 76 false fun d => (d.write 0 msg).send 64
        s.setGy { s.gy with reports := { r with sent := true, addr := a } :: l }
    else if ¬ r.answer.isEmpty ∨ ¬ x.down.full then s
    else
      let m := leBytes x.down.length.toNat x.down.buf
      if m.headD 0 ≠ 0x81 then s
      else
        let s := s.mbUpd 76 true MbDir.done
        if sub m 2 2 = [0, 0] then
          (s.setGy { s.gy with reports := { r with answer := m } :: l }).requestSpan .gyReport 65 r.addr (leNat (sub m 16 4))
        else (s.setGy { s.gy with reports := l }).gyReply (.session r.session false) 0x13 0 m

/-- The report has been read back. -/
def State.gyReportRead (s : State) : State :=
  match s.gy.reports with
  | r :: l =>
    if ¬ s.ownDone .gyReport then s
    else
      let rep := spanBytes (s.ownOf .gyReport) r.addr (leNat (sub r.answer 16 4))
      ((s.ownDrop .gyReport).setGy { s.gy with reports := l }).gyReply (.session r.session false) 0x13 0 (r.answer ++ rep)
  | [] => s.ownDrop .gyReport

/-! ### Firmware update -/

/-- Checks 2 to 5 of R702, the last only outside ROM recovery. -/
def uploadCheck (s : State) (b : List Byte) (rom : Bool) : Option Status :=
  let k := leNat (sub b 0 1)
  let n := leNat (sub b 4 4)
  if s.gy.upload.isSome then some 0x0F12
  else if 2 < k then some 0x0F10
  else if n < 8193 ∨ (stageRegion k).2 < n then some 0x0F11
  else if ¬ rom ∧ (s.fl.hdrKind k).state ≠ 0 then some 0x0F13
  else none

/-- Open an upload. -/
def State.openUpload (s : State) (b : List Byte) (session : Option (BitVec 32)) : State :=
  s.setGy { s.gy with upload := some { kind := BitVec.ofNat 2 (leNat (sub b 0 1)), bytes := leNat (sub b 4 4), sdigest := sub b 8 48, session := session } }

/-- The bytes of an UPD_BEGIN. -/
def beginForm (b : List Byte) : Bool := b.length = 56 && sub b 1 3 = zeros 3

def updBegin (s : State) (id : BitVec 32) (b : List Byte) : State :=
  s.gyReq id true 0x20 fun ans =>
    if ¬ beginForm b then ans s 0x0F01 []
    else if ¬ s.bnd.ready then ans s 0x0F17 []
    else match uploadCheck s b false with
      | some st => ans s st []
      | none => ans (s.openUpload b (some id)) 0 []

/-- Abandon the upload; the header stays (R701). -/
def State.abandonUpload (s : State) : State := s.setGy { s.gy with upload := none }

/-- The sectors whose first byte lies in the span. -/
def newSectors (a n : Nat) : List Nat := (List.range' ((a + 4095) / 4096) ((a + n + 4095) / 4096 - (a + 4095) / 4096))

/-- The flash takes the span: the device answers, an erase is not refused while PWR_WARN_N is low, Steward's region is open to it (R445, R706). -/
def State.flashTakes (s : State) (rom : Bool) (a n : Nat) : Bool :=
  s.fl.ok && (!s.bnd.pwrWarn || (newSectors a n).isEmpty) && (rom || (match flashRegion a with | some r => bit s.fl.acl r | none => false))

/-- UPD_DATA and REC_DATA (R703): `flash` says whether the erases and programs verify; `ans` answers. -/
def uploadData (s : State) (u : Upload) (b : List Byte) (rom flash : Bool) (ans : State → Status → List Byte → State) : State :=
  let data := b.drop 8
  let base := (if rom then imageRegion u.kind.toNat else stageRegion u.kind.toNat).1
  let a := base + u.received
  let n := data.length
  if b.length < 9 ∨ 131064 < n then ans s 0x0F01 []
  else if leNat (sub b 0 8) ≠ u.received then ans s 0x0F14 []
  else if u.bytes < u.received + n then ans s.abandonUpload St.lengthLong []
  else if ¬ s.flashTakes rom a n then ans s.abandonUpload 0x0F18 []
  else
    let f := (newSectors a n).foldl (fun (f : Flash) i => f.erase (4096 * i) 4096) s.fl
    if flash then
      let s := (s.setFl (f.place a data)).setGy { s.gy with upload := some { u with received := u.received + n } }
      ans s 0 (leBytes 8 (BitVec.ofNat 64 (u.received + n)))
    else ans ((s.drawn n).setFl (f.place a ((List.range n).map fun i => s.drawAt 8 i))).abandonUpload 0x0F18 []

/-- The open upload of a session. -/
def State.uploadOf (s : State) (session : Option (BitVec 32)) : Option Upload := s.gy.upload.filter fun u => u.session = session

def updData (s : State) (id : BitVec 32) (b : List Byte) (flash : Bool) : State :=
  s.gyReq id true 0x21 fun ans => match s.uploadOf (some id) with
    | some u => uploadData s u b false flash ans
    | none => ans s 0x0F02 []

/-- Checks 1 and 2 of R704 on the bytes written at `base`. -/
def uploadDone (s : State) (u : Upload) (base : Nat) : Option Status :=
  if u.received < u.bytes then some St.lengthShort else if sha384 (s.fl.read base u.bytes) ≠ u.sdigest then some 0x0F15 else none

def updEnd (s : State) (id : BitVec 32) (b : List Byte) (torn : Bool) : State :=
  s.gyReq id true 0x22 fun ans => match s.uploadOf (some id) with
    | none => ans s 0x0F02 []
    | some u =>
      let k := u.kind.toNat
      if ¬ b.isEmpty then ans s 0x0F01 []
      else match uploadDone s u (stageRegion k).1 with
        | some st => ans s.abandonUpload st []
        | none =>
          if s.bnd.pwrWarn then ans s.abandonUpload 0x0F18 []
          else
            let c := s.abandonUpload.commitHeader k { s.fl.hdrKind k with state := 1, bytes := u.bytes, sdigest := u.sdigest } torn
            let s := c.1
            if ¬ c.2 then ans s 0x0A04 [] else (ans s 0 []).log 0x0F000083 (p0 := BitVec.ofNat 64 k) (p1 := ofLeBytes 64 (u.sdigest.take 8))

def updDiscard (s : State) (id : BitVec 32) (b : List Byte) : State :=
  s.gyReq id true 0x23 fun ans =>
    let k := leNat (sub b 0 1)
    if b.length ≠ 1 then ans s 0x0F01 []
    else if 2 < k then ans s 0x0F10 []
    else if s.gy.upload.any fun u => u.kind.toNat = k then ans s.abandonUpload 0 []
    else if (s.fl.hdrKind k).state = 1 then
      if s.bnd.pwrWarn then ans s 0x0F18 []
      else (ans (s.commitHeader k { s.fl.hdrKind k with state := 0 }).1 0 []).log 0x0F000089 (p0 := BitVec.ofNat 64 k)
    else ans s 0x0F13 []

/-- UPD_ACTIVATE: checkpoint and answer; the restart follows (R707). -/
def updActivate (s : State) (id : BitVec 32) (b : List Byte) : State :=
  s.gyReq id true 0x24 fun ans =>
    if ¬ b.isEmpty then ans s 0x0F01 []
    else if ¬ s.bnd.ready then ans s 0x0F17 []
    else if s.gy.upload.isSome then ans s 0x0F12 []
    else
      let s := ans (sinterCheckpoint s) 0 (leBytes 8 s.bnd.timebase)
      let last := match s.gy.flow (.session id true) with | some f => f.sent + f.queue.length | none => 0
      s.setGy { s.gy with activateAt := some s.bnd.timebase, activateBy := id, activateSeq := last }

/-- Keeper's restart, once the answer is acknowledged or 1 ms has passed. -/
def State.activateDue (s : State) : State :=
  match s.gy.activateAt with
  | some t => if (s.gy.sessions.all fun x => x.id ≠ s.gy.activateBy ∨ s.gy.activateSeq ≤ x.update.acked) ∨ t.toNat + 1000000 ≤ s.now then activateNow (s.setGy { s.gy with activateAt := none }) .K else s
  | none => s

/-- The SVN of the running image of a kind. -/
def Skein.runSvn (k : Skein) (n : Nat) : BitVec 16 := if n = 0 then k.keeperSvn else if n = 1 then k.stewardSvn else k.rowSvn
def Skein.runDigest (k : Skein) (n : Nat) : BitVec 384 := if n = 0 then k.keeperDig else if n = 1 then k.stewardDig else k.rowDig

/-- The programs that raise counter `k` from `c` to `v`: the word of bit v - 1 first (R373, R454). -/
def floorPrograms (k c v : Nat) : List (Nat × BitVec 32) :=
  ((List.range 8).reverse.map fun j => (0x4C8 + 8 * k + j, ofBits 32 ((List.range 32).filter fun i => c ≤ 32 * j + i ∧ 32 * j + i < v))).filter fun e => e.2 ≠ 0

/-- UPD_FLOOR (R454, R709): `burns` are the outcomes of the programs. The answer after a program that fails is open. -/
def updFloor (s : State) (id : BitVec 32) (b : List Byte) (burns : List Burn) : State :=
  s.gyReq id true 0x25 fun ans =>
    let k := leNat (sub b 0 1)
    let v := leNat (sub b 2 2)
    if b.length ≠ 4 ∨ sub b 1 1 ≠ [0] then ans s 0x0F01 []
    else if 2 < k then ans s 0x0F10 []
    else if ¬ s.bnd.readied.contains (k, s.skn.runDigest k) ∨ (s.skn.runSvn k).toNat < v ∨ 256 < v then ans s 0x0A07 (leBytes 2 (BitVec.ofNat 16 (s.otp.counter k)))
    else
      let c := s.otp.counter k
      let r := s.romProgramAll (floorPrograms k c v) burns
      let s := r.1
      let n := s.otp.counter k
      let s := if c < n then s.log 0x0F000085 (p0 := BitVec.ofNat 64 k) (p1 := BitVec.ofNat 64 n) else s
      match r.2.1 with
      | none => ans s 0 (leBytes 2 (BitVec.ofNat 16 n))
      | some _ => ans (s.drawn 1) (s.draw 16) (leBytes 2 (BitVec.ofNat 16 n))

/-- The 128 bytes of a kind in UPD_STATUS and REC_STATUS. -/
def State.kindStatus (s : State) (k : Nat) : List Byte :=
  let h := s.fl.hdrKind k
  [BitVec.ofNat 8 h.state, BitVec.ofNat 8 h.attempts] ++ leBytes 2 (s.skn.runSvn k) ++ leBytes 4 (BitVec.ofNat 32 h.bytes) ++ fitBytes 48 h.sdigest ++
  leBytes 48 (s.skn.runDigest k) ++ leBytes 2 (BitVec.ofNat 16 (s.otp.counter k)) ++ zeros 22

def updStatus (s : State) (id : BitVec 32) (b : List Byte) : State :=
  s.gyReq id true 0x26 fun ans =>
    if ¬ b.isEmpty then ans s 0x0F01 []
    else
      let up := match s.gy.upload with | some u => u.kind.setWidth 8 | none => (0xFF : Byte)
      let got := match s.gy.upload with | some u => u.received | none => 0
      ans s 0 ([0, 1, 2].flatMap s.kindStatus ++ [up, 0, 0, 0] ++ leBytes 4 (BitVec.ofNat 32 got) ++ (s.readBytes .K 0x1000 4).2 ++ (s.readBytes .K 0x1030 4).2)

def execUpdBegin (session : BitVec 32) (body : List Byte) (s : State) : Host.Outcome State Fault Refusal := .next (updBegin s session body)
def execUpdData (session : BitVec 32) (body : List Byte) (flash : Bool) (s : State) : Host.Outcome State Fault Refusal := .next (updData s session body flash)
def execUpdEnd (session : BitVec 32) (body : UpdEndReq) (s : State) : Host.Outcome State Fault Refusal := .next (updEnd s session body.bytes body.torn)
def execUpdDiscard (session : BitVec 32) (body : List Byte) (s : State) : Host.Outcome State Fault Refusal := .next (updDiscard s session body)
def execUpdActivate (session : BitVec 32) (body : List Byte) (s : State) : Host.Outcome State Fault Refusal := .next (updActivate s session body)
def execUpdFloor (session : BitVec 32) (body : List Byte) (burns : List Burn) (s : State) : Host.Outcome State Fault Refusal := .next (updFloor s session body burns)
def execUpdStatus (session : BitVec 32) (body : List Byte) (s : State) : Host.Outcome State Fault Refusal := .next (updStatus s session body)

/-! ### Recovery (R503, R710) -/

/-- A class 4 message in ROM recovery. -/
def State.recReq (s : State) (type : BitVec 16) (k : (State → Status → List Byte → State) → State) : State :=
  if s.bnd.recovery then k (fun s st body => s.gyReply .recovery type st body) else s

def recStatus (s : State) (b : List Byte) : State :=
  s.recReq 0x30 fun ans =>
    if ¬ b.isEmpty then ans s 0x0F01 []
    else ans s 0 ([0x1000, 0x1030, 0x0740000, 0x0700028].flatMap (fun o => (s.readBytes .K o 8).2) ++ s.otp.bytes 0x038 16 ++ [0, 1, 2].flatMap s.kindStatus)

def recBegin (s : State) (b : List Byte) : State :=
  s.recReq 0x31 fun ans =>
    if ¬ beginForm b then ans s 0x0F01 []
    else match uploadCheck s b true with
      | some st => ans s st []
      | none => ans (s.openUpload b none) 0 []

def recData (s : State) (b : List Byte) (flash : Bool) : State :=
  s.recReq 0x32 fun ans => match s.uploadOf none with
    | some u => uploadData s u b true flash ans
    | none => ans s 0x0F02 []

/-- REC_END: the image is verified where it was written; on success the ROM commits IDLE and starts over. -/
def recEnd (s : State) (b : List Byte) : State :=
  s.recReq 0x33 fun ans => match s.uploadOf none with
    | none => ans s 0x0F02 []
    | some u =>
      let k := u.kind.toNat
      let r := imageRegion k
      if ¬ b.isEmpty then ans s 0x0F01 []
      else match uploadDone s u r.1 with
        | some st => ans s.abandonUpload st []
        | none =>
          let s := s.abandonUpload
          if ¬ s.verifies k (s.fl.image r) r.2 then ans s 0x0F16 []
          else if s.bnd.pwrWarn then ans s 0x0F18 []
          else
            let s := (s.commitHeader k { s.fl.hdrKind k with state := 0, attempts := 0 }).1
            let s := (ans s 0 []).log 0x0F000088 (p0 := BitVec.ofNat 64 k)
            (s.setCo { s.co with failedStarts := 0 }).startOver

def execRecStatus (body : List Byte) (s : State) : Host.Outcome State Fault Refusal := .next (recStatus s body)
def execRecBegin (body : List Byte) (s : State) : Host.Outcome State Fault Refusal := .next (recBegin s body)
def execRecData (body : List Byte) (flash : Bool) (s : State) : Host.Outcome State Fault Refusal := .next (recData s body flash)
def execRecEnd (body : List Byte) (s : State) : Host.Outcome State Fault Refusal := .next (recEnd s body)

end Sys2Proof.Machine
end

