-- ==== Sys2Proof/Machine/Hangs.lean ====
section
/-! DEFINITION. The hang analysis of a knot-stall event: the wait-for graph and what Steward's report names (R641; log entry 21). -/
namespace Sys2Proof.Machine

def Knot.waiters (x : Knot) : List Waiter := x.hw ++ x.spill

/-- A site's current marker names domain `d`. -/
def State.siteRuns (s : State) (d : Dom) : Bool :=
  s.fum.sites.any fun e => match e.2.marker with | some m => decide (markerDom m = d.toNat) | none => false

/-- The knots that wait-for edges lead to from knot `k`: by the sites whose current marker names its owner domain, to the knots on which that
domain waits. -/
def State.waitNext (s : State) (k : Nat) : List Nat :=
  let o := (s.cmd.knot k).owner
  if s.siteRuns o then (s.cmd.knots.filter fun e => e.2.waiters.any fun w => w.dom = o).map (·.1) else []

/-- A path of the graph `next` that comes back to `goal`, breadth first: paths in reverse, and the nodes already reached. -/
def cycleSearch (next : Nat → List Nat) (goal : Nat) : Nat → List (List Nat) → List Nat → Option (List Nat)
  | 0, _, _ => none
  | n + 1, paths, seen =>
    match paths.find? fun p => (next (p.headD goal)).contains goal with
    | some p => some p.reverse
    | none =>
      let more := paths.foldl (fun (x : List (List Nat) × List Nat) p =>
        (next (p.headD goal)).foldl (fun y k => if y.2.contains k then y else ((k :: p) :: y.1, k :: y.2)) x) ([], seen)
      if more.1.isEmpty then none else cycleSearch next goal n more.1 more.2

/-- The knots on a cycle of the graph, from the lowest knot that lies on one. -/
def State.waitCycle (s : State) : Option (List Nat) :=
  (s.cmd.knots.map (·.1)).findSome? fun k => cycleSearch s.waitNext k s.cmd.knots.length [[k]] [k]

/-- The knots that have waiters, the one waited on longest first. -/
def State.longestWaited (s : State) : List Nat :=
  let since (e : Nat × Knot) : Nat := (e.2.waiters.map (·.seq)).min?.getD 0
  ((s.cmd.knots.filter fun e => !e.2.waiters.isEmpty).mergeSort fun a b => since a ≤ since b).map (·.1)

/-- The queues whose head has waited for more than 1,000 rows. -/
def State.longBlocked (s : State) : List Nat :=
  (s.cmd.queues.filter fun e => match e.2.order with
    | i :: _ => decide (waitCause s e.1 (s.cmd.slot e.1 i) ≠ 0 ∧ 1000 < s.row - e.2.headSince.toNat / 1000)
    | [] => false).map (·.1)

/-- What a hang report names: up to 16 knots, each with VALUE and lowest threshold, and the blocked queues. -/
def State.hangItems (s : State) : List Nat :=
  let knots := (s.waitCycle.getD s.longestWaited).take 16
  (knots.flatMap fun k => let x := s.cmd.knot k; [k, x.value.toNat, (x.waiters.map (·.threshold.toNat)).min?.getD 0]) ++ s.longBlocked

/-- HANG_REPORT: Steward answers a stall event, once for each. -/
def hangReport (s : State) : State :=
  if s.vent.hangs = 0 then s else (s.setVent { s.vent with hangs := s.vent.hangs - 1 }).logItems 0x0D0000C7 s.hangItems
def execHangReport (s : State) : Host.Outcome State Fault Refusal := .next (hangReport s)

end Sys2Proof.Machine
end

