-- ==== Sys2Proof/Machine/Requests.lean ====
section
/-! DEFINITION. Responses to the block's own requests on the hub NoC, and the reissue of those answered RETRY (R38, R39, R42, R209, R714). -/
namespace Sys2Proof.Machine

/-- The gate's own accesses, whose reissue is an event of its own (R209). -/
def Purpose.gate : Purpose → Bool
  | .wgSource _ | .wgDest _ | .wgLine _ | .wgZero _ => true
  | .cmd _ | .save _ | .dump | .keeper | .gyReport | .host | .abandoned | .restore => false

/-- An answer to a command of the command processor goes to its engine by the family of its opcode; one whose command ended is only accepted. -/
def State.cmdAnswer (s : State) (r : OwnReq) (t : Tag) (resp : Resp) (data : Line) : State :=
  let gone : State := { s with own := s.own.erase r }
  match s.cmd.flight t with
  | none => gone
  | some f =>
    match (Desc.opcode f.desc).toNat / 16 with
    | 1 => match s.skn.random with
      | some k => keyRandomResp gone (if resp = .retry then { k with retries := 16 } else k) resp r.code
      | none => gone
    | 2 => digAnswer s f r resp data
    | 3 => pkeAnswer s f resp
    | 8 => telemAnswer s f r resp
    | _ => gone

/-- An answered request goes to the unit that issued it. -/
def State.route (s : State) (r : OwnReq) (resp : Resp) (data : Line) : State :=
  match r.purpose with
  | .cmd t => s.cmdAnswer r t resp data
  | .wgSource c | .wgDest c | .wgLine c | .wgZero c => s.wgAnswer c r
  | .dump => s.dumpAnswer r resp
  | .keeper => keeperAnswer s
  | .gyReport => s.gyReportRead
  | .host => s.hostAnswer r
  | .save t => if resp ≠ .ok then s.cmdAnswer r t resp data else if s.ownDone (.save t) then s.plainGo t else s
  | .abandoned | .restore => { s with own := s.own.erase r }.restoreGo

/-- A request answered RETRY waits for its reissue: the gate's and KEY_RANDOM's up to 16 times (R209, R714), the others as often as it takes. -/
def State.sleeps (s : State) (r : OwnReq) : Bool :=
  match r.purpose with
  | .wgSource _ | .wgDest _ | .wgLine _ | .wgZero _ => decide (r.tries < 16)
  | .cmd t => match s.cmd.flight t with
    | some f => decide ((Desc.opcode f.desc).toNat / 16 ≠ 1 ∨ r.tries < 16)
    | none => false
  | .save t => (s.cmd.flight t).isSome
  | .abandoned => false
  | .dump | .keeper | .gyReport | .host | .restore => true

/-- NOC_RESPONSE: accepted as it comes; one that answers no outstanding request changes nothing (R39). Data comes with an OK of a read or a
query only (R42). -/
def nocResponse (s : State) (txid : BitVec 12) (resp : Resp) (data : Line) (code : Status) : State :=
  match s.own.findIdx? fun r => r.live && r.txid = txid with
  | none => s
  | some i => match s.own[i]? with
    | none => s
    | some r =>
      if resp = .retry ∧ s.sleeps r then State.pump 1 { s with own := s.own.set i { r with asleep := true, since := s.bnd.timebase } }
      else
        let data : Line := if resp = .ok ∧ (r.op = 0 ∨ r.op = 3) then data else 0
        let r := { r with answer := some (resp, data), code := code }
        State.pump 1 (State.route { s with own := s.own.set i r } r resp data)

/-- RESP of the wire; 6 and 7 are never sent. -/
def respOf (v : BitVec 3) : Option Resp :=
  match v.toNat with
  | 0 => some .ok | 1 => some .retry | 2 => some .staleEpoch | 3 => some .memIntegrity | 4 => some .refused | 5 => some .frozen | _ => none

def execNocResponse (txid : BitVec 12) (resp : BitVec 3) (data : Line) (code : Status) (s : State) : Host.Outcome State Fault Refusal :=
  .next (match respOf resp with | some r => nocResponse s txid r data code | none => s)

/-- Requests of the other purposes that were answered RETRY at least 1 us ago go out again. -/
def State.wakeOwn (s : State) : State :=
  let due (r : OwnReq) : Bool := r.asleep && !r.purpose.gate && decide (r.since.toNat + 1000 ≤ s.now)
  let n := (s.own.filter due).length
  State.pump n { s with own := s.own.map fun r => if due r then { r with asleep := false, sent := false, tries := r.tries + 1 } else r }

end Sys2Proof.Machine
end

