-- ==== Sys2Proof/Machine/RowTick.lean ====
section
/-! DEFINITION. The row tick: strobe, snapshot, seam and row of R24, and the early warning of supply failure (R67, R452). -/
namespace Sys2Proof.Machine

/-- TIMEBASE reaches the next multiple of 1,000 (R24). -/
def State.nextRow (s : State) : State := s.at (1000 * (s.row + 1))

/-- What the tick latches: how the row ended, zero statistics, counters, Vent's summary, parameters, sensors; then the snapshot (R24, R548). -/
def State.strobe (s : State) : State :=
  let s := ((s.setRe s.re.judge).zstTick).fumTick.ventTick
  let new := s.re.paramReq
  let s := s.paramCopy
  let snap := s.snapshot new
  let s := s.waveCount
  let s := (s.setRe { s.re.sensorAge with snap := snap }).sensorRow
  s.avsReads.govTick

/-- The seam: cycles 0 to 13 of the engine with the wave's release, the events of cycle 14, the bank switch of cycle 15 (R17, R528, R634). -/
def State.seam (s : State) : State :=
  let s := s.waveRelease.engineSeam
  let s := ((s.wgSeam [0, 1, 2, 3]).functionSeam).ventSeam
  s.bankSwitch

/-- Firmware's work that waits for completions, and reissues, once a row (log entry 40). -/
def State.rowFirmware (s : State) : State := (if s.stewardRuns then s.keyLoaded.headerIdle.storesRow.wearBases.gyWaits.gyReports.activateDue else s).wakeOwn

/-- ROW_TICK: `cycles` are the core cycles of the row that begins. While POR_N is low only TIMEBASE counts. The
Geyser lanes send what waits (R684). -/
def rowTick (s : State) (cycles : Nat) : State :=
  let s := s.nextRow
  if ¬ s.bnd.porN then s else (s.gyRow.strobe.seam.rowFirmware).runRow cycles

def execRowTick (cycles : BitVec 11) (s : State) : Host.Outcome State Fault Refusal := .next (rowTick s cycles.toNat)

/-- PWR_WARN_FALL: Steward, where it runs, writes its checkpoint (R452); what R67 stops reads the level. -/
def warnFall (s : State) : State :=
  if s.bnd.pwrWarn then s
  else
    let s := { s with bnd := { s.bnd with pwrWarn := true } }
    if s.stewardRuns then s.warnCheckpoint else s

def execPwrWarnFall (s : State) : Host.Outcome State Fault Refusal := .next (warnFall s)
def execPwrWarnRise (s : State) : Host.Outcome State Fault Refusal := .next { s with bnd := { s.bnd with pwrWarn := false } }

end Sys2Proof.Machine
end

