-- ==== Sys2Proof/Machine/Dispatch.lean ====
section
/-! DEFINITION. The meaning of each command: one arm per constructor, one direct call each. -/
namespace Sys2Proof.Machine

def exec (i : Instr) (s : State) : Host.Outcome State Fault Refusal :=
  match i with
  | .alwaysOnPowerUp => Sys2Proof.Machine.execAlwaysOnPowerUp s
  | .blockPowerLoss => Sys2Proof.Machine.execBlockPowerLoss s
  | .porNFall => Sys2Proof.Machine.execPorNFall s
  | .porNRise pkgSlot avsEn => Sys2Proof.Machine.execPorNRise pkgSlot avsEn s
  | .warmReset => Sys2Proof.Machine.execWarmReset s
  | .rowTick cycles => Sys2Proof.Machine.execRowTick cycles s
  | .thermTripFall => Sys2Proof.Machine.execThermTripFall s
  | .thermClampRelease => Sys2Proof.Machine.execThermClampRelease s
  | .pwrWarnFall => Sys2Proof.Machine.execPwrWarnFall s
  | .memtrnDoneFall slice => Sys2Proof.Machine.execMemtrnDoneFall slice s
  | .memtrnDoneRise slice => Sys2Proof.Machine.execMemtrnDoneRise slice s
  | .suspendHoldTimeout slice => Sys2Proof.Machine.execSuspendHoldTimeout slice s
  | .sitePresentFall site => Sys2Proof.Machine.execSitePresentFall site s
  | .snoop port addr => Sys2Proof.Machine.execSnoop port addr s
  | .readLine slice h => Sys2Proof.Machine.execReadLine slice h s
  | .writeLine slice h data => Sys2Proof.Machine.execWriteLine slice h data s
  | .writeMasked slice h data mask => Sys2Proof.Machine.execWriteMasked slice h data mask s
  | .zeroQuery slice h => Sys2Proof.Machine.execZeroQuery slice h s
  | .regRead h size => Sys2Proof.Machine.execRegRead h size s
  | .regWrite h size data => Sys2Proof.Machine.execRegWrite h size data s
  | .recordArrival slice page => Sys2Proof.Machine.execRecordArrival slice page s
  | .controllerReadReturn slice rid data side => Sys2Proof.Machine.execControllerReadReturn slice rid data side s
  | .reKnitCommit slice page => Sys2Proof.Machine.execReKnitCommit slice page s
  | .reKnitHoldTimeout slice txid => Sys2Proof.Machine.execReKnitHoldTimeout slice txid s
  | .nocResponse txid resp data code => Sys2Proof.Machine.execNocResponse txid resp data code s
  | .grdProtWrite cls data => Sys2Proof.Machine.execGrdProtWrite cls data s
  | .grdSyncReq cls data => Sys2Proof.Machine.execGrdSyncReq cls data s
  | .grdSyncDone => Sys2Proof.Machine.execGrdSyncDone s
  | .grdScrubReq cls data => Sys2Proof.Machine.execGrdScrubReq cls data s
  | .scrubPhysPassEnd => Sys2Proof.Machine.execScrubPhysPassEnd s
  | .scrubComplete => Sys2Proof.Machine.execScrubComplete s
  | .claimPassComplete dom => Sys2Proof.Machine.execClaimPassComplete dom s
  | .sqSubmit cls queue bits => Sys2Proof.Machine.execSqSubmit cls queue bits s
  | .descriptorDispatch queue => Sys2Proof.Machine.execDescriptorDispatch queue s
  | .dbSet cls mb down bits => Sys2Proof.Machine.execDbSet cls mb down bits s
  | .mbBufferWrite cls mb down off size data => Sys2Proof.Machine.execMbBufferWrite cls mb down off size data s
  | .send cls mb down len => Sys2Proof.Machine.execSend cls mb down len s
  | .done cls mb down => Sys2Proof.Machine.execDone cls mb down s
  | .mbLiveTimeout mb down => Sys2Proof.Machine.execMbLiveTimeout mb down s
  | .knotSignal tag => Sys2Proof.Machine.execKnotSignal tag s
  | .knotWait tag => Sys2Proof.Machine.execKnotWait tag s
  | .knotReset tag => Sys2Proof.Machine.execKnotReset tag s
  | .knotProbe tag => Sys2Proof.Machine.execKnotProbe tag s
  | .knotRegisterSignal cls knot data => Sys2Proof.Machine.execKnotRegisterSignal cls knot data s
  | .overflowWaiterMet knot => Sys2Proof.Machine.execOverflowWaiterMet knot s
  | .knotStall => Sys2Proof.Machine.execKnotStall s
  | .hangReport => Sys2Proof.Machine.execHangReport s
  | .keyWrite tag => Sys2Proof.Machine.execKeyWrite tag s
  | .keyGenerate tag => Sys2Proof.Machine.execKeyGenerate tag s
  | .keyDerive tag => Sys2Proof.Machine.execKeyDerive tag s
  | .keyUnwrap tag => Sys2Proof.Machine.execKeyUnwrap tag s
  | .keyWrap tag => Sys2Proof.Machine.execKeyWrap tag s
  | .keyErase tag => Sys2Proof.Machine.execKeyErase tag s
  | .keyEraseFinish slot => Sys2Proof.Machine.execKeyEraseFinish slot s
  | .keyLoadIde tag => Sys2Proof.Machine.execKeyLoadIde tag s
  | .keyRandom tag => Sys2Proof.Machine.execKeyRandom tag s
  | .sknMeasCommit cls => Sys2Proof.Machine.execSknMeasCommit cls s
  | .entropyStartupDone => Sys2Proof.Machine.execEntropyStartupDone s
  | .entropyTestFail samples => Sys2Proof.Machine.execEntropyTestFail samples s
  | .esRestart cls => Sys2Proof.Machine.execEsRestart cls s
  | .digOpen tag => Sys2Proof.Machine.execDigOpen tag s
  | .digOpenGrant => Sys2Proof.Machine.execDigOpenGrant s
  | .digUpdate tag => Sys2Proof.Machine.execDigUpdate tag s
  | .digFinish tag => Sys2Proof.Machine.execDigFinish tag s
  | .digCompare tag => Sys2Proof.Machine.execDigCompare tag s
  | .digClose tag => Sys2Proof.Machine.execDigClose tag s
  | .digestCoreSwitch core => Sys2Proof.Machine.execDigestCoreSwitch core s
  | .pkeSign tag => Sys2Proof.Machine.execPkeSign tag s
  | .pkeVerify tag => Sys2Proof.Machine.execPkeVerify tag s
  | .pkePubkey tag => Sys2Proof.Machine.execPkePubkey tag s
  | .pkeKeygen tag => Sys2Proof.Machine.execPkeKeygen tag s
  | .pkeEncaps tag => Sys2Proof.Machine.execPkeEncaps tag s
  | .pkeDecaps tag => Sys2Proof.Machine.execPkeDecaps tag s
  | .pkeEcdh tag => Sys2Proof.Machine.execPkeEcdh tag s
  | .pkeEphClear tag => Sys2Proof.Machine.execPkeEphClear tag s
  | .pkeAbort tag => Sys2Proof.Machine.execPkeAbort tag s
  | .pkeTakeUp => Sys2Proof.Machine.execPkeTakeUp s
  | .pkeComplete fault => Sys2Proof.Machine.execPkeComplete fault s
  | .pkeClearingEnd => Sys2Proof.Machine.execPkeClearingEnd s
  | .pkeSlotLenWrite cls value => Sys2Proof.Machine.execPkeSlotLenWrite cls value s
  | .wgOpen tag => Sys2Proof.Machine.execWgOpen tag s
  | .wgLoad tag => Sys2Proof.Machine.execWgLoad tag s
  | .wgContextStart => Sys2Proof.Machine.execWgContextStart s
  | .wgDestCheck ctx => Sys2Proof.Machine.execWgDestCheck ctx s
  | .wgChunk ctx => Sys2Proof.Machine.execWgChunk ctx s
  | .wgRetryReissue ctx addr => Sys2Proof.Machine.execWgRetryReissue ctx addr s
  | .partClaim tag => Sys2Proof.Machine.execPartClaim tag s
  | .partKey tag => Sys2Proof.Machine.execPartKey tag s
  | .partStart tag => Sys2Proof.Machine.execPartStart tag s
  | .partMigrate tag => Sys2Proof.Machine.execPartMigrate tag s
  | .partFreeze tag => Sys2Proof.Machine.execPartFreeze tag s
  | .partThaw tag => Sys2Proof.Machine.execPartThaw tag s
  | .partReset tag => Sys2Proof.Machine.execPartReset tag s
  | .partBindoff tag => Sys2Proof.Machine.execPartBindoff tag s
  | .partRelease tag => Sys2Proof.Machine.execPartRelease tag s
  | .linkJob tag => Sys2Proof.Machine.execLinkJob tag s
  | .linkRekey tag => Sys2Proof.Machine.execLinkRekey tag s
  | .linkEnd tag => Sys2Proof.Machine.execLinkEnd tag s
  | .linkProbe tag => Sys2Proof.Machine.execLinkProbe tag s
  | .linkTxFrame lane prot job frame => Sys2Proof.Machine.execLinkTxFrame lane prot job frame s
  | .linkRxFrame lane frame => Sys2Proof.Machine.execLinkRxFrame lane frame s
  | .reorderFlush lane => Sys2Proof.Machine.execReorderFlush lane s
  | .fiModeWrite cls mode => Sys2Proof.Machine.execFiModeWrite cls mode s
  | .lnkFiWrite cls lane data => Sys2Proof.Machine.execLnkFiWrite cls lane data s
  | .dumpArm tag => Sys2Proof.Machine.execDumpArm tag s
  | .dumpPoint tag => Sys2Proof.Machine.execDumpPoint tag s
  | .dumpDisarm tag => Sys2Proof.Machine.execDumpDisarm tag s
  | .dumpRun => Sys2Proof.Machine.execDumpRun s
  | .telemMark tag => Sys2Proof.Machine.execTelemMark tag s
  | .telemRead tag => Sys2Proof.Machine.execTelemRead tag s
  | .telemDrain tag => Sys2Proof.Machine.execTelemDrain tag s
  | .markerPost h size data => Sys2Proof.Machine.execMarkerPost h size data s
  | .siteAddPost h counter size data => Sys2Proof.Machine.execSiteAddPost h counter size data s
  | .pcSamplePost h size data => Sys2Proof.Machine.execPcSamplePost h size data s
  | .regionCyclesPost h region size data => Sys2Proof.Machine.execRegionCyclesPost h region size data s
  | .intAddPost h counter size data => Sys2Proof.Machine.execIntAddPost h counter size data s
  | .testUnit tag => Sys2Proof.Machine.execTestUnit tag s
  | .testProbe tag => Sys2Proof.Machine.execTestProbe tag s
  | .testFence tag => Sys2Proof.Machine.execTestFence tag s
  | .deferredTestStart unitId => Sys2Proof.Machine.execDeferredTestStart unitId s
  | .selfTestStart => Sys2Proof.Machine.execSelfTestStart s
  | .selfTestEnd unitId pass => Sys2Proof.Machine.execSelfTestEnd unitId pass s
  | .calderaCopyEnd bank => Sys2Proof.Machine.execCalderaCopyEnd bank s
  | .ventReport h size data => Sys2Proof.Machine.execVentReport h size data s
  | .ventReportExpire handle => Sys2Proof.Machine.execVentReportExpire handle s
  | .sntAppend cls data => Sys2Proof.Machine.execSntAppend cls data s
  | .sntCkptWrite cls value => Sys2Proof.Machine.execSntCkptWrite cls value s
  | .sinterCheckpoint => Sys2Proof.Machine.execSinterCheckpoint s
  | .wearLedgerCommit failsA failsB => Sys2Proof.Machine.execWearLedgerCommit failsA failsB s
  | .compaction burn => Sys2Proof.Machine.execCompaction burn s
  | .flRead cls chan addr len sram => Sys2Proof.Machine.execFlRead cls chan addr len sram s
  | .flProgram cls chan addr len sram => Sys2Proof.Machine.execFlProgram cls chan addr len sram s
  | .flErase cls chan addr => Sys2Proof.Machine.execFlErase cls chan addr s
  | .flOpComplete ok => Sys2Proof.Machine.execFlOpComplete ok s
  | .otpRead cls margin addr => Sys2Proof.Machine.execOtpRead cls margin addr s
  | .otpProgram cls addr => Sys2Proof.Machine.execOtpProgram cls addr s
  | .otpReburn cls addr => Sys2Proof.Machine.execOtpReburn cls addr s
  | .otpCheck cls addr => Sys2Proof.Machine.execOtpCheck cls addr s
  | .otpOpComplete burn => Sys2Proof.Machine.execOtpOpComplete burn s
  | .lcSessionOpen cls => Sys2Proof.Machine.execLcSessionOpen cls s
  | .lcTicketVerified burn => Sys2Proof.Machine.execLcTicketVerified burn s
  | .lcTransGo cls target => Sys2Proof.Machine.execLcTransGo cls target s
  | .lcTransitionPhase w0 w1 w2 w3 => Sys2Proof.Machine.execLcTransitionPhase w0 w1 w2 w3 s
  | .lcTransitionEnd => Sys2Proof.Machine.execLcTransitionEnd s
  | .lcDbgNew cls => Sys2Proof.Machine.execLcDbgNew cls s
  | .lcDbgGrant cls => Sys2Proof.Machine.execLcDbgGrant cls s
  | .lcGrantOpen burn => Sys2Proof.Machine.execLcGrantOpen burn s
  | .lcDbgLock cls => Sys2Proof.Machine.execLcDbgLock cls s
  | .lcGrantExpire => Sys2Proof.Machine.execLcGrantExpire s
  | .lcChallengeExpire => Sys2Proof.Machine.execLcChallengeExpire s
  | .castOnStage flash failed => Sys2Proof.Machine.execCastOnStage flash failed s
  | .co8Timeout => Sys2Proof.Machine.execCo8Timeout s
  | .co9Timeout => Sys2Proof.Machine.execCo9Timeout s
  | .castOnWatchdogExpire => Sys2Proof.Machine.execCastOnWatchdogExpire s
  | .coreFault fetch => Sys2Proof.Machine.execCoreFault fetch s
  | .runSram cls => Sys2Proof.Machine.execRunSram cls s
  | .rootReq burns => Sys2Proof.Machine.execRootReq burns s
  | .blockReady => Sys2Proof.Machine.execBlockReady s
  | .coWaveGo cls => Sys2Proof.Machine.execCoWaveGo cls s
  | .waveBegin => Sys2Proof.Machine.execWaveBegin s
  | .waveRailTimeout => Sys2Proof.Machine.execWaveRailTimeout s
  | .waveSettleOpen => Sys2Proof.Machine.execWaveSettleOpen s
  | .waveSettleDone => Sys2Proof.Machine.execWaveSettleDone s
  | .waveSettleTimeout => Sys2Proof.Machine.execWaveSettleTimeout s
  | .waveResume => Sys2Proof.Machine.execWaveResume s
  | .reRun cls => Sys2Proof.Machine.execReRun cls s
  | .reBankReq cls => Sys2Proof.Machine.execReBankReq cls s
  | .reClear cls => Sys2Proof.Machine.execReClear cls s
  | .reClearDone => Sys2Proof.Machine.execReClearDone s
  | .reParamCommit cls => Sys2Proof.Machine.execReParamCommit cls s
  | .nop => Sys2Proof.Machine.execNop s
  | .gAdd s1 pr rd ra rb => Sys2Proof.Machine.execGAdd s1 pr rd ra rb s
  | .gSub s1 pr rd ra rb => Sys2Proof.Machine.execGSub s1 pr rd ra rb s
  | .gAnd s1 pr rd ra rb => Sys2Proof.Machine.execGAnd s1 pr rd ra rb s
  | .gOr s1 pr rd ra rb => Sys2Proof.Machine.execGOr s1 pr rd ra rb s
  | .gXor s1 pr rd ra rb => Sys2Proof.Machine.execGXor s1 pr rd ra rb s
  | .gShl s1 pr rd ra rb => Sys2Proof.Machine.execGShl s1 pr rd ra rb s
  | .gShr s1 pr rd ra rb => Sys2Proof.Machine.execGShr s1 pr rd ra rb s
  | .gSra s1 pr rd ra rb => Sys2Proof.Machine.execGSra s1 pr rd ra rb s
  | .gMin s1 pr rd ra rb => Sys2Proof.Machine.execGMin s1 pr rd ra rb s
  | .gMax s1 pr rd ra rb => Sys2Proof.Machine.execGMax s1 pr rd ra rb s
  | .gMinu s1 pr rd ra rb => Sys2Proof.Machine.execGMinu s1 pr rd ra rb s
  | .gMaxu s1 pr rd ra rb => Sys2Proof.Machine.execGMaxu s1 pr rd ra rb s
  | .gAdds s1 pr rd ra rb => Sys2Proof.Machine.execGAdds s1 pr rd ra rb s
  | .gSubs s1 pr rd ra rb => Sys2Proof.Machine.execGSubs s1 pr rd ra rb s
  | .gAddi s1 pr rd ra imm => Sys2Proof.Machine.execGAddi s1 pr rd ra imm s
  | .gAndi s1 pr rd ra imm => Sys2Proof.Machine.execGAndi s1 pr rd ra imm s
  | .gShli s1 pr rd ra imm => Sys2Proof.Machine.execGShli s1 pr rd ra imm s
  | .gShri s1 pr rd ra imm => Sys2Proof.Machine.execGShri s1 pr rd ra imm s
  | .gSrai s1 pr rd ra imm => Sys2Proof.Machine.execGSrai s1 pr rd ra imm s
  | .gLdi s1 pr rd imm => Sys2Proof.Machine.execGLdi s1 pr rd imm s
  | .gLdih s1 pr rd imm => Sys2Proof.Machine.execGLdih s1 pr rd imm s
  | .gLidx s1 pr rd level => Sys2Proof.Machine.execGLidx s1 pr rd level s
  | .gMul pr rd ra rb => Sys2Proof.Machine.execGMul pr rd ra rb s
  | .gMulh pr rd ra rb => Sys2Proof.Machine.execGMulh pr rd ra rb s
  | .gQmul pr rd ra rb => Sys2Proof.Machine.execGQmul pr rd ra rb s
  | .gQmac pr rd ra rb => Sys2Proof.Machine.execGQmac pr rd ra rb s
  | .gMuli pr rd ra imm => Sys2Proof.Machine.execGMuli pr rd ra imm s
  | .gTmac pr acc ra rb err => Sys2Proof.Machine.execGTmac pr acc ra rb err s
  | .gTmacz pr acc ra rb err => Sys2Proof.Machine.execGTmacz pr acc ra rb err s
  | .gTrq pr acc ra sh relu => Sys2Proof.Machine.execGTrq pr acc ra sh relu s
  | .gTst32 pr acc ra => Sys2Proof.Machine.execGTst32 pr acc ra s
  | .gTld32 pr acc ra err => Sys2Proof.Machine.execGTld32 pr acc ra err s
  | .gLd64 pr rd ra imm err => Sys2Proof.Machine.execGLd64 pr rd ra imm err s
  | .gLd32s pr rd ra imm err => Sys2Proof.Machine.execGLd32s pr rd ra imm err s
  | .gLd32u pr rd ra imm err => Sys2Proof.Machine.execGLd32u pr rd ra imm err s
  | .gLd8s pr rd ra imm err => Sys2Proof.Machine.execGLd8s pr rd ra imm err s
  | .gSt64 pr rd ra imm => Sys2Proof.Machine.execGSt64 pr rd ra imm s
  | .gSt32 pr rd ra imm => Sys2Proof.Machine.execGSt32 pr rd ra imm s
  | .gSt16 pr rd ra imm => Sys2Proof.Machine.execGSt16 pr rd ra imm s
  | .gSt8 pr rd ra imm => Sys2Proof.Machine.execGSt8 pr rd ra imm s
  | .gLd64Post pr rd ra imm err => Sys2Proof.Machine.execGLd64Post pr rd ra imm err s
  | .gLd32sPost pr rd ra imm err => Sys2Proof.Machine.execGLd32sPost pr rd ra imm err s
  | .gLd32uPost pr rd ra imm err => Sys2Proof.Machine.execGLd32uPost pr rd ra imm err s
  | .gLd8sPost pr rd ra imm err => Sys2Proof.Machine.execGLd8sPost pr rd ra imm err s
  | .gSt64Post pr rd ra imm => Sys2Proof.Machine.execGSt64Post pr rd ra imm s
  | .gSt32Post pr rd ra imm => Sys2Proof.Machine.execGSt32Post pr rd ra imm s
  | .gSt16Post pr rd ra imm => Sys2Proof.Machine.execGSt16Post pr rd ra imm s
  | .gSt8Post pr rd ra imm => Sys2Proof.Machine.execGSt8Post pr rd ra imm s
  | .gPrb pr rd index => Sys2Proof.Machine.execGPrb pr rd index s
  | .gPrbx pr rd ra imm => Sys2Proof.Machine.execGPrbx pr rd ra imm s
  | .gPst pr rs index => Sys2Proof.Machine.execGPst pr rs index s
  | .gPstx pr rs ra imm => Sys2Proof.Machine.execGPstx pr rs ra imm s
  | .gDbset pr target bell => Sys2Proof.Machine.execGDbset pr target bell s
  | .gDbsetr pr target ra => Sys2Proof.Machine.execGDbsetr pr target ra s
  | .gDbclr pr target ra => Sys2Proof.Machine.execGDbclr pr target ra s
  | .gKsig pr ra rb => Sys2Proof.Machine.execGKsig pr ra rb s
  | .gSlog pr ra rb => Sys2Proof.Machine.execGSlog pr ra rb s
  | .gVack pr ra => Sys2Proof.Machine.execGVack pr ra s
  | .gRailok pr => Sys2Proof.Machine.execGRailok pr s
  | .gPset pr pd cond ra rb => Sys2Proof.Machine.execGPset pr pd cond ra rb s
  | .gPseti pr pd cond ra imm => Sys2Proof.Machine.execGPseti pr pd cond ra imm s
  | .gPlog pr pd lop pa pb => Sys2Proof.Machine.execGPlog pr pd lop pa pb s
  | .gLoop trip body => Sys2Proof.Machine.execGLoop trip body s
  | .gRowEnd => Sys2Proof.Machine.execGRowEnd s
  | .illegalStitch word bad => Sys2Proof.Machine.execIllegalStitch word bad s
  | .sensorReading slot word => Sys2Proof.Machine.execSensorReading slot word s
  | .avsReadback rail isStatus fault value => Sys2Proof.Machine.execAvsReadback rail isStatus fault value s
  | .govForceHoldWrite cls value => Sys2Proof.Machine.execGovForceHoldWrite cls value s
  | .holdExit => Sys2Proof.Machine.execHoldExit s
  | .govRailWrite cls rail vmin vmax => Sys2Proof.Machine.execGovRailWrite cls rail vmin vmax s
  | .loopbackTrained => Sys2Proof.Machine.execLoopbackTrained s
  | .bypassRelease => Sys2Proof.Machine.execBypassRelease s
  | .ringTrained => Sys2Proof.Machine.execRingTrained s
  | .ringTrainTimeout => Sys2Proof.Machine.execRingTrainTimeout s
  | .ringRetry => Sys2Proof.Machine.execRingRetry s
  | .laneLockLoss lane => Sys2Proof.Machine.execLaneLockLoss lane s
  | .geyserFrame lane frame bad => Sys2Proof.Machine.execGeyserFrame lane frame bad s
  | .enum lane count hops => Sys2Proof.Machine.execEnum lane count hops s
  | .geyserResendTimeout session update => Sys2Proof.Machine.execGeyserResendTimeout session update s
  | .ackOnlySend session update => Sys2Proof.Machine.execAckOnlySend session update s
  | .gyHello body => Sys2Proof.Machine.execGyHello body s
  | .gyFinish body => Sys2Proof.Machine.execGyFinish body s
  | .gySessionIdleTimeout session => Sys2Proof.Machine.execGySessionIdleTimeout session s
  | .gyRegRead session body => Sys2Proof.Machine.execGyRegRead session body s
  | .gyRegWrite session body => Sys2Proof.Machine.execGyRegWrite session body s
  | .gyCmd session body => Sys2Proof.Machine.execGyCmd session body s
  | .gyReport session body => Sys2Proof.Machine.execGyReport session body s
  | .gyLog session body => Sys2Proof.Machine.execGyLog session body s
  | .gyFiSet session body => Sys2Proof.Machine.execGyFiSet session body s
  | .gyClose session body => Sys2Proof.Machine.execGyClose session body s
  | .gyFiWrite cls data => Sys2Proof.Machine.execGyFiWrite cls data s
  | .gyFiSecond => Sys2Proof.Machine.execGyFiSecond s
  | .updBegin session body => Sys2Proof.Machine.execUpdBegin session body s
  | .updData session body flash => Sys2Proof.Machine.execUpdData session body flash s
  | .updEnd session body => Sys2Proof.Machine.execUpdEnd session body s
  | .updDiscard session body => Sys2Proof.Machine.execUpdDiscard session body s
  | .updActivate session body => Sys2Proof.Machine.execUpdActivate session body s
  | .updFloor session body burns => Sys2Proof.Machine.execUpdFloor session body burns s
  | .updStatus session body => Sys2Proof.Machine.execUpdStatus session body s
  | .activate cls => Sys2Proof.Machine.execActivate cls s
  | .recStatus body => Sys2Proof.Machine.execRecStatus body s
  | .recBegin body => Sys2Proof.Machine.execRecBegin body s
  | .recData body flash => Sys2Proof.Machine.execRecData body flash s
  | .recEnd body => Sys2Proof.Machine.execRecEnd body s
  | .rptReq mb => Sys2Proof.Machine.execRptReq mb s
  | .keyReq mb => Sys2Proof.Machine.execKeyReq mb s
  | .kemHolderExpire dom => Sys2Proof.Machine.execKemHolderExpire dom s
  | .siteAttestation site => Sys2Proof.Machine.execSiteAttestation site s
  | .chipletSpdmResponse site msg => Sys2Proof.Machine.execChipletSpdmResponse site msg s
  | .chipletSpdmTimeout site => Sys2Proof.Machine.execChipletSpdmTimeout site s
  | .attSiteTrust cls data => Sys2Proof.Machine.execAttSiteTrust cls data s
  | .spdmRequest msg => Sys2Proof.Machine.execSpdmRequest msg s
  | .getMeasurements nonce index => Sys2Proof.Machine.execGetMeasurements nonce index s
  | .keyProg secured stream kset sub tx key iv => Sys2Proof.Machine.execKeyProg secured stream kset sub tx key iv s
  | .kSetGo secured stream kset tx => Sys2Proof.Machine.execKSetGo secured stream kset tx s
  | .kSetStop secured stream kset tx => Sys2Proof.Machine.execKSetStop secured stream kset tx s
  | .query secured => Sys2Proof.Machine.execQuery secured s
  | .containmentEnter cause => Sys2Proof.Machine.execContainmentEnter cause s
  | .hwContRead cls => Sys2Proof.Machine.execHwContRead cls s
  | .hwContRelease cls value => Sys2Proof.Machine.execHwContRelease cls value s
  | .hwStrOpen cls stream => Sys2Proof.Machine.execHwStrOpen cls stream s
  | .hwStrClose cls stream => Sys2Proof.Machine.execHwStrClose cls stream s
  | .hwStrAbort cls stream => Sys2Proof.Machine.execHwStrAbort cls stream s
  | .streamApertureWrite stream off dws full => Sys2Proof.Machine.execStreamApertureWrite stream off dws full s
  | .streamBurstWrite stream off dws full relaxed => Sys2Proof.Machine.execStreamBurstWrite stream off dws full relaxed s
  | .streamIdleTimeout stream => Sys2Proof.Machine.execStreamIdleTimeout stream s
  | .hwWinWrite cls win hi data => Sys2Proof.Machine.execHwWinWrite cls win hi data s
  | .translationAccess off write bytes => Sys2Proof.Machine.execTranslationAccess off write bytes s
  | .registerWrite cls off size data full => Sys2Proof.Machine.execRegisterWrite cls off size data full s
  | .registerRead cls off size => Sys2Proof.Machine.execRegisterRead cls off size s
  | .sitePresentRise site => Sys2Proof.Machine.execSitePresentRise site s
  | .thermTripRise => Sys2Proof.Machine.execThermTripRise s
  | .pwrWarnRise => Sys2Proof.Machine.execPwrWarnRise s
  | .fecLockChange lane level => Sys2Proof.Machine.execFecLockChange lane level s
  | .gyChallengeExpire session => Sys2Proof.Machine.execGyChallengeExpire session s
  | .digBlockAbsorbed core flip => Sys2Proof.Machine.execDigBlockAbsorbed core flip s

end Sys2Proof.Machine
end

