-- ==== Sys2Proof/Safety.lean ====
section
/-! DEFINITION. What counts as a safe run of the block, in the terms that claims use. -/
namespace Sys2Proof.Machine

/-- No command was stopped: the step gave a next state. -/
def Completes (s : State) : Prop := ∃ t, step s = .next t

/-- The command runs to a next state of which `P` holds. -/
def Answers (i : Instr) (s : State) (P : State → Prop) : Prop := ∃ t, exec i s = .next t ∧ P t

/-- Every byte storage of the block is in its canonical form. -/
def State.storageOk (s : State) : Bool :=
  Memory.wf 0xFF s.fl.dev && Memory.wf 0 s.re.mem && Memory.wf 0 s.skn.keeperSram && Memory.wf 0 s.skn.stewardSram && Memory.wf 0 s.pke.mem

/-- Every bit that reads 1 at a reference in `o` reads 1 at it in `p`: no fuse is lost. -/
def Otp.keeps (o p : Otp) : Prop := ∀ a i,
  (((o.word a).hi.getLsbD i → (p.word a).hi.getLsbD i) ∧ ((o.word a).nrm.getLsbD i → (p.word a).nrm.getLsbD i) ∧
    ((o.word a).low.getLsbD i → (p.word a).low.getLsbD i))

/-- `t` is `s` behind a cold reset: every unit at its cold value; queue, fuses and an idle flash as they were (R31). -/
def State.Cold (s t : State) : Prop :=
  t.bnd.porN = false ∧ t.bnd.coStage = 0 ∧ t.bnd.ready = false ∧ t.bnd.everReady = false ∧ t.bnd.bypass = false ∧ t.bnd.siteTrusted = 0 ∧
  t.cmd = { mbSince := t.bnd.timebase } ∧ t.own = [] ∧ t.parts = [] ∧ t.guard = {} ∧ t.skn = {} ∧ t.wg = {} ∧ t.att = {} ∧ t.dig = {} ∧ t.pke = {} ∧ t.lnk = {} ∧ t.host = {} ∧
  t.re = {} ∧ t.gov = {} ∧ t.fum = {} ∧ t.vent = {} ∧ t.lc = {} ∧ t.co = {} ∧
  t.pending = s.pending ∧ s.otp.keeps t.otp ∧ (s.fl.run = none → t.fl.dev = s.fl.dev)

/-- Slice `n` admits the partition request and finds its page's record cached (R131, steps 1 to 8). -/
def State.Admits (s : State) (n : Nat) (h : NocHdr) : Prop :=
  hdrBarred h = false ∧ h.regOp = false ∧ h.dom.toNat < 64 ∧ (s.slice n).en = true ∧ s.sliceFenced n = false ∧ (s.slice n).suspended = false ∧
  s.trusts h.site = true ∧ (s.keyEntry h.dom.toNat).valid = true ∧ ((s.part h.dom.toNat).state = .keyed ∨ (s.part h.dom.toNat).state = .running) ∧
  s.guard.inWindow (pageOf h.addr) = true ∧ (s.slice n).blocked (pageOf h.addr) = false ∧
  (s.slice n).waiting.any (fun w => pageOf w.hdr.addr = pageOf h.addr) = false ∧ (s.slice n).cache.any (fun e => e.page = pageOf h.addr) = true

/-- The record of the requested page is the partition's, sound, and under no ingest (R131, steps 8 to 10). -/
def State.Owns (s : State) (n : Nat) (h : NocHdr) : Prop :=
  let t := s.touch n (pageOf h.addr)
  let r := t.pageRec n (pageOf h.addr)
  r.isSealed = true ∧ r.pid.toNat = h.dom.toNat ∧ r.kgen = (s.keyEntry h.dom.toNat).kgen ∧ r.quarantine = false ∧ t.inIngest h = false

/-- The dispatcher's round reaches queue `q` with no queue passed that could dispatch at the last visit (R94). -/
def State.RoundAt (s : State) (q : Nat) : Prop := ∀ i, i < roundFrom s.cmd.visited.toNat q → (s.cmd.visited.toNat + 1 + i) % 72 ∉ s.cmd.couldRun

/-- The record that the next completion of queue `q` writes in `t`, read at the TAIL of `s`. -/
def State.recordAt (s t : State) (q : Nat) : BitVec 256 := SMap.get 0 t.cmd.ring (32 * q + (s.cmd.queue q).tail.toNat % 32)

/-- Between `s` and `t` the command `f` completed with `st`: its record stands at TAIL, TAIL advanced by one, its tag is free (R96). -/
def State.Ended (s t : State) (f : Flight) (st : Status) : Prop :=
  t.cmd.flight f.tag = none ∧ (t.cmd.queue f.queue).tail = (s.cmd.queue f.queue).tail + 1 ∧ field (s.recordAt t f.queue) 0 16 = st

/-- It completed with this RESULT. -/
def State.EndedWith (s t : State) (f : Flight) (st : Status) (v : W64) : Prop :=
  s.Ended t f st ∧ (f.queue < 72 → f.slot < 16 → field (s.recordAt t f.queue) 128 64 = v)

/-- Between `s` and `t` the event `code` was appended: at PROD of the open log, or to the events that wait for it (R509, R642, R643). -/
def State.Logs (s t : State) (code : BitVec 32) : Prop :=
  if s.snt.opened then s.snt.lostSince = 0 → s.snt.pend < sntSize → (SMap.get {} t.snt.ring s.snt.prod.toNat).code = code
  else ∃ e ∈ t.snt.queue, e.code = code

/-- The command of function `op` holds the tag and has been dispatched. -/
def State.Runs (s : State) (tag : Tag) (op : BitVec 8) (f : Flight) : Prop := s.cmd.flight tag = some f ∧ Desc.opcode f.desc = op

/-- No two commands in flight hold one tag. -/
def State.TagsApart (s : State) : Prop := (s.cmd.flights.map (·.tag)).Nodup

/-- The row engine is running its row, and can issue a stitch of the program. -/
def State.Issues (s : State) : Prop := s.re.running = true ∧ s.re.ended = false ∧ s.re.fault = false ∧ s.re.pc ≤ 1023

/-- No row is in progress: none has begun, ROW_END has issued, or a row fault has stopped it (R526, R529, R561). -/
def State.RowOver (s : State) : Prop := s.re.running = false ∨ s.re.ended = true ∨ s.re.fault = true

/-- Nothing in flight falls due in this cycle. -/
def State.Quiet (s : State) : Prop := ∀ f ∈ s.re.flights, 1 < f.left

/-- The operations in flight after one more cycle. -/
def RowEngine.aged (x : RowEngine) : List RowFlight := x.flights.map fun f => { f with left := f.left - 1 }

/-- The engine behind the cycle in which slot `k` put the writes `w`, each with its latency, beside what was in flight: what falls due has
taken effect, lower slots first (R527, R535). -/
def RowEngine.after (x : RowEngine) (k : Nat) (w : List (Nat × RowWrite)) : RowEngine :=
  ({ x with flights := x.flights ++ w.map fun e => ({ left := e.1, slot := k, write := e.2 } : RowFlight) } : RowEngine).cycle

/-- Registers, memories, staging words and flights of the row engine are those of `y`. -/
def State.RowIs (t : State) (y : RowEngine) : Prop :=
  t.re.regs = y.regs ∧ t.re.preds = y.preds ∧ t.re.accs = y.accs ∧ t.re.mem = y.mem ∧ t.re.stage = y.stage ∧ t.re.flights = y.flights

/-- One stitch without a loop or an end has issued: of the row engine only the named fields may differ, of the rest nothing (R523, R547). -/
def State.Stitched (s t : State) : Prop :=
  (t = { s with re := t.re }) ∧ t.re.issued = s.re.issued + 1 ∧ t.re.pc = (nextPc s.re.loops s.re.pc).2 ∧ t.re.loops = (nextPc s.re.loops s.re.pc).1 ∧
  t.re = { s.re with
    regs := t.re.regs, preds := t.re.preds, accs := t.re.accs, mem := t.re.mem, stage := t.re.stage, flights := t.re.flights, events := t.re.events,
    cntDrop := t.re.cntDrop, dropped := t.re.dropped, cntCalconv := t.re.cntCalconv, cntEcc := t.re.cntEcc, pc := t.re.pc, issued := t.re.issued, loops := t.re.loops }

/-- Registers, memories, staging words and events of the row engine are as they were. -/
def State.RowKept (s t : State) : Prop :=
  t.re.regs = s.re.regs ∧ t.re.preds = s.re.preds ∧ t.re.accs = s.re.accs ∧ t.re.mem = s.re.mem ∧ t.re.stage = s.re.stage ∧ t.re.events = s.re.events

/-- The stitch put the writes `w` of slot `k` in flight, staged no event, and did nothing else. -/
def State.Wrote (s : State) (k : Nat) (w : List (Nat × RowWrite)) (t : State) : Prop :=
  s.Stitched t ∧ t.RowIs (s.re.after k w) ∧ t.re.events = s.re.events

/-- The stitch wrote nothing and put nothing in flight; where nothing falls due, nothing changes. -/
def State.Idled (s t : State) : Prop := s.Wrote 0 [] t ∧ (s.Quiet → s.RowKept t ∧ t.re.flights = s.re.aged)

/-- The stitch put one write in flight, `l` stitches from effect; where nothing falls due, it wrote nothing yet. -/
def State.Launched (s : State) (l k : Nat) (w : RowWrite) (t : State) : Prop :=
  s.Wrote k [(l, w)] t ∧ (s.Quiet → s.RowKept t ∧ t.re.flights = s.re.aged ++ [{ left := l - 1, slot := k, write := w }])

/-- The stitch wrote one scalar register at once, from slot `k`; where nothing falls due, it wrote nothing else. -/
def State.WroteReg (s : State) (k : Nat) (rd : BitVec 6) (v : W64) (t : State) : Prop :=
  s.Wrote k [(1, .scalar rd v)] t ∧ (s.Quiet → t.re.reg rd = v ∧ (∀ r, r ≠ rd → t.re.reg r = s.re.reg r) ∧ t.re.preds = s.re.preds ∧
    t.re.accs = s.re.accs ∧ t.re.mem = s.re.mem ∧ t.re.stage = s.re.stage ∧ t.re.flights = s.re.aged)

/-- The stitch wrote one predicate at once; where nothing falls due, it wrote nothing else. p0 reads true whatever is written (R532). -/
def State.WrotePred (s : State) (pd : BitVec 3) (b : Bool) (t : State) : Prop :=
  s.Wrote 7 [(1, .pred pd b)] t ∧ (s.Quiet → t.re.pred pd = (pd = 0 || b) ∧ (∀ q, q ≠ pd → t.re.pred q = s.re.pred q) ∧ t.re.regs = s.re.regs ∧
    t.re.accs = s.re.accs ∧ t.re.mem = s.re.mem ∧ t.re.stage = s.re.stage ∧ t.re.flights = s.re.aged)

/-- The stitch staged these events for the seam, and did nothing else. -/
def State.Staged (s : State) (e : RowEvents) (t : State) : Prop :=
  s.Stitched t ∧ t.RowIs (s.re.after 0 []) ∧ t.re.events = e ∧ (s.Quiet → t.re.regs = s.re.regs ∧ t.re.preds = s.re.preds ∧ t.re.accs = s.re.accs ∧
    t.re.mem = s.re.mem ∧ t.re.stage = s.re.stage ∧ t.re.flights = s.re.aged)

/-- A row fault stopped issue and is logged; what was in flight takes no effect (R529, R565). -/
def State.RowFaulted (s t : State) : Prop :=
  t.re.fault = true ∧ t.re.flights = [] ∧ t.re.issued = s.re.issued + 1 ∧ t.cmd = s.cmd ∧ t.out = s.out ∧ s.Logs t 0x0C000081

/-- The frame has left the port or stands in a queue of the station's own frames. -/
def State.SentOrQueued (t : State) (fr : List Byte) : Prop := (∃ l, Output.geyser l fr ∈ t.out) ∨ ∃ k, ∃ e ∈ t.gy.ownOf k, e.frame = fr

/-- No frame waits for a lane, and lane `l` is free. -/
def State.EgressFree (s : State) (l : Nat) : Prop := s.gy.waiting = 0 ∧ 0 < (s.gy.lane l).room

/-- The end can take an answer of one frame at once: nothing waits for its window or for a lane, and no injection runs. -/
def State.CanReply (s : State) (e : GyEnd) : Prop :=
  ∃ f, s.gy.flow e = some f ∧ f.queue = [] ∧ f.unacked.length < 64 ∧ s.gy.duration = 0 ∧ s.gy.waiting = 0

/-- The request of TYPE `type` at end `e` was answered with one frame, handed to the lanes and kept for acknowledgement: STATUS, two zero bytes, body. -/
def State.Replied (s t : State) (e : GyEnd) (type : BitVec 16) (st : Status) (body : List Byte) : Prop :=
  ∃ f f' fr, s.gy.flow e = some f ∧ t.gy.flow e = some f' ∧ f'.unacked = f.unacked ++ [(f.sent + 1, fr)] ∧ f'.sent = f.sent + 1 ∧
    (headOf fr).type = type + 0x80 ∧ sub fr 256 (4 + body.length) = leBytes 2 st ++ [0, 0] ++ body ∧ t.SentOrQueued fr

/-- Every word of the array that reads 1 at a stricter reference reads 1 at a laxer one. -/
def Otp.margins (o : Otp) : Prop := ∀ a i,
  ((o.word a).hi.getLsbD i → (o.word a).nrm.getLsbD i) ∧ ((o.word a).nrm.getLsbD i → (o.word a).low.getLsbD i)

end Sys2Proof.Machine
end

