-- ==== Sys2Proof/Certificates/Slice0/Obligations.lean ====
section
/-! DEFINITION. The statements for the provers. -/
open Sys2Proof Sys2Proof.Machine
/-- For every command c and state s whose queue begins with c, step s is exec c on s with the rest of the queue. The queue is the model's own form of what waits at the block (log entry 4). (95 what each step holds) -/
def Obligations.StepRunsTheCommandInFront : Prop :=
  ∀ (c : Instr) (rest : List Instr) (s : State), s.pending = c :: rest → step s = exec c { s with pending := rest }

/-- For each of the 307 commands of the table, with any operands and in any state of the block, exec answers a next state: no command of this block ends in a fault or a refusal of the machine. A request that the spec turns away is answered by its status. What each command does there the statements below say. (95 what each step holds) -/
def Obligations.EveryCommandAnswers : Prop :=
  ∀ (c : Instr) (s : State), ∃ t, exec c s = .next t

/-- In State.reset TIMEBASE is 0, POR_N is low, the stage is CO0, READY and the clamp are 0, no command waits and no fuse is set; the flash device reads 0xFF. Every bit of the array that reads 1 at a stricter reference reads 1 at the laxer ones. The flash contents (log entry 30) and the unburnt array (log entry 19) are the model's choice. (R23, R30, R73, R367, R368, R379) -/
def Obligations.ResetIsTheStateBehindPowerUp : Prop :=
  State.reset.bnd.timebase = 0 ∧ State.reset.bnd.porN = false ∧ State.reset.bnd.coStage = 0 ∧ State.reset.bnd.ready = false ∧
  State.reset.bnd.clamp = false ∧ State.reset.bnd.isolated = true ∧ State.reset.pending = [] ∧ State.reset.out = [] ∧ State.reset.own = [] ∧
  State.reset.storageOk = true ∧ (∀ a, (State.reset.otp.word a).nrm = 0) ∧ (∀ a, State.reset.fl.read a 1 = [0xFF]) ∧
  (∀ d, (State.reset.part d).state = .free) ∧ State.reset.otp.margins

/-- ALWAYS_ON_POWER_UP, BLOCK_POWER_LOSS and, while POR_N is high, POR_N_FALL answer a state in which every unit of the block is at its cold value, BYPASS_N is low, no fuse is lost and an idle flash keeps its contents. TIMEBASE is 0 after the first and unchanged after the others. (R31) -/
def Obligations.ColdResetsReturnTheBlockToItsStart : Prop :=
  ∀ s : State,
    Answers .alwaysOnPowerUp s (fun t => t.bnd.timebase = 0 ∧ t.bnd.lastReset = 0 ∧ s.Cold t) ∧
    Answers .blockPowerLoss s (fun t => t.bnd.timebase = s.bnd.timebase ∧ t.bnd.lastReset = 2 ∧ s.Cold t) ∧
    (s.bnd.porN = true → Answers .porNFall s fun t => t.bnd.timebase = s.bnd.timebase ∧ t.bnd.lastReset = 1 ∧ s.Cold t)

/-- While POR_N is low, POR_N_RISE records both strap levels and enters CO1 with the watchdog counting from now, everything else unchanged. While POR_N is high the straps keep what they hold. At READY with POR_N high WARM_RESET enters CO1, records cause 3 and its t0, drives TEST_GATE to 0, drops READY, stops the row engine, and clears the translation windows, the flash access list, Geyser's sessions and Keeper's request in progress. TIMEBASE is unchanged. Before the first READY, while READY is 0 and with POR_N low it changes nothing. (R32, R70, R73, R74, R75, R596, R666, R669) -/
def Obligations.PorRiseAndWarmReset : Prop :=
  (∀ (s : State) (pkg : BitVec 8) (avs : BitVec 4),
      (s.bnd.porN = false → exec (.porNRise pkg avs) s = .next { s with
        bnd := { s.bnd with porN := true, pkgSlot := pkg, avsEn := avs, coStage := 1 }
        co := { s.co with wdogFrom := s.bnd.timebase, wdogSkip := 0, times := SMap.set 0 s.co.times 0 s.bnd.timebase, stageAt := s.bnd.timebase } }) ∧
      (s.bnd.porN = true → exec (.porNRise pkg avs) s = .next s)) ∧
  (∀ s : State,
      (s.bnd.porN = true → s.bnd.everReady = true → s.bnd.ready = true → Answers .warmReset s fun t =>
        t.bnd.coStage = 1 ∧ t.bnd.lastReset = 3 ∧ t.bnd.warmRunning = true ∧ t.bnd.testGate = 0 ∧ t.bnd.ready = false ∧ t.bnd.timebase = s.bnd.timebase ∧ t.bnd.warmT0 = s.bnd.timebase ∧
        t.re.run = false ∧ t.host.wins = [] ∧ t.fl.acl = 0 ∧ t.gy.sessions = [] ∧ t.gy.upload = none ∧ t.att.run = none ∧ t.gov.cleanRows = 0 ∧
        t.co.waveBusy = false) ∧
      (¬ (s.bnd.porN = true ∧ s.bnd.everReady = true ∧ s.bnd.ready = true) → exec .warmReset s = .next s))

/-- ROW_TICK answers a next state. Below the largest TIMEBASE that holds another row, TIMEBASE reads 1,000 times the next row number, which is above its old value by at most 1,000. While POR_N is low, everything but TIMEBASE is unchanged. While it is high, the strobe comes first, then the seam (the wave's releases, the row engine's commits, the lane keys and functions that wait for a seam, Vent, the bank switch), then the row's stitches; firmware's work of the row stands between the last two. What those do the statements on the governor, the row engine, Vent, Fumarole and the partitions say. That a tick brings the time itself is the model's choice (log entry 3). (R23, R24, R528) -/
def Obligations.RowTickAdvancesToTheNextRow : Prop :=
  ∀ (s : State) (cycles : BitVec 11), 1000 * (s.row + 1) < 2 ^ 64 →
    Answers (.rowTick cycles) s fun t =>
      t.bnd.timebase.toNat = 1000 * (s.row + 1) ∧ s.now < t.now ∧ t.now ≤ s.now + 1000 ∧
      (s.bnd.porN = false → t = { s with bnd := t.bnd } ∧ t.bnd = { s.bnd with timebase := t.bnd.timebase }) ∧
      (s.bnd.porN = true → ∃ a b, a = s.nextRow.gyRow.strobe ∧ b = (((a.waveRelease.engineSeam.wgSeam [0, 1, 2, 3]).functionSeam).ventSeam).bankSwitch ∧
        t = b.rowFirmware.runRow cycles.toNat)

/-- PWR_WARN_FALL sets the supply-warning level. It leaves the log, the fuses and the life cycle as they are, and flash as well where Steward does not run or no log entry is pending. PWR_WARN_RISE clears the level and changes nothing else. For every port and address SNOOP answers a clean miss, and the state is otherwise unchanged. The 8-cycle limit is timing, which the model leaves out (log entry 3). A fall of MEMTRN_DONE[n] after CO8 suspends slice n and clears its level; a rise ends the suspension of a slice that holds no request. While requests are held, SUSPEND_HOLD_TIMEOUT answers the oldest with RETRY and keeps the others. A write that RE_KNIT_HOLD_TIMEOUT names is answered RETRY; while the re-knit of its page runs and nothing waits for a record, it alone is held no longer. For a configured site, SITE_PRESENT_FALL clears its present and trusted bits and ends its exchange with status absent; SITE_PRESENT_RISE sets its present bit and leaves the trusted set as it is. (R40, R49, R53, R67, R151, R452, R479) -/
def Obligations.PinsAndTheirLevels : Prop :=
  (∀ s : State,
      Answers .pwrWarnFall s (fun t => t.bnd = { s.bnd with pwrWarn := true } ∧ t.snt = s.snt ∧ t.otp = s.otp ∧ t.lc = s.lc ∧ t.re = s.re ∧
        (s.stewardRuns = false ∨ s.snt.pend = 0 → t.fl = s.fl)) ∧
      exec .pwrWarnRise s = .next { s with bnd := { s.bnd with pwrWarn := false } }) ∧
  (∀ (s : State) (port : BitVec 7) (addr : Addr), exec (.snoop port addr) s = .next { s with out := s.out ++ [.snoopMiss] }) ∧
  ((∀ (s : State) (n : BitVec 6), 8 < s.bnd.coStage.toNat → bit s.bnd.memtrn n.toNat = true →
      Answers (.memtrnDoneFall n) s fun t => (t.slice n.toNat).suspended = true ∧ bit t.bnd.memtrn n.toNat = false) ∧
    (∀ (s : State) (n : BitVec 6), (s.slice n.toNat).suspended = true → (s.slice n.toNat).held = [] → (s.slice n.toNat).port = [] →
      Answers (.memtrnDoneRise n) s fun t => (t.slice n.toNat).suspended = false ∧ bit t.bnd.memtrn n.toNat = true) ∧
    (∀ (s : State) (n : BitVec 6) (q : SliceReq) (l : List SliceReq), (s.slice n.toNat).held = q :: l →
      Answers (.suspendHoldTimeout n) s fun t => (t.slice n.toNat).held = l ∧ .nocResp q.hdr.txid .retry 0 ∈ t.out) ∧
    (∀ (s : State) (n : BitVec 6) (x : BitVec 12) (q : SliceReq), (s.slice n.toNat).knitHeld.find? (fun q => q.hdr.txid = x && q.op ≠ .query) = some q →
      Answers (.reKnitHoldTimeout n x) s fun t => .nocResp q.hdr.txid .retry 0 ∈ t.out ∧
        ((s.slice n.toNat).knits.any (fun k => k.page = pageOf q.hdr.addr) = true → (s.slice n.toNat).waiting = [] →
          (t.slice n.toNat).knitHeld = (s.slice n.toNat).knitHeld.erase q))) ∧
  (∀ (s : State) (n : BitVec 5), n.toNat < Config.sites →
      Answers (.sitePresentFall n) s (fun t => bit t.bnd.sitePresent n.toNat = false ∧ bit t.bnd.siteTrusted n.toNat = false ∧ (t.attSite n.toNat).status = 0 ∧
        (t.attSite n.toNat).step = none) ∧
      Answers (.sitePresentRise n) s (fun t => bit t.bnd.sitePresent n.toNat = true ∧ t.bnd.siteTrusted = s.bnd.siteTrusted))

/-- THERM_TRIP_FALL answers, in every state, a state with the clamp set, every configured region at step 0 with stretch off, and one REG_UPD pulse of step 0 for each region behind what was sent before. Its row count begins again. At a seam after a row without overrun, which enters no hold mode, each region takes the least of its staged step, FMAX_STEP and, in hold mode, HOLD_CEIL, and step 0 while the clamp, a trip, a halt or recovery holds it or it is not released; each such commit pulses REG_UPD. (R62, R64, R65, R566) -/
def Obligations.ThermalClampDrivesEveryRegionToZero : Prop :=
  (∀ s : State, Answers .thermTripFall s fun t =>
    t.bnd.clamp = true ∧ t.bnd.thermTrip = true ∧ t.bnd.thermHighRows = 0 ∧
    (∀ n, n < Config.regions → (t.gov.reg n).step = 0 ∧ (t.gov.reg n).stretch = false) ∧
    t.out = s.out ++ (List.range Config.regions).map (fun n => Output.regUpd n 0)) ∧
  (∀ (s : State) (n : Nat), n < Config.regions → s.re.running = true → s.re.prevOverrun = false → s.re.consec ≠ 3 → s.gov.forceHold = false →
    let t := s.engineSeam
    let asked := min (field (SMap.get 0 s.re.stage n) 0 6).toNat s.otp.fmax.toNat
    let held : Prop := s.bnd.clamp = true ∨ s.bnd.thermTrip = true ∨ s.bnd.recovery = true ∨ s.co.halted = true ∨ bit s.co.released n = false
    .regUpd n (t.gov.reg n).step ∈ t.out ∧
    (held → (t.gov.reg n).step = 0 ∧ (t.gov.reg n).stretch = false) ∧
    (¬ held → (t.gov.reg n).step.toNat = (if s.gov.hold then min asked (s.gov.reg n).holdCeil.toNat else asked) ∧
      (t.gov.reg n).stretch = bit (SMap.get 0 s.re.stage n) 6))

/-- THERM_TRIP_RISE ends the trip and begins the count. THERM_CLAMP_RELEASE at a seam with the trip over and 1,000 rows counted clears the clamp and restarts AGE of every region; with the trip in force, fewer rows, or no clamp it changes nothing. (R66) -/
def Obligations.ThermalClampReleasesAfterAThousandRows : Prop :=
  ∀ s : State,
    exec .thermTripRise s = .next { s with bnd := { s.bnd with thermTrip := false, thermHighRows := 0 } } ∧
    (s.bnd.clamp = true → s.bnd.thermTrip = false → 1000 ≤ s.bnd.thermHighRows → Answers .thermClampRelease s fun t =>
      t.bnd = { s.bnd with clamp := false, thermHighRows := 0 } ∧ (∀ n, n < Config.regions → (t.gov.reg n).age = 0) ∧ t.re = s.re ∧ t.out = s.out) ∧
    (¬ (s.bnd.clamp = true ∧ s.bnd.thermTrip = false ∧ 1000 ≤ s.bnd.thermHighRows) → exec .thermClampRelease s = .next s)

/-- For a partition request that a slice admits to a sound record of its own, READ_LINE of a line whose ZMAP bit is set answers OK with a zero line, and ZERO_QUERY answers OK with the page's ZMAP. Neither reads a controller: the slice's outstanding reads are unchanged. (R131, R173, R174, R176) -/
def Obligations.SealedZeroLinesAnswerZero : Prop :=
  ∀ (s : State) (n : BitVec 6) (h : NocHdr), s.Admits n.toNat h → s.Owns n.toNat h →
    let r := (s.touch n.toNat (pageOf h.addr)).pageRec n.toNat (pageOf h.addr)
    (bit r.zmap (lineOf h.addr) = true → Answers (.readLine n h) s fun t =>
      t.out = s.out ++ [.nocResp h.txid .ok 0] ∧ (t.slice n.toNat).reads = (s.slice n.toNat).reads ∧ t.guard.records = s.guard.records) ∧
    Answers (.zeroQuery n h) s fun t =>
      t.out = s.out ++ [.nocResp h.txid .ok (zeroAnswer r ((s.slice n.toNat).reKnits (pageOf h.addr)))] ∧
      (t.slice n.toNat).reads = (s.slice n.toNat).reads ∧ t.guard.records = s.guard.records

/-- For an admitted partition request with the epoch in force, to an own sound page that holds no weights and is under no re-knit, WRITE_LINE of zeros answers OK, sets the line's ZMAP bit and leaves the counters MAJOR and MINOR. WRITE_MASKED with an empty mask answers OK and leaves ZMAP. Neither sends the controller anything. While the page is under a re-knit, a write of any byte is held and answered later. (R131, R145, R146, R150, R152) -/
def Obligations.ZeroWritesSetTheZeroMap : Prop :=
  ∀ (s : State) (n : BitVec 6) (h : NocHdr) (data : Line), s.Admits n.toNat h → s.Owns n.toNat h → h.epoch = (s.part h.dom.toNat).epoch →
    let r := (s.touch n.toNat (pageOf h.addr)).pageRec n.toNat (pageOf h.addr)
    r.weight = false →
    ((s.slice n.toNat).knitting (pageOf h.addr) = false → Answers (.writeLine n h 0) s fun t =>
      t.out = s.out ++ [.nocResp h.txid .ok 0] ∧ bit (t.pageRec n.toNat (pageOf h.addr)).zmap (lineOf h.addr) = true ∧
      (t.pageRec n.toNat (pageOf h.addr)).major = r.major ∧ (t.pageRec n.toNat (pageOf h.addr)).minor = r.minor) ∧
    Answers (.writeMasked n h data 0) s (fun t =>
      t.out = s.out ++ [.nocResp h.txid .ok 0] ∧ (t.pageRec n.toNat (pageOf h.addr)).zmap = r.zmap) ∧
    ((s.slice n.toNat).knitting (pageOf h.addr) = true → ∀ mask : BitVec 64, ∀ i ∈ (if mask = 0 then [Instr.writeLine n h data] else [.writeLine n h data, .writeMasked n h data mask]),
      Answers i s fun t => t.out = s.out ∧ (t.slice n.toNat).knitHeld.length = (s.slice n.toNat).knitHeld.length + 1 ∧
        t.pageRec n.toNat (pageOf h.addr) = r)

/-- Under the same conditions, without a re-knit of the page, with sideband attachment and the line's MINOR below 63, WRITE_LINE of a nonzero line, and WRITE_MASKED of some but not all bytes to a line that ZMAP marks zero, pass the controller port the resulting line (the written bytes over zeros), encrypted with its tag under the page's MAJOR and MINOR + 1. MINOR of that line is one more, its ZMAP bit is 0, MAJOR is unchanged. WRITE_MASKED of some bytes to a line that ZMAP does not mark reads the old line under its counters first, with no answer yet and the record as it was. Where MEMTRN_DONE is high and the port has nothing waiting, the write goes out and is answered OK; while MEMTRN_DONE is low it waits, unanswered. (R48, R133, R135, R136, R144, R145, R146, R147) -/
def Obligations.SealedWritesEncryptUnderTheNextMinor : Prop :=
  ∀ (s : State) (n : BitVec 6) (h : NocHdr) (data : Line) (mask : BitVec 64), s.Admits n.toNat h → s.Owns n.toNat h →
    h.epoch = (s.part h.dom.toNat).epoch → (s.slice n.toNat).knitting (pageOf h.addr) = false → carved n.toNat = false →
    let r := (s.touch n.toNat (pageOf h.addr)).pageRec n.toNat (pageOf h.addr)
    let m := minorOf r (lineOf h.addr) + 1
    let k := s.keyEntry h.dom.toNat
    let wrote (x : Line) (t : State) : Prop :=
      let c := lineCrypt k (laddrOf h.addr) r.major m h.dom.toNat x
      let tag : W64 := (lineTag k (laddrOf h.addr) r.major m h.dom.toNat c).setWidth 64
      let r' := t.pageRec n.toNat (pageOf h.addr)
      minorOf r' (lineOf h.addr) = m ∧ bit r'.zmap (lineOf h.addr) = false ∧ r'.major = r.major ∧
      (bit s.bnd.memtrn n.toNat = true → (s.slice n.toNat).port = [] →
        t.out = s.out ++ [.ctlWrite n.toNat false (laddrOf h.addr) c tag, .nocResp h.txid .ok 0] ∧ (t.slice n.toNat).port = []) ∧
      (bit s.bnd.memtrn n.toNat = false →
        t.out = s.out ∧ (t.slice n.toNat).port = (s.slice n.toNat).port ++ [.write false (laddrOf h.addr) c tag (some h.txid)])
    r.weight = false → minorOf r (lineOf h.addr) ≠ 63 →
    (data ≠ 0 → Answers (.writeLine n h data) s (wrote data)) ∧
    (mask ≠ 0 → mask ≠ BitVec.allOnes 64 → bit r.zmap (lineOf h.addr) = true → maskBytes 0 data mask.toNat ≠ 0 →
      Answers (.writeMasked n h data mask) s (wrote (maskBytes 0 data mask.toNat))) ∧
    (mask ≠ 0 → mask ≠ BitVec.allOnes 64 → bit r.zmap (lineOf h.addr) = false → Answers (.writeMasked n h data mask) s fun t =>
      t.pageRec n.toNat (pageOf h.addr) = r ∧ (t.slice n.toNat).reads.length = (s.slice n.toNat).reads.length + 1 ∧
      (∃ c ∈ (t.slice n.toNat).reads, c.addr = laddrOf h.addr ∧ c.major = r.major ∧ c.minor = minorOf r (lineOf h.addr) ∧
        ∃ q, c.purpose = .merge q ∧ q.hdr = h ∧ q.op = .write data mask true) ∧
      ((s.slice n.toNat).port = [] → t.out = s.out ∨ ∃ rid, t.out = s.out ++ [.ctlRead n.toNat false rid (laddrOf h.addr)]))

/-- CONTROLLER_READ_RETURN completes for every identifier. One that no read holds changes nothing. In sideband attachment (the reference configuration) a sealed read is answered OK with the decrypted line if the sideband tag is the line's under its counters, else MEM_INTEGRITY with no data: a page of the window is quarantined, the slice counts the failure and an empty error log takes it, a keyed or running partition freezes with cause 1, and Vent accepts a report of class 3 of the slice. A masked write whose old line verifies writes the merged line under the next MINOR. A tag placed in the MAC-line cache is the line's tag there. With nothing waiting at the port, the answer is all that is sent and the read is no longer outstanding. A plain read is answered OK with the data as it came. A line of a running re-knit whose tag verifies is marked done. (R48, R135, R136, R137, R142, R146, R149, R160, R161, R162, R170, R715) -/
def Obligations.SealedReadsReturnAuthenticatedLines : Prop :=
  (∀ (s : State) (n : BitVec 6) (rid : BitVec 8) (data : Line) (side : W64), (s.slice n.toNat).reads.find? (fun r => r.rid = some rid) = none →
    exec (.controllerReadReturn n rid data side) s = .next s) ∧
  (∀ (s : State) (n : BitVec 6) (rid : BitVec 8) (data : Line) (side : W64) (c : CtlRead), (s.slice n.toNat).reads.find? (fun r => r.rid = some rid) = some c →
    let tag : BitVec 56 := field side 0 56
    let run (P : State → Prop) : Prop := Answers (.controllerReadReturn n rid data side) s P
    (∀ q, c.purpose = .line q →
      let want := lineTag q.key c.addr c.major c.minor q.hdr.dom.toNat data
      let line := lineCrypt q.key c.addr c.major c.minor q.hdr.dom.toNat data
      (tag = want → run fun t => .nocResp q.hdr.txid .ok line ∈ t.out ∧ ((s.slice n.toNat).port = [] →
        t.out = s.out ++ [.nocResp q.hdr.txid .ok line] ∧ (t.slice n.toNat).reads = (s.slice n.toNat).reads.filter (fun r => r.id ≠ c.id))) ∧
      (tag ≠ want → run fun t => .nocResp q.hdr.txid .memIntegrity 0 ∈ t.out ∧
        (s.guard.inWindow (c.addr / 64) = true → (t.pageRec n.toNat (c.addr / 64)).quarantine = true) ∧
        (t.slice n.toNat).integ = (s.slice n.toNat).integ + 1 ∧
        ((s.slice n.toNat).errValid = false → (t.slice n.toNat).errValid = true ∧ (t.slice n.toNat).errCode = 0x0507 ∧
          (t.slice n.toNat).errLine = BitVec.ofNat 46 c.addr ∧ (t.slice n.toNat).errDom = q.hdr.dom) ∧
        ((s.part q.hdr.dom.toNat).state = .keyed ∨ (s.part q.hdr.dom.toNat).state = .running →
          (t.part q.hdr.dom.toNat).state = .frozen ∧ (t.part q.hdr.dom.toNat).freezeCause = 1 ∧ (t.part q.hdr.dom.toNat).resume = (s.part q.hdr.dom.toNat).state) ∧
        t.vent.accepted = s.vent.accepted + 1 ∧
        (s.vent.table.length < 256 → ∃ x ∈ t.vent.table, x.cls = 3 ∧ x.peer = unitOf 1 n.toNat ∧ x.code = 0x0507))) ∧
    (∀ q new mask, c.purpose = .merge q → q.op = .write new mask true →
      tag = lineTag q.key c.addr c.major c.minor q.hdr.dom.toNat data →
      let x := maskBytes (lineCrypt q.key c.addr c.major c.minor q.hdr.dom.toNat data) new mask.toNat
      let r := s.pageRec n.toNat (pageOf q.hdr.addr)
      let m := minorOf r (lineOf q.hdr.addr)
      let e := lineCrypt q.key (laddrOf q.hdr.addr) r.major (m + 1) q.hdr.dom.toNat x
      x ≠ 0 → m ≠ 63 → (s.slice n.toNat).knitHeld = [] → (s.slice n.toNat).waiting = [] → (s.slice n.toNat).port = [] → bit s.bnd.memtrn n.toNat = true →
      run fun t => t.out = s.out ++ [.ctlWrite n.toNat false (laddrOf q.hdr.addr) e
        ((lineTag q.key (laddrOf q.hdr.addr) r.major (m + 1) q.hdr.dom.toNat e).setWidth 64), .nocResp q.hdr.txid .ok 0]) ∧
    (∀ q, c.purpose = .plain q → q.op = .read → run fun t => .nocResp q.hdr.txid .ok data ∈ t.out) ∧
    (∀ page i k, c.purpose = .knit page i → (s.slice n.toNat).knits.find? (fun k => k.page = page) = some k →
      tag = lineTag k.key c.addr c.major c.minor (s.pageRec n.toNat page).pid.toNat data → run fun t =>
        (t.slice n.toNat).knits = (s.slice n.toNat).knits.map fun j => if j.page = page then { j with done := putBit j.done i true } else j)) ∧
  (∀ (s : State) (n laddr : Nat) (t : BitVec 56), (s.slice n).macs.length < 64 →
    ((s.macPut n laddr t).slice n).macTag laddr = some t ∧ (s.macPut n laddr t).out = s.out)

/-- RECORD_ARRIVAL of a page that slice n fetches, with no request waiting at the slice, ends that fetch. With one partition read waiting for it, of a line that the record marks zero, the sound record of its own enters the cache and the read is answered OK with zeros; where the record is not sealed the read is REFUSED. One of a page that it does not fetch changes nothing. RE_KNIT_COMMIT of a running re-knit of a window page whose lines are all done or zero, with nothing held or waiting, stores the new MAJOR and MINOR 0, keeps ZMAP, and ends the re-knit; with a line left to rewrite, or no re-knit of the page, it changes nothing. (R129, R131, R149, R152, R156) -/
def Obligations.SliceWorkEndsWithItsEvent : Prop :=
  (∀ (s : State) (n : BitVec 6) (page : BitVec 40),
    ((s.slice n.toNat).fetches = [page.toNat] → (s.slice n.toNat).waiting = [] → Answers (.recordArrival n page) s fun t =>
      (t.slice n.toNat).fetches = [] ∧ t.out = s.out ∧ t.guard.records = s.guard.records) ∧
    (∀ q : SliceReq, (s.slice n.toNat).fetches = [page.toNat] → (s.slice n.toNat).waiting = [q] → pageOf q.hdr.addr = page.toNat → q.hdr.dom.toNat < 64 →
      q.op = .read → (s.slice n.toNat).blocked page.toNat = false → (∀ e ∈ (s.slice n.toNat).cache, e.page ≠ page.toNat) →
      let r := s.guard.record page.toNat
      let served (a : Resp) (t : State) : Prop := t.out = s.out ++ [.nocResp q.hdr.txid a 0] ∧ (t.slice n.toNat).waiting = [] ∧ (t.slice n.toNat).fetches = []
      (r.isSealed = true → r.pid.toNat = q.hdr.dom.toNat → r.kgen = q.key.kgen → (s.keyEntry q.hdr.dom.toNat).valid = true → r.quarantine = false →
        s.inIngest q.hdr = false → bit r.zmap (lineOf q.hdr.addr) = true → Answers (.recordArrival n page) s fun t =>
          served .ok t ∧ ∃ e ∈ (t.slice n.toNat).cache, e.page = page.toNat ∧ e.pr = r) ∧
      (r.isSealed = false → Answers (.recordArrival n page) s (served .refused))) ∧
    (page.toNat ∉ (s.slice n.toNat).fetches → exec (.recordArrival n page) s = .next s)) ∧
  (∀ (s : State) (n : BitVec 6) (page : BitVec 40),
    (∀ k : Knit, (s.slice n.toNat).knits = [k] → k.page = page.toNat → s.guard.inWindow page.toNat = true →
      (s.slice n.toNat).knitHeld = [] → (s.slice n.toNat).waiting = [] →
      k.done ||| (s.pageRec n.toNat page.toNat).zmap = BitVec.allOnes 64 →
      Answers (.reKnitCommit n page) s fun t =>
        (t.pageRec n.toNat page.toNat).major = k.newMajor ∧ (t.pageRec n.toNat page.toNat).minor = 0 ∧
        (t.pageRec n.toNat page.toNat).zmap = (s.pageRec n.toNat page.toNat).zmap ∧ (t.slice n.toNat).knits = []) ∧
    ((∀ k ∈ (s.slice n.toNat).knits, k.page = page.toNat → k.done ||| (s.pageRec n.toNat page.toNat).zmap ≠ BitVec.allOnes 64) →
      exec (.reKnitCommit n page) s = .next s))

/-- A request that R41 admits, at a slice that is not enabled, is answered RETRY without data, whatever its operation; nothing of the guard but that slice changes. A register access at an enabled slice that is neither fenced nor suspended is REFUSED. A line request with a reserved OP, a DOM in 66-127 or a SRC_SITE in 24-29 is answered REFUSED without data by every slice, and a register access so marked by the block port; no record, key, partition, queue, mailbox or knot changes. (R41, R131, R165) -/
def Obligations.SlicesRefuseAndRetryByRule : Prop :=
  (∀ (s : State) (n : BitVec 6) (h : NocHdr) (data : Line) (mask : BitVec 64), hdrBarred h = false → (s.slice n.toNat).en = false →
      ∀ i ∈ [Instr.readLine n h, .writeLine n h data, .writeMasked n h data mask, .zeroQuery n h], Answers i s fun t =>
        t.out = s.out ++ [.nocResp h.txid .retry 0] ∧ t.guard.records = s.guard.records ∧ t.guard.keys = s.guard.keys ∧
        (∀ m, m ≠ n.toNat → t.slice m = s.slice m) ∧ t.cmd = s.cmd ∧ t.parts = s.parts) ∧
  (∀ (s : State) (n : BitVec 6) (h : NocHdr) (data : Line) (mask : BitVec 64), hdrBarred h = false → h.regOp = true → (s.slice n.toNat).en = true →
      s.sliceFenced n.toNat = false → (s.slice n.toNat).suspended = false →
      ∀ i ∈ [Instr.readLine n h, .writeLine n h data, .writeMasked n h data mask, .zeroQuery n h], Answers i s fun t =>
        t.out = s.out ++ [.nocResp h.txid .refused 0] ∧ t.guard.records = s.guard.records ∧ t.cmd = s.cmd ∧ t.parts = s.parts) ∧
  (∀ (s : State) (n : BitVec 6) (h : NocHdr) (size : BitVec 7) (data : Line) (mask : BitVec 64),
      (h.rsvdOp = true ∨ 66 ≤ h.dom.toNat ∨ (24 ≤ h.site.toNat ∧ h.site.toNat ≤ 29)) →
      (∀ i ∈ [Instr.readLine n h, .writeLine n h data, .writeMasked n h data mask, .zeroQuery n h], Answers i s fun t =>
        t.out = s.out ++ [.nocResp h.txid .refused 0] ∧ t.guard.records = s.guard.records ∧ t.guard.keys = s.guard.keys ∧ t.parts = s.parts ∧ t.cmd = s.cmd) ∧
      exec (.regRead h size) s = .next { s with out := s.out ++ [.nocResp h.txid .refused 0] } ∧
      exec (.regWrite h size data) s = .next { s with out := s.out ++ [.nocResp h.txid .refused 0] })

/-- The first write of GRD_PROT by Keeper sets the window base, clips its size to the coverage and locks it; a locked window and any other class leave it. A sync request by Keeper with none running sets BUSY for the DOM and ALL written, and its end clears BUSY, marks the partition synced, writes each dirty cached record of it back to Caldera and leaves none of its records cached. A scrub request by Keeper that is allowed sets BUSY in the phase PHYS asks for; one that is not sets ERR and changes nothing else. SCRUB_PHYS_PASS_END of a running physical pass, with MEMTRN_DONE high at the slices that it writes through, zeroes each page in scope and goes to the metadata phase; with one low it changes nothing. SCRUB_COMPLETE of a running metadata pass clears BUSY; afterwards the record of every page in scope is unsealed, all zero lines, with MAJOR and MINOR as before, and the record of every other page is unchanged. (R48, R125, R126, R130, R182, R183, R185, R186) -/
def Obligations.GuardProtectionSyncAndScrub : Prop :=
  ((∀ (s : State) (v : W64), s.guard.locked = false → Answers (.grdProtWrite .K v) s fun t =>
      t.guard.locked = true ∧ t.guard.base = field v 0 22 ∧ t.guard.size.toNat = min Config.coverageGiB (field v 22 9).toNat) ∧
    (∀ (s : State) (c : Cls) (v : W64), c ≠ .K ∨ s.guard.locked = true → exec (.grdProtWrite c v) s = .next s) ∧
    (∀ (s : State) (v : W64), s.guard.syncBusy = false → bit v 7 = true → Answers (.grdSyncReq .K v) s fun t =>
      t.guard.syncBusy = true ∧ t.guard.syncRunDom = field v 0 6 ∧ t.guard.syncRunAll = bit v 6 ∧ t.guard.records = s.guard.records) ∧
    (∀ s : State, s.guard.syncBusy = true → s.guard.syncRunAll = false → Answers .grdSyncDone s fun t =>
      t.guard.syncBusy = false ∧ bit t.guard.synced s.guard.syncRunDom.toNat = true ∧ t.out = s.out ∧ t.guard.keys = s.guard.keys ∧
      (∀ n, ∀ e ∈ (t.slice n).cache, e.pr.pid ≠ s.guard.syncRunDom) ∧
      (∀ x ∈ s.guard.slices, ∀ e ∈ x.2.cache, e.dirty = true → e.pr.pid = s.guard.syncRunDom → s.guard.inWindow e.page = true →
        (∀ y ∈ s.guard.slices, ∀ e' ∈ y.2.cache, e'.page = e.page → e' = e) → t.guard.record e.page = e.pr)) ∧
    (∀ (s : State) (v : W64), s.guard.scrubBusy = false → bit v 8 = true →
      Answers (.grdScrubReq .K v) s fun t =>
        if s.scrubAllowed (bit v 6) (field v 0 6) = true then t.guard.scrubBusy = true ∧ t.guard.scrubPhase = bit v 7 ∧ t.guard.scrubPages = 0
        else t = { s with guard := { s.guard with scrubErr := true } })) ∧
  ((∀ s : State, s.guard.scrubBusy = true → s.guard.scrubPhase = true →
      ((∀ p ∈ s.scrubScope, bit s.bnd.memtrn (Config.sliceOf p) = true) → Answers .scrubPhysPassEnd s fun t =>
        t.out = s.out ++ s.scrubScope.map .ctlZero ∧ t.guard.scrubPhase = false ∧ t.guard.scrubPages = 0 ∧ t.guard.scrubBusy = true ∧ t.guard.records = s.guard.records) ∧
      ((∃ p ∈ s.scrubScope, bit s.bnd.memtrn (Config.sliceOf p) = false) → exec .scrubPhysPassEnd s = .next s)) ∧
    (∀ s : State, s.guard.scrubBusy = true → s.guard.scrubPhase = false → Answers .scrubComplete s fun t =>
      t.guard.scrubBusy = false ∧
      (∀ p ∈ s.scrubScope, let r := t.guard.record p
        r.isSealed = false ∧ r.zmap = BitVec.allOnes 64 ∧ r.quarantine = false ∧
        r.major = (s.guard.record p).major ∧ r.minor = (s.guard.record p).minor) ∧
      (∀ p, p ∉ s.scrubScope → t.guard.record p = s.guard.record p)))

/-- NOC_RESPONSE completes for every TXID and RESP. A TXID that no outstanding request holds, and a RESP that the wire never carries, change nothing. The answer of an outstanding request of any purpose is recorded in it and put to the unit that issued it, with data only for an OK of a read or a query; a RETRY that the unit waits out leaves the request asleep until its reissue instead. Then the next waiting request goes out. For a sole window read: OK completes it with the wanted bytes and frees the TXID; another code but RETRY completes it with zeros; with RETRY it stays and waits. A request that nobody awaits any more is dropped. When the read that a plain destination waited for is answered OK, its write goes out; a command that commits nothing gives a line that its write may have changed the bytes read before. The retry of plain window reads (log entry 41) and the reads before a plain destination is written (log entry 46) are the model's choice. (R38, R39, R42, R97, R209, R714) -/
def Obligations.ResponsesReachTheUnitThatAsked : Prop :=
  (∀ (s : State) (x : BitVec 12) (resp : BitVec 3) (data : Line) (code : Status), (∀ r ∈ s.own, r.live = true → r.txid ≠ x) ∨ 6 ≤ resp.toNat →
    exec (.nocResponse x resp data code) s = .next s) ∧
  (∀ (s : State) (a b : List OwnReq) (r : OwnReq) (resp : BitVec 3) (p : Resp) (data : Line) (code : Status),
    s.own = a ++ r :: b → r.live = true → (∀ q ∈ a, q.live = true → q.txid ≠ r.txid) → respOf resp = some p →
    let seen : Line := if p = .ok ∧ (r.op = 0 ∨ r.op = 3) then data else 0
    let r' : OwnReq := { r with answer := some (p, seen), code := code }
    (¬ (p = .retry ∧ s.sleeps r = true) → exec (.nocResponse r.txid resp data code) s = .next (State.pump 1 (State.route { s with own := a ++ r' :: b } r' p seen))) ∧
    (p = .retry → s.sleeps r = true →
      exec (.nocResponse r.txid resp data code) s = .next (State.pump 1 { s with own := a ++ { r with asleep := true, since := s.bnd.timebase } :: b }))) ∧
  (∀ (s : State) (r : OwnReq) (data : Line) (code : Status), s.own = [r] → r.live = true →
    (r.purpose = .host → r.op = 0 →
      Answers (.nocResponse r.txid 0 data code) s (fun t => t.own = [] ∧
        t.out = s.out ++ [.hostRead ((bitsSet r.mask).map fun i => field data (8 * i) 8)]) ∧
      Answers (.nocResponse r.txid 4 data code) s (fun t => t.own = [] ∧
        t.out = s.out ++ [.hostRead ((bitsSet r.mask).map fun _ => 0)]) ∧
      Answers (.nocResponse r.txid 1 data code) s (fun t => t.out = s.out ∧ t.own = [{ r with asleep := true, since := s.bnd.timebase }])) ∧
    (r.purpose = .abandoned → ∀ resp, resp.toNat < 6 → exec (.nocResponse r.txid resp data code) s = .next { s with own := [] })) ∧
  (∀ (s : State) (r w : OwnReq) (tag : Tag) (data : Line) (code : Status), s.own = [r, w] → r.live = true → r.purpose = .save tag → w.purpose = .cmd tag →
    w.behind = true → w.sent = false → Answers (.nocResponse r.txid 0 data code) s fun t =>
      ∃ w', w' ∈ t.own ∧ w'.sent = true ∧ w'.behind = false ∧ w'.addr = w.addr ∧ w'.op = w.op ∧ w'.data = w.data ∧ w'.mask = w.mask ∧ t.out = s.out ++ [.nocReq w']) ∧
  (∀ (s : State) (r w : OwnReq) (tag : Tag) (x : Line), s.own = [r, w] → r.purpose = .save tag → r.answer = some (.ok, x) → w.purpose = .cmd tag → w.sent = true →
    w.answer.isSome = true → r.addr = w.addr → ∃ u, (s.ownUndo tag).own = [u] ∧ u.purpose = .restore ∧ u.sent = true ∧ u.addr = w.addr ∧ u.op = w.op ∧ u.mask = w.mask ∧
      u.data = x ∧ (s.ownUndo tag).out = s.out ++ [.nocReq u])

/-- A write of SQ_SUBMIT by a class that reaches the queue appends to its waiting order exactly the named slots not held, in rising order; every other queue, every slot's bytes and every command in flight stay as they are. A class that does not reach the queue changes nothing. Where the dispatcher's round reaches the queue with no queue passed that could dispatch at its last visit: when the head passes the checks of R92 and nothing keeps it waiting, DESCRIPTOR_DISPATCH takes it off the order and adds one command in flight, of that queue and slot, whose tag no other command in flight holds and which in isolated mode lies in the share of its opcode family (which free tag stays open); when the head fails a check of R92 and its completion ring has room, it takes it off the order, writes one record at TAIL with the first failing check's status and NOTAG = 1, and leaves the commands in flight as they are; an empty queue and a waiting head stay, and only the round moves on. (R18, R19, R84, R86, R87, R92, R93, R94, R95) -/
def Obligations.QueuesSubmitDispatchAndRefuse : Prop :=
  (∀ (s : State) (c : Cls) (q : BitVec 7) (bits : BitVec 16),
      (s.reaches c (0x0400008 + 4096 * q.toNat) = true → queueAllows q.toNat c = true → Answers (.sqSubmit c q bits) s fun t =>
        (t.cmd.queue q.toNat).order = (s.cmd.queue q.toNat).order ++ (bitsSet bits).filter (fun i => ¬ s.cmd.held q.toNat i) ∧
        (∀ p, p ≠ q.toNat → t.cmd.queue p = s.cmd.queue p) ∧ t.cmd.slots = s.cmd.slots ∧ t.cmd.flights = s.cmd.flights ∧ t.out = s.out ∧ (c ≠ .S → t.re = s.re)) ∧
      (s.reaches c (0x0400008 + 4096 * q.toNat) = false ∨ queueAllows q.toNat c = false → exec (.sqSubmit c q bits) s = .next s)) ∧
  (∀ (s : State) (q : BitVec 7), s.RoundAt q.toNat →
    ((s.cmd.queue q.toNat).order = [] → Answers (.descriptorDispatch q) s fun t => t = { s with cmd := { s.cmd with visited := q, couldRun := s.dispatchable } }) ∧
    (∀ (slot : Nat) (rest : List Nat), (s.cmd.queue q.toNat).order = slot :: rest →
      let d := s.cmd.slot q.toNat slot
      (waitCause s q.toNat d ≠ 0 → Answers (.descriptorDispatch q) s fun t => t = { s with cmd := { s.cmd with visited := q, couldRun := s.dispatchable } }) ∧
      (waitCause s q.toNat d = 0 → refusal s q.toNat d = none → Answers (.descriptorDispatch q) s fun t =>
        (t.cmd.queue q.toNat).order = rest ∧ t.out = s.out ∧ t.cmd.ring = s.cmd.ring ∧
        ∃ f : Flight, t.cmd.flights = s.cmd.flights ++ [f] ∧ f.queue = q.toNat ∧ f.slot = slot ∧
          Desc.opcode f.desc = Desc.opcode d ∧ (∀ g ∈ s.cmd.flights, g.tag ≠ f.tag) ∧
          (s.bnd.isolated = true → (shareOf (Desc.opcode f.desc)).1 ≤ f.tag.toNat ∧
            f.tag.toNat < (shareOf (Desc.opcode f.desc)).1 + (shareOf (Desc.opcode f.desc)).2)) ∧
      (∀ st, waitCause s q.toNat d = 0 → refusal s q.toNat d = some st → slot < 16 → Answers (.descriptorDispatch q) s fun t =>
        (t.cmd.queue q.toNat).order = rest ∧ t.cmd.flights = s.cmd.flights ∧ (t.cmd.queue q.toNat).tail = (s.cmd.queue q.toNat).tail + 1 ∧
        field (s.recordAt t q.toNat) 0 16 = st ∧ bit (s.recordAt t q.toNat) 95 = true)))

/-- Each of the five commands completes in every state, and all but the named direction of the named mailbox is unchanged. DB_SET by a sender that reaches an enabled mailbox sets the written doorbells but 31. MB_BUFFER_WRITE into a direction that is not full stores its bytes, up to the buffer's end, and raises HIGH_WATER to their end; into a full one it sets OVERRUN alone. SEND of a LENGTH of 1 to 256 that equals HIGH_WATER delivers: FULL, RESULT 1, doorbell 31; a greater LENGTH gives RESULT 2, any other RESULT 3, with the buffer cleared and no doorbell; of a full direction it sets OVERRUN alone. DONE by the receiver clears buffer and FULL and sets EMPTY, and does nothing to a direction that is not full. The wrong side, EN 0 and a class that does not reach the page change nothing. A buffer write of the host whose size or alignment R652 does not allow is counted malformed and stores nothing, unless the host path is frozen there. MB_LIVE_TIMEOUT sets TIMEOUT of the direction, and nothing else, when LIVE has been 0 for at least TIMEOUT_ROWS + 1 row ticks; before that it changes nothing. (R107, R109, R110, R111, R112, R113, R652, R717) -/
def Obligations.MailboxMessagesFollowTheHandshake : Prop :=
  (∀ (s : State) (c : Cls) (mb : BitVec 7) (down : Bool) (bits : BitVec 32) (off : BitVec 8) (size : BitVec 7) (data : Line) (len : BitVec 9),
    let x := s.cmd.mailbox mb.toNat
    let d := x.dir down
    let open_ := mb.toNat < 80 ∧ x.en = true ∧ s.reaches c (mbPage mb) = true
    let became (P : MbDir → Prop) (t : State) : Prop := P ((t.cmd.mailbox mb.toNat).dir down) ∧ (t.cmd.mailbox mb.toNat).dir (!down) = x.dir (!down) ∧
      (t.cmd.mailbox mb.toNat).en = x.en ∧ (t.cmd.mailbox mb.toNat).siteMask = x.siteMask ∧
      (∀ m, m ≠ mb.toNat → t.cmd.mailbox m = s.cmd.mailbox m) ∧ t = { s with cmd := { s.cmd with mailboxes := t.cmd.mailboxes } }
    let n := min (min size.toNat 64) (256 - off.toNat)
    let at_ := mbPage mb + 256 * b2n down + off.toNat
    let fits := c = .H → barOk at_ size.toNat = true
    (open_ → mbSender x mb.toNat down c = true →
      Answers (.dbSet c mb down bits) s (became (· = { d with db := d.db ||| (bits &&& 0x7FFFFFFF) })) ∧
      (d.full = false → fits → Answers (.mbBufferWrite c mb down off size data) s (became fun e => e = { d with buf := e.buf, highWater := e.highWater } ∧
        e.highWater.toNat = max d.highWater.toNat (off.toNat + n) ∧
        ∀ j, j < 256 → field e.buf (8 * j) 8 = (if off.toNat ≤ j ∧ j < off.toNat + n then field data (8 * (j - off.toNat)) 8 else field d.buf (8 * j) 8 : Byte))) ∧
      (d.full = false → 1 ≤ len.toNat → len.toNat ≤ 256 → d.highWater = len → Answers (.send c mb down len) s (became
        (· = { d with length := len, full := true, result := 1, highWater := 0, db := d.db ||| 0x80000000, sentAt := s.bnd.timebase }))) ∧
      (d.full = false → (len.toNat = 0 ∨ 256 < len.toNat ∨ d.highWater ≠ len) → Answers (.send c mb down len) s (became
        (· = { d with length := len, buf := 0, highWater := 0, result := if 1 ≤ len.toNat ∧ len.toNat ≤ 256 ∧ d.highWater.toNat < len.toNat then 2 else 3 }))) ∧
      (d.full = true → Answers (.send c mb down len) s (became (· = { d with overrun := true })) ∧
        (fits → Answers (.mbBufferWrite c mb down off size data) s (became (· = { d with overrun := true }))))) ∧
    (¬ (open_ ∧ mbSender x mb.toNat down c = true) → exec (.dbSet c mb down bits) s = .next s ∧ exec (.send c mb down len) s = .next s ∧
      (fits ∨ s.contained c at_ = true → exec (.mbBufferWrite c mb down off size data) s = .next s)) ∧
    (¬ fits → s.contained c at_ = false → exec (.mbBufferWrite c mb down off size data) s =
      .next { s with host := { s.host with malformed := satAdd s.host.malformed 1 } }) ∧
    (open_ → mbReceiver x mb.toNat down c = true → Answers (.done c mb down) s (became
      (· = if d.full then { d with full := false, buf := 0, empty := true } else d))) ∧
    (¬ (open_ ∧ mbReceiver x mb.toNat down c = true) → exec (.done c mb down) s = .next s) ∧
    (mb.toNat < 80 → d.timeoutRows.toNat + 1 ≤ mbDeadTicks s d → Answers (.mbLiveTimeout mb down) s (became (· = { d with timeout := true }))) ∧
    (80 ≤ mb.toNat ∨ mbDeadTicks s d < d.timeoutRows.toNat + 1 → exec (.mbLiveTimeout mb down) s = .next s))

/-- For a command in flight that R115 admits to the knot: KNOT_SIGNAL whose sum fits adds to VALUE and completes OK with the new VALUE. KNOT_WAIT that is met rings its doorbell and completes with MET 1 and handle 0xFFFF, storing no waiter; one that is not met joins the knot's waiters in hardware where an entry is free, else the overflow list, and completes with MET 0. A KNOT_SIGNAL that meets the knot's only waiter rings its doorbell and removes it. KNOT_RESET without ASSIGN stores its value, removes every waiter and rings nothing; Keeper's with ASSIGN of a knot in no partition's range also sets OWNER and STATE, any other use of ASSIGN completes KNOT_OWNER and changes no knot. KNOT_PROBE completes OK with the entry and changes no knot. (R114, R115, R119, R120, R121, R122, R123, R716) -/
def Obligations.KnotFunctionsOnAnOwnedKnot : Prop :=
  ∀ (s : State) (tag : Tag) (f : Flight), s.cmd.flight tag = some f →
    let k := (Desc.src0 f.desc).toNat
    let x := s.cmd.knot k
    let a := Desc.argField f.desc 0 48
    (s.Runs tag 0x60 f → knotCheck s.cmd (qClass f.queue) (Desc.dom f.desc) k false = none →
      x.value.toNat + a.toNat < 2 ^ 48 → Answers (.knotSignal tag) s fun t =>
        s.EndedWith t f 0 ((x.value + a).setWidth 64) ∧ (t.cmd.knot k).value = x.value + a ∧ (t.cmd.knot k).owner = x.owner) ∧
    (s.Runs tag 0x61 f → knotCheck s.cmd (qClass f.queue) (Desc.dom f.desc) k false = none →
      waitMailboxOk s.cmd (qClass f.queue) (Desc.dom f.desc) (Desc.argField f.desc 48 7).toNat (Desc.argField f.desc 55 5).toNat = true →
      a.toNat ≤ x.value.toNat → Answers (.knotWait tag) s fun t =>
        s.EndedWith t f 0 0xFFFF0001 ∧ t.cmd.knots = s.cmd.knots ∧
        bit (t.cmd.mailbox (Desc.argField f.desc 48 7).toNat).down.db (Desc.argField f.desc 55 5).toNat = true) ∧
    (s.Runs tag 0x61 f → knotCheck s.cmd (qClass f.queue) (Desc.dom f.desc) k false = none →
      waitMailboxOk s.cmd (qClass f.queue) (Desc.dom f.desc) (Desc.argField f.desc 48 7).toNat (Desc.argField f.desc 55 5).toNat = true →
      x.value.toNat < a.toNat →
      let stored (w : Waiter) : Prop := w.threshold = a ∧ w.mailbox = Desc.argField f.desc 48 7 ∧ w.doorbell = Desc.argField f.desc 55 5 ∧ w.dom = Desc.dom f.desc
      (x.hw.length < 4 → x.spill = [] → s.cmd.hwWaiters < 16384 → Answers (.knotWait tag) s fun t =>
        ∃ w, stored w ∧ t.cmd.knot k = { x with hw := x.hw ++ [w] } ∧ s.EndedWith t f 0 (w.handle.setWidth 64 <<< 16) ∧ t.cmd.mailboxes = s.cmd.mailboxes) ∧
      (4 ≤ x.hw.length ∨ x.spill ≠ [] ∨ 16384 ≤ s.cmd.hwWaiters → s.cmd.spilled (Desc.dom f.desc) < 131072 → Answers (.knotWait tag) s fun t =>
        ∃ w, stored w ∧ t.cmd.knot k = { x with spill := x.spill ++ [w] } ∧ s.EndedWith t f 0 0xFFFF0000 ∧ t.cmd.mailboxes = s.cmd.mailboxes)) ∧
    (∀ w, s.Runs tag 0x60 f → knotCheck s.cmd (qClass f.queue) (Desc.dom f.desc) k false = none → x.value.toNat + a.toNat < 2 ^ 48 →
      x.hw = [w] → x.spill = [] → (∀ e ∈ s.cmd.knots, e.2.spill = []) → w.threshold.toNat ≤ x.value.toNat + a.toNat → (s.cmd.mailbox w.mailbox.toNat).en = true →
      Answers (.knotSignal tag) s fun t => s.Ended t f 0 ∧ (t.cmd.knot k).hw = [] ∧ bit (t.cmd.mailbox w.mailbox.toNat).down.db w.doorbell.toNat = true) ∧
    (s.Runs tag 0x62 f → knotCheck s.cmd (qClass f.queue) (Desc.dom f.desc) k false = none → bit (Desc.arg f.desc) 56 = false → x.spill = [] →
      (∀ e ∈ s.cmd.knots, e.2.spill = []) → Answers (.knotReset tag) s fun t =>
        s.Ended t f 0 ∧ (t.cmd.knot k).value = a ∧ (t.cmd.knot k).hw = [] ∧ (t.cmd.knot k).owner = x.owner ∧ t.cmd.mailboxes = s.cmd.mailboxes) ∧
    (s.Runs tag 0x62 f → k < Config.knots → bit (Desc.arg f.desc) 56 = true →
      let owner := Desc.argField f.desc 48 7
      let allowed := qClass f.queue = .keeper ∧ s.knotRanged k = false ∧ (owner = 64 ∨ owner = 65)
      (allowed → Answers (.knotReset tag) s fun t => s.Ended t f 0 ∧ (t.cmd.knot k).value = a ∧ (t.cmd.knot k).owner = owner ∧
        (t.cmd.knot k).active = bit (Desc.arg f.desc) 55 ∧ t.cmd.mailboxes = s.cmd.mailboxes) ∧
      (¬ allowed → Answers (.knotReset tag) s fun t => s.Ended t f St.knotOwner ∧ t.cmd.knots = s.cmd.knots)) ∧
    (s.Runs tag 0x63 f → knotCheck s.cmd (qClass f.queue) (Desc.dom f.desc) k true = none → Answers (.knotProbe tag) s fun t =>
      s.EndedWith t f 0 x.entry ∧ t.cmd.knots = s.cmd.knots ∧ t.cmd.mailboxes = s.cmd.mailboxes)

/-- A KNOT_SIGNAL in flight that R115 admits, whose sum would exceed 2^48 - 1, completes with KNOT_OVERFLOW and every knot is as before; as a register write it changes nothing, and over the NoC it is answered REFUSED. (R117) -/
def Obligations.KnotOverflowLeavesTheValue : Prop :=
  (∀ (s : State) (tag : Tag) (f : Flight), s.Runs tag 0x60 f →
    knotCheck s.cmd (qClass f.queue) (Desc.dom f.desc) (Desc.src0 f.desc).toNat false = none →
    2 ^ 48 - 1 < (s.cmd.knot (Desc.src0 f.desc).toNat).value.toNat + (Desc.argField f.desc 0 48).toNat →
    Answers (.knotSignal tag) s fun t => s.Ended t f St.knotOverflow ∧ t.cmd.knots = s.cmd.knots) ∧
  (∀ (s : State) (c : Cls) (k : BitVec 17) (v : W64), s.reaches c (0x0200000 + 16 * k.toNat) = true →
    2 ^ 48 - 1 < (s.cmd.knot k.toNat).value.toNat + (field v 0 48).toNat →
    exec (.knotRegisterSignal c k v) s = .next (if isNocClass c then { s with out := s.out ++ [.regRefused] } else s))

/-- A knot-register write by a class that reaches the table adds its low 48 bits where R115 admits it and the sum fits, and otherwise changes nothing and is answered REFUSED over the NoC. OVERFLOW_WAITER_MET of a knot without waiters but one overflow waiter that is met rings that waiter's doorbell and removes it. KNOT_STALL under R124 counts one stall and disarms until a VALUE changes. HANG_REPORT takes one stall event that awaits Steward and appends the hang event 0x0D0000C7; with none it changes nothing. (R116, R121, R122, R124, R641) -/
def Obligations.KnotsByRegisterAndTheirStalls : Prop :=
  (∀ (s : State) (c : Cls) (k : BitVec 17) (v : W64), s.reaches c (0x0200000 + 16 * k.toNat) = true →
    let ok := knotCheck s.cmd (knotAccess c).1 (knotAccess c).2 k.toNat false = none ∧ (s.cmd.knot k.toNat).value.toNat + (field v 0 48).toNat < 2 ^ 48
    (ok → Answers (.knotRegisterSignal c k v) s fun t => (t.cmd.knot k.toNat).value = (s.cmd.knot k.toNat).value + field v 0 48 ∧ t.out = s.out) ∧
    (¬ ok → exec (.knotRegisterSignal c k v) s = .next (if isNocClass c then { s with out := s.out ++ [.regRefused] } else s))) ∧
  (∀ (s : State) (k : BitVec 17) (w : Waiter), s.cmd.knots = [(k.toNat, { s.cmd.knot k.toNat with hw := [], spill := [w] })] →
    w.threshold.toNat ≤ (s.cmd.knot k.toNat).value.toNat → (s.cmd.mailbox w.mailbox.toNat).en = true →
    Answers (.overflowWaiterMet k) s fun t => (t.cmd.knot k.toNat).spill = [] ∧ (t.cmd.knot k.toNat).value = (s.cmd.knot k.toNat).value ∧
      bit (t.cmd.mailbox w.mailbox.toNat).down.db w.doorbell.toNat = true) ∧
  (∀ s : State, s.stallDue = true → Answers .knotStall s fun t => t.cmd.stalls = s.cmd.stalls + 1 ∧ t.stallDue = false ∧ t.cmd.knots = s.cmd.knots) ∧
  (∀ s : State, s.stallDue = false → exec .knotStall s = .next s) ∧
  (∀ s : State, 0 < s.vent.hangs → Answers .hangReport s fun t => t.vent.hangs + 1 = s.vent.hangs ∧ t.cmd = s.cmd ∧ s.Logs t 0x0D0000C7) ∧
  (∀ s : State, s.vent.hangs = 0 → exec .hangReport s = .next s)

/-- For a KEY command whose turn it is: when every check of R713 passes, KEY_WRITE fills its target with the bytes at its source, KEY_GENERATE with bytes of DRBG instance 0 behind a reseed, KEY_DERIVE with the derivation from its slots and context, KEY_UNWRAP with the plaintext of an authentic blob. Each completes OK with the target's generation, sets the target's attributes from its attribute word with its own origin and leaves every other slot as it was. An unauthentic blob completes 0x0208 and changes no slot. (R266, R268, R269, R275, R278, R279, R283, R284, R713) -/
def Obligations.KeyFunctionsFillTheirTarget : Prop :=
  ∀ (s : State) (tag : Tag) (f : Flight), keyTurn s f = true → attrBad (Desc.attr f.desc) = false → 24 ≤ Desc.target f.desc →
    s.skn.locked (Desc.target f.desc) = false → field (Desc.attr f.desc) 11 7 = Desc.dom f.desc →
    let d := f.desc
    let m := Desc.target d
    let n := (Desc.length d).toNat
    let filled (o : BitVec 3) (mat : List Byte) (t : State) : Prop := s.EndedWith t f 0 ((s.skn.slot m).gen.setWidth 64) ∧
      t.skn.slot m = (s.skn.slot m).fill (Desc.attr d) o mat ∧ (∀ i, i ≠ m → t.skn.slot i = s.skn.slot i) ∧ t.skn.keeperSram = s.skn.keeperSram
    (s.Runs tag 0x10 f → sramForm f.queue (Desc.src0 d) n = none → n = attrLen d →
      Answers (.keyWrite tag) s (filled 2 (s.sramRead (Desc.src0 d) (attrLen d)))) ∧
    (s.Runs tag 0x11 f → s.skn.drbgReady 0 = true → Answers (.keyGenerate tag) s (filled 3 (s.randomBytes (attrLen d) 0 true))) ∧
    (s.Runs tag 0x12 f → sramForm f.queue (Desc.src0 d) n = none → n ≤ 256 →
      let a := Desc.slotA d
      let b := Desc.slotB d
      let code := (Desc.argField d 25 7).toNat
      ((code = 1 ∧ bit (Desc.arg d) 24 = true ∧ field (Desc.attr d) 0 2 = 2 ∧ 24 ≤ a ∧ 24 ≤ b ∧ s.skn.usable b (Desc.dom d) 3 engDrv = none) ∨
        (code = 2 ∧ bit (Desc.arg d) 24 = false ∧ field (Desc.attr d) 18 2 = 0 ∧ 24 ≤ a) ∨
        ((code = 3 ∨ code = 4) ∧ bit (Desc.arg d) 24 = false ∧ a = 3)) →
      s.skn.usable a (Desc.dom d) 3 engDrv = none →
      Answers (.keyDerive tag) s (filled 4 (derive (s.skn.slot a).bytes ((deriveLabel code).getD "")
        (if bit (Desc.arg d) 24 then (s.skn.slot b).bytes else []) (s.sramRead (Desc.src0 d) n) (attrLen d)))) ∧
    (s.Runs tag 0x13 f → sramForm f.queue (Desc.src0 d) n = none → aadForm f.queue d = none →
      n = 28 + attrLen d → Desc.aadLen d ≤ 512 → s.skn.usable (Desc.slotA d) (Desc.dom d) 2 engWrap = none →
      let blob := s.sramRead (Desc.src0 d) n
      let plain := gcmOpen (s.skn.slot (Desc.slotA d)).key (blob.take 12) (s.sramRead (Desc.src1 d) (Desc.aadLen d)) ((blob.drop 12).take (attrLen d))
        (ofLeBytes 128 (blob.drop (12 + attrLen d)))
      (∀ mat, plain = some mat → Answers (.keyUnwrap tag) s (filled 5 mat)) ∧
      (plain = none → Answers (.keyUnwrap tag) s fun t => s.Ended t f 0x0208 ∧ t.skn = s.skn))

/-- KEY_WRAP of an exportable key writes IV, ciphertext and tag to its destination and completes with their length. KEY_ERASE of an owned key sets ERASING and does not complete; KEY_ERASE_FINISH empties the slot, adds one to its generation and completes the waiting KEY_ERASE OK with that generation. KEY_LOAD_IDE drives the key on the IDE key port that its index names. KEY_RANDOM into SRAM completes with its length; into memory it issues its first write and stays in flight. (R268, R276, R279, R280, R294, R296, R674, R713, R714) -/
def Obligations.KeysLeaveTheirSlotAsTheRulesSay : Prop :=
  ∀ (s : State) (tag : Tag) (f : Flight), keyTurn s f = true →
    let d := f.desc
    let m := Desc.target d
    let n := (Desc.length d).toNat
    let others (t : State) : Prop := ∀ i, i ≠ m → t.skn.slot i = s.skn.slot i
    (s.Runs tag 0x14 f →
      let len := lenBytes (s.skn.slot m).len
      let e := gcmSeal (s.skn.slot (Desc.slotA d)).key (s.randomBytes 12) (s.sramRead (Desc.src1 d) (Desc.aadLen d)) (s.skn.slot m).bytes
      aadForm f.queue d = none → sramForm f.queue (Desc.dst d) (28 + len) = none → Desc.aadLen d ≤ 512 →
      s.skn.named m (Desc.dom d) = none → s.skn.usable (Desc.slotA d) (Desc.dom d) 2 engWrap = none → 24 ≤ m → (s.skn.slot m).exportable = true →
      s.skn.drbgReady 0 = true → Answers (.keyWrap tag) s fun t => s.EndedWith t f 0 (BitVec.ofNat 64 (28 + len)) ∧ t.skn.slots = s.skn.slots ∧
        t.skn.keeperSram = Mem.write 0 s.skn.keeperSram (sramAddr (Desc.dst d)) (s.randomBytes 12 ++ e.1 ++ leBytes 16 e.2)) ∧
    (s.Runs tag 0x15 f → 24 ≤ m → (s.skn.slot m).valid = true → (s.skn.slot m).owner = Desc.dom d → Answers (.keyErase tag) s fun t =>
      t.skn.slot m = { s.skn.slot m with erasing := true } ∧ others t ∧ t.cmd.ring = s.cmd.ring ∧ t.cmd.flight tag = some { f with started := true }) ∧
    (∀ slot : BitVec 8, (s.skn.slot slot.toNat).erasing = true → Answers (.keyEraseFinish slot) s fun t =>
      (t.skn.slot slot.toNat).valid = false ∧ (t.skn.slot slot.toNat).mat = 0 ∧ (t.skn.slot slot.toNat).erasing = false ∧
      (t.skn.slot slot.toNat).gen = (s.skn.slot slot.toNat).gen + 1 ∧ (∀ i, i ≠ slot.toNat → t.skn.slot i = s.skn.slot i) ∧
      ∀ g, s.cmd.flights.find? (fun f => Desc.opcode f.desc = 0x15 ∧ Desc.target f.desc = slot.toNat ∧ f.started) = some g →
        s.EndedWith t g 0 (((s.skn.slot slot.toNat).gen + 1).setWidth 64)) ∧
    (s.Runs tag 0x16 f → s.skn.usable m (Desc.dom d) (if bit (Desc.argField d 8 8) 2 then 0 else 1) engIde = none →
      Answers (.keyLoadIde tag) s fun t => s.Ended t f 0 ∧ t.skn = s.skn ∧
        t.out = s.out ++ [.ideKey ((Desc.argField d 8 8).toNat / 16) (bit (Desc.argField d 8 8) 3) (b2n (bit (Desc.argField d 8 8) 2))
          ((Desc.argField d 8 8).toNat % 4) (s.skn.slot m).bytes s.host.ideIv]) ∧
    (s.Runs tag 0x17 f → 1 ≤ n → n ≤ 4096 →
      let inst := if qClass f.queue = .keeper then 0 else 1
      s.skn.drbgReady inst = true →
      (bit (Desc.dst d) 63 = true → sramForm f.queue (Desc.dst d) n = none → Answers (.keyRandom tag) s fun t =>
        s.EndedWith t f 0 (BitVec.ofNat 64 n) ∧ t.skn.slots = s.skn.slots ∧
        t.skn.keeperSram = Mem.write 0 s.skn.keeperSram (sramAddr (Desc.dst d)) (s.randomBytes n inst)) ∧
      (bit (Desc.dst d) 63 = false → Answers (.keyRandom tag) s fun t =>
        t.cmd.ring = s.cmd.ring ∧ t.own.length = s.own.length + 1 ∧ t.skn.slots = s.skn.slots ∧
        t.skn.random = some { tag := tag, bytes := s.randomBytes n inst, addr := (field (Desc.dst d) 0 52).toNat, written := 0, retries := 0 }))

/-- ENTROPY_STARTUP_DONE opens a starting source and instantiates both DRBG instances. ENTROPY_TEST_FAIL runs its raw samples through both health tests of a starting or open source; one that a test fails on counts one failure, appends its event, leaves the source failed, or latched at the third, and reports it to Vent; samples that pass change the tests alone. From fresh tests the repetition count passes 27 equal samples and fails on 28. ES_RESTART by class K takes a failed source back to fresh start-up tests, and does nothing to a latched one. COMMIT by class K sets the bit and, with slot 0 valid and no debug grant since, fills slots 16 to 18; a second COMMIT changes nothing. (R267, R273, R288, R292, R293, R294, R295) -/
def Obligations.EntropySourceAndMeasurements : Prop :=
  (∀ s : State, s.bnd.porN = true → s.skn.esState = 1 → Answers .entropyStartupDone s fun t =>
    t.skn.esState = 2 ∧ t.skn.drbg0.ready = true ∧ t.skn.drbg1.ready = true ∧ t.skn.slots = s.skn.slots) ∧
  (∀ (s : State) (l : List Bool),
    let r := s.skn.health.samples l
    (s.skn.esState = 1 ∨ s.skn.esState = 2 →
      (∀ a, r.2 = some a → Answers (.entropyTestFail l) s fun t => t.skn.esState = (if 2 ≤ s.skn.esFails.toNat then 4 else 3) ∧ t.skn.esLast = a ∧ t.skn.esFails = satAdd s.skn.esFails 1 ∧ s.Logs t 0x02000080 ∧
        t.skn.health = r.1 ∧ t.skn.slots = s.skn.slots ∧ t.vent.accepted = s.vent.accepted + 1) ∧
      (r.2 = none → exec (.entropyTestFail l) s = .next { s with skn := { s.skn with health := r.1 } })) ∧
    (s.skn.esState ≠ 1 → s.skn.esState ≠ 2 → exec (.entropyTestFail l) s = .next s)) ∧
  (∀ b : Bool, (({} : Health).samples (List.replicate 27 b)).2 = none ∧ (({} : Health).samples (List.replicate 28 b)).2 = some false) ∧
  (∀ s : State, s.skn.esState = 3 → exec (.esRestart .K) s = .next { s with skn := { s.skn with esState := 1, health := {} } }) ∧
  (∀ (s : State) (c : Cls), s.skn.esState = 4 ∨ c ≠ .K → exec (.esRestart c) s = .next s) ∧
  (∀ s : State, s.skn.commit = false → Answers (.sknMeasCommit .K) s fun t => t.skn.commit = true ∧ t.skn.measWord &&& (2 ^ 1200 - 1) = s.skn.measWord &&& (2 ^ 1200 - 1) ∧
    ((s.skn.slot 0).valid = true → s.lc.dbgSince = false → t.skn.aliasDone = true ∧ (t.skn.slot 16).valid = true ∧
      (t.skn.slot 17).engines = 4 ∧ (t.skn.slot 17).valid = true ∧ (t.skn.slot 18).engines = 4 ∧ (t.skn.slot 18).valid = true)) ∧
  (∀ (s : State) (c : Cls), s.skn.commit = true ∨ c ≠ .K → exec (.sknMeasCommit c) s = .next s)

/-- A DIG_OPEN that passes its checks, with no memory operand, fills the lowest context free for its class when no earlier open waits for one, completes with its number and leaves the others; with none free, or behind an earlier open that may take it, it waits, and DIG_OPEN_GRANT then serves it; a custom string in memory is read first. DIG_UPDATE on its opener's context appends its bytes and completes with the count's low 64 bits when they complete no block, else it waits for the cores; a memory source is read. DIG_CLOSE by the opener, or by Keeper, zeroes the context and completes OK, and later functions that name the context end with it. (R299, R302, R303, R304, R305, R306, R311, R313, R314, R324, R328) -/
def Obligations.DigestContextsOpenExtendAndClose : Prop :=
  ∀ (s : State) (tag : Tag) (f : Flight),
    let d := f.desc
    let n := (Desc.length d).toNat
    let bytes := if n = 0 then [] else s.coreRead f.queue (Desc.src0 d) n
    let inMem := 0 < n ∧ bit (Desc.src0 d) 63 = false
    let a := (Desc.argField d 0 4).toNat
    let keyed := bit (Desc.arg d) 16
    let key := s.skn.slot (Desc.argField d 8 8).toNat
    let opened (c : Nat) (t : State) : Prop := s.EndedWith t f 0 (BitVec.ofNat 64 c) ∧ (∀ c', c' ≠ c → t.digCtx c' = s.digCtx c') ∧
      t.digCtx c = { state := 1, alg := BitVec.ofNat 4 a, owner := Desc.dom d, qclass := (qClass f.queue).dig, keyed := keyed,
                     usage := if keyed then key.usage else 0, key := if keyed then key.bytes else [], custom := bytes }
    let names (g : Flight) (c : Nat) : Prop := 0x21 ≤ (Desc.opcode g.desc).toNat ∧ (Desc.opcode g.desc).toNat ≤ 0x24 ∧ Desc.digCtx g.desc = c
    (s.Runs tag 0x20 f → a ≤ 12 → keyed = digKeyed a → n ≤ 256 → (0 < n → digKmac a = true) → digForm f.queue (Desc.dom d) (Desc.src0 d) n false = none →
      ((Desc.dom d).toNat < 64 → s.digOwned (Desc.dom d) < 4) → digKeyCheck s d = none →
      (¬ inMem → s.ownOf (.cmd tag) = [] →
        (∀ c, s.digQueued f = false → s.digFree (qClass f.queue) = some c → (∀ g ∈ s.cmd.flights, ¬ names g c) → Answers (.digOpen tag) s (opened c)) ∧
        (s.digQueued f = true → Answers (.digOpen tag) s fun t => t.cmd.flight tag = some { f with started := true } ∧ t.dig = s.dig ∧ t.cmd.ring = s.cmd.ring) ∧
        (s.digFree (qClass f.queue) = none → Answers (.digOpen tag) s fun t => t.cmd.flight tag = some { f with started := true } ∧ t.dig = s.dig ∧ t.cmd.ring = s.cmd.ring) ∧
        (∀ c, s.cmd.flights = [f] → f.started = true → s.digFree (qClass f.queue) = some c → Answers .digOpenGrant s (opened c))) ∧
      (inMem → s.ownOf (.cmd tag) = [] → Answers (.digOpen tag) s fun t => t.cmd = s.cmd ∧ t.dig = s.dig ∧ s.own.length < t.own.length)) ∧
    (s.Runs tag 0x21 f → digTurn s f = true → digForm f.queue (Desc.dom d) (Desc.src0 d) n false = none → digNamed s f = none →
      let c := Desc.digCtx d
      let x := s.digCtx c
      x.base.count.toNat + n ≤ digLimit x.alg.toNat →
      (¬ inMem → x.state ≠ 3 → x.newBlocks 0 n = 0 → Answers (.digUpdate tag) s fun t => s.EndedWith t f 0 (field (x.base.count + BitVec.ofNat 128 n) 0 64) ∧
        (t.digCtx c).msg = x.base.msg ++ bytes ∧ (t.digCtx c).count = x.base.count + BitVec.ofNat 128 n ∧ (t.digCtx c).state = 1 ∧ (t.digCtx c).func = none ∧
        ∀ c', c' ≠ c → t.digCtx c' = s.digCtx c') ∧
      (¬ inMem → 0 < x.newBlocks 0 n → Answers (.digUpdate tag) s fun t => t.cmd = s.cmd ∧
        t.digCtx c = { x with func := some tag, inbox := bytes, left := 0, pend := x.newBlocks 0 n }) ∧
      (inMem → Answers (.digUpdate tag) s fun t => t.cmd = s.cmd ∧ t.own.length = s.own.length + 1 ∧
        t.digCtx c = { x with func := some tag, inbox := [], left := n, next := (field (Desc.src0 d) 0 52).toNat, pend := 0 })) ∧
    (s.Runs tag 0x24 f → digTurn s f = true → (digNamed s f = none ∨ qClass f.queue = .keeper) → Answers (.digClose tag) s fun t =>
      t.cmd.flight tag = none ∧ t.digCtx (Desc.digCtx d) = {} ∧ (∀ c', c' ≠ Desc.digCtx d → t.digCtx c' = s.digCtx c') ∧
      (∀ g ∈ s.cmd.flights.dropWhile (fun g => g.tag ≠ tag), names g (Desc.digCtx d) → t.cmd.flight g.tag = none) ∧
      ((∀ g ∈ s.cmd.flights, g.tag ≠ tag → ¬ names g (Desc.digCtx d)) → s.Ended t f 0))

/-- DIG_FINISH and DIG_COMPARE that pass their checks leave their context with the blocks of padding and output still to absorb. DIG_BLOCK_ABSORBED counts one block and takes one off the context that its core serves, unless the core must switch first. The last block of a finish without slot or destination ends it with the first eight output bytes; with a slot it fills that slot, or ends with 0x0202 where it is locked by then; with a plain destination every line of it is read, the writes of the output wait for those reads, and nothing is committed yet. That of a compare ends it with MATCH and MATCH_N, with 0x0309 where one comparator errs. DIGEST_CORE_SWITCH gives a core that has run 16 blocks the next ready context. (R301, R307, R308, R315, R317, R318, R319, R320, R321, R322, R323) -/
def Obligations.DigestResultsComeBlockByBlock : Prop :=
  (∀ (s : State) (tag : Tag) (f : Flight), digTurn s f = true →
    let c := Desc.digCtx f.desc
    let x := s.digCtx c
    (s.Runs tag 0x22 f → digFinishCheck s f = none → Answers (.digFinish tag) s fun t => t.cmd = s.cmd ∧
      t.digCtx c = { x with func := some tag, inbox := [], left := 0, pend := digTail x.alg.toNat x.count.toNat (digLen x (Desc.argField f.desc 64 13).toNat) }) ∧
    (s.Runs tag 0x23 f → digCompareCheck s f = none → bit (Desc.src1 f.desc) 63 = true → Answers (.digCompare tag) s fun t => t.cmd = s.cmd ∧
      t.digCtx c = { x with func := some tag, inbox := s.coreRead f.queue (Desc.src1 f.desc) (Desc.length f.desc).toNat, left := 0,
                            pend := digTail x.alg.toNat x.count.toNat (digLen x (Desc.length f.desc).toNat) }) ∧
    (s.Runs tag 0x23 f → digCompareCheck s f = none → bit (Desc.src1 f.desc) 63 = false → Answers (.digCompare tag) s fun t => t.cmd = s.cmd ∧
      s.own.length < t.own.length ∧ (t.digCtx c).left = 1 ∧ (t.digCtx c).func = some tag)) ∧
  (∀ (s : State) (i : BitVec 3) (flip : BitVec 2) (c : Nat), (s.digCore i.toNat).ctx = some c → ¬ (16 ≤ (s.digCore i.toNat).run ∧ (s.digNext c).isSome = true) →
    let x := s.digCtx c
    (1 < x.pend → Answers (.digBlockAbsorbed i flip) s fun t => t.dig.cntBlocks = s.dig.cntBlocks + 1 ∧ t.digCtx c = { x with pend := x.pend - 1 } ∧
      (t.digCore i.toNat).run = (s.digCore i.toNat).run + 1 ∧ t.cmd = (match x.func with | some g => (s.engineWork g).cmd | none => s.cmd)) ∧
    (∀ tag f, x.pend = 1 → x.left = 0 → x.func = some tag →
      (s.Runs tag 0x22 f → bit (Desc.arg f.desc) 16 = false → bit (Desc.arg f.desc) 17 = false →
        let out := digLen x (Desc.argField f.desc 64 13).toNat
        let o := digOutput x.alg.toNat x.key x.custom x.msg out
        Answers (.digBlockAbsorbed i flip) s fun t => s.EndedWith t f 0 (ofLeBytes 64 (o.take 8)) ∧ (t.digCtx c).state = 2 ∧
          (t.digCtx c).result = ofLeBytes 512 (o.take 64) ∧ t.dig.cntBlocks = s.dig.cntBlocks + 1) ∧
      (s.Runs tag 0x22 f → bit (Desc.arg f.desc) 16 = true →
        let m := Desc.slotA f.desc
        let o := digOutput x.alg.toNat x.key x.custom x.msg (digLen x (Desc.argField f.desc 64 13).toNat)
        (s.skn.locked m = false → Answers (.digBlockAbsorbed i flip) s fun t => s.EndedWith t f 0 ((s.skn.slot m).gen.setWidth 64) ∧
          t.skn.slot m = (s.skn.slot m).fill (Desc.attr f.desc) 6 o ∧ ∀ j, j ≠ m → t.skn.slot j = s.skn.slot j) ∧
        (s.skn.locked m = true → Answers (.digBlockAbsorbed i flip) s fun t => s.Ended t f (hideFor f.queue digHidden 0x0202) ∧ t.skn = s.skn)) ∧
      (s.Runs tag 0x22 f → bit (Desc.arg f.desc) 16 = false → bit (Desc.arg f.desc) 17 = true → bit (Desc.dst f.desc) 63 = false →
        let o := digOutput x.alg.toNat x.key x.custom x.msg (digLen x (Desc.argField f.desc 64 13).toNat)
        Answers (.digBlockAbsorbed i flip) s fun t => t.cmd = (s.engineWork tag).cmd ∧ (t.digCtx c).left = 1 ∧ (t.digCtx c).state = x.state ∧ t.skn = s.skn ∧
          ∀ w ∈ plainLines (field (Desc.dst f.desc) 0 52).toNat o, w.behind tag ∈ t.own ∧
            ∃ r ∈ t.own, r.purpose = .save tag ∧ r.op = 0 ∧ r.addr = w.addr ∧ r.dom = 65) ∧
      (s.Runs tag 0x23 f →
        let same := (digOutput x.alg.toNat x.key x.custom x.msg (digLen x (Desc.length f.desc).toNat)).take (Desc.length f.desc).toNat = x.inbox
        (flip = 0 ∧ same ∨ flip = 3 ∧ ¬ same → Answers (.digBlockAbsorbed i flip) s fun t =>
          s.EndedWith t f 0 0xC3693C96 ∧ (t.digCtx c).cmpMatch = 0x3C96 ∧ (t.digCtx c).cmpMatchN = 0xC369) ∧
        (flip = 0 ∧ ¬ same ∨ flip = 3 ∧ same → Answers (.digBlockAbsorbed i flip) s fun t => s.EndedWith t f 0 0xFFFF0000 ∧ t.dig.cntMismatch = s.dig.cntMismatch + 1) ∧
        (flip = 1 ∨ flip = 2 → Answers (.digBlockAbsorbed i flip) s fun t => s.Ended t f 0x0309 ∧ t.dig.cntFault = s.dig.cntFault + 1)))) ∧
  (∀ (s : State) (i : BitVec 3) (c n : Nat), (s.digCore i.toNat).ctx = some c → 16 ≤ (s.digCore i.toNat).run → s.digNext c = some n →
    Answers (.digestCoreSwitch i) s fun t => s.setDigCore i.toNat { ctx := some n, run := 0, last := c } = t)

/-- WG_CONTEXT_START gives the lowest free context to the first waiting command. WG_OPEN from memory that passes its checks reserves its slot and reads the manifest; WG_LOAD from memory marks its segment LOADING and holds its range; either completes 0x0601 without keys. WG_DEST_CHECK sends one zero query for every destination page. WG_CHUNK takes the next chunk: an authentic one is counted and its 64 decrypted lines are written to the destination in the partition's domain, another ends the load with 0x0609. WG_RETRY_REISSUE issues a request that was answered RETRY again, at least 1 us later. (R196, R197, R198, R199, R202, R203, R204, R205, R209) -/
def Obligations.PackagesOpenAndSegmentsLoad : Prop :=
  (∀ (s : State) (c : Nat) (f : Flight), (List.range 4).find? (fun c => ¬ (s.wgCtx c).busy) = some c →
    s.cmd.flights.find? (fun f => (Desc.opcode f.desc).toNat / 16 = 4 ∧ ¬ f.started) = some f → Answers .wgContextStart s fun t =>
      (t.wgCtx c).tag = f.tag ∧ (t.wgCtx c).phase = .idle ∧ (t.wgCtx c).dom = Desc.dom f.desc ∧ t.cmd.flight f.tag = some { f with started := true } ∧
      ∀ c', c' ≠ c → t.wgCtx c' = s.wgCtx c') ∧
  (∀ (s : State) (tag : Tag) (f : Flight) (c : Nat), s.wgCtxOf tag = some c → (s.wgCtx c).phase = .idle →
    let d := f.desc
    let dom := (Desc.dom d).toNat
    let k := (Desc.argField d 0 4).toNat
    let i := (Desc.argField d 4 12).toNat
    let n := (Desc.length d).toNat
    let p := s.wgPart dom
    let e := p.seg k i
    let dst := (field (Desc.dst d) 0 52).toNat
    (s.Runs tag 0x40 f → s.wgKeyed (Desc.dom d) = true → (p.pkg k).state = 0 → (p.pkg k).reserved = false → 1 ≤ n → n ≤ 65536 → bit (Desc.src0 d) 63 = false →
      Answers (.wgOpen tag) s fun t => ((t.wgPart dom).pkg k).reserved = true ∧ (t.wgCtx c).phase = .opening ∧ (t.wgCtx c).load = false ∧
        t.cmd = s.cmd ∧ s.own.length < t.own.length ∧ ∀ k', k' ≠ k → (t.wgPart dom).pkg k' = p.pkg k') ∧
    (s.Runs tag 0x41 f → s.wgKeyed (Desc.dom d) = true → (p.pkg k).state ≠ 0 → (p.pkg k).reserved = false → i < (p.pkg k).segments → e.loading = false →
      bit (Desc.src0 d) 63 = false → n = 4112 * e.chunks.toNat → dst % 4096 = 0 → s.guard.inWindow (dst / 4096) = true →
      s.guard.inWindow (dst / 4096 + e.chunks.toNat - 1) = true →
      (∀ j, j < 4 → (s.wgCtx j).rangeHeld = true → overlaps (dst / 4096) e.chunks.toNat (s.wgCtx j).dst (s.wgCtx j).chunks = false) →
      (field (Desc.src0 d) 0 52).toNat % 4096 = 0 → (field (Desc.src1 d) 0 52).toNat % 64 = 0 →
      Answers (.wgLoad tag) s fun t => (t.wgCtx c).phase = .activation ∧ (t.wgCtx c).rangeHeld = true ∧ (t.wgCtx c).dst = dst / 4096 ∧
        (t.wgCtx c).chunks = e.chunks.toNat ∧ (t.wgPart dom).seg k i = { e with loading := true } ∧ t.cmd = s.cmd ∧ t.own = s.own) ∧
    (s.wgKeyed (Desc.dom d) = false → (s.wgCtx c).stream = none →
      (s.Runs tag 0x40 f → Answers (.wgOpen tag) s fun t => s.Ended t f 0x0601 ∧ t.wgCtx c = {}) ∧
      (s.Runs tag 0x41 f → Answers (.wgLoad tag) s fun t => s.Ended t f 0x0601 ∧ t.wgCtx c = {}))) ∧
  (∀ (s : State) (c : BitVec 2), (s.wgCtx c.toNat).phase = .destCheck → (s.wgCtx c.toNat).queried = false → Answers (.wgDestCheck c) s fun t =>
    t.wgCtx c.toNat = { s.wgCtx c.toNat with queried := true } ∧ t.own.length = s.own.length + (s.wgCtx c.toNat).chunks ∧ t.cmd = s.cmd ∧
    ∀ i, i < (s.wgCtx c.toNat).chunks → ∃ r ∈ t.own, r.purpose = .wgDest c.toNat ∧ r.op = 3 ∧ r.dom = (s.wgCtx c.toNat).dom.setWidth 7 ∧
      r.addr = BitVec.ofNat 52 (4096 * ((s.wgCtx c.toNat).dst + i))) ∧
  (∀ (s : State) (c : BitVec 2) (f : Flight),
    let x := s.wgCtx c.toNat
    let p := s.wgPart x.dom.toNat
    let l := s.ownOf (.wgSource c.toNat)
    let tag := spanBytes l ((field (Desc.src1 f.desc) 0 52).toNat + 16 * x.done) 16
    let plain := gcmOpen p.key (leBytes 8 (p.pkg x.pkg.toNat).nonce ++ beBytes 4 (BitVec.ofNat 32 (x.first + x.done)))
      (leBytes 48 (p.pkg x.pkg.toNat).mdigest ++ beBytes 4 (BitVec.ofNat 32 x.seg.toNat))
      (spanBytes l ((field (Desc.src0 f.desc) 0 52).toNat + 4096 * x.done) 4096) (ofLeBytes 128 tag)
    x.phase = .ingest → x.done < x.chunks → x.stream = none → x.fetched = true → s.ownDone (.wgSource c.toNat) = true → s.cmd.flight x.tag = some f →
      (∀ pt, plain = some pt → Answers (.wgChunk c) s fun t => (t.wgCtx c.toNat).done = x.done + 1 ∧ (t.wgCtx c.toNat).tags = x.tags ++ tag ∧
        (t.wgCtx c.toNat).phase = .ingest ∧ t.wg.cntChunk = s.wg.cntChunk + 1 ∧ t.cmd = (s.engineWork x.tag).cmd ∧
        ∀ i, i < 64 → ∃ r ∈ t.own, r.purpose = .wgLine c.toNat ∧ r.op = 1 ∧ r.dom = x.dom.setWidth 7 ∧
          r.addr = BitVec.ofNat 52 (4096 * (x.dst + x.done) + 64 * i) ∧ r.data = ofLeBytes 512 ((pt.drop (64 * i)).take 64)) ∧
      (plain = none → Answers (.wgChunk c) s fun t => (t.wgCtx c.toNat).status = 0x0609 ∧ (t.wgCtx c.toNat).done = x.done ∧
        ((t.wgCtx c.toNat).phase = .rollback ∨ (t.wgCtx c.toNat).phase = .release) ∧ t.wg.cntTagfail = s.wg.cntTagfail + 1 ∧ t.cmd = s.cmd)) ∧
  (∀ (s : State) (c : BitVec 2) (l m : List OwnReq) (r : OwnReq), s.own = l ++ r :: m → (∀ q ∈ l ++ m, q.sent = true) → r.asleep = true →
    (r.purpose = .wgSource c.toNat ∨ r.purpose = .wgDest c.toNat ∨ r.purpose = .wgLine c.toNat ∨ r.purpose = .wgZero c.toNat) →
    (∀ q ∈ l, q.addr ≠ r.addr) → freeTxid s.own < 4096 → Answers (.wgRetryReissue c r.addr) s fun t =>
      ∃ r', t.own = l ++ r' :: m ∧ r'.sent = true ∧ r'.asleep = false ∧ r'.tries = r.tries + 1 ∧ r'.addr = r.addr ∧ r'.op = r.op ∧ r'.data = r.data ∧
        r'.purpose = r.purpose ∧ t.out = s.out ++ [.nocReq r'] ∧ (r.since.toNat + 1000 < 2 ^ 64 → r.since.toNat + 1000 ≤ t.now))

/-- PKE_TAKE_UP of an idle engine takes the next waiting operation: one that fails a check completes with that code, another becomes the running one. PKE_SIGN, VERIFY, PUBKEY, KEYGEN, ENCAPS, DECAPS and ECDH, once every input is in, enter their timed schedule with the outcome of their inputs and, for decapsulation and ECDH, zero their holder part; those that draw complete 0x020A where the DRBG has failed. PKE_EPH_CLEAR zeroes its holder. PKE_COMPLETE writes the output to SRAM or operand slots, stores a new holder, fills the target slot, and completes OK; a target or holder taken meanwhile refuses it; for a plain DST the reads of its lines and the writes behind them are issued first, and it completes once they are answered; a refused outcome completes with its code; a fault starts a clearing. (R268, R294, R333, R339, R346, R347, R348, R349, R350, R351, R353, R360) -/
def Obligations.PublicKeyOperationsRunTheirSchedules : Prop :=
  (∀ (s : State) (f : Flight), s.pke.state = 0 → s.vent.pkeDarnPending = false → s.pkeNext = some f →
    (∀ st, pkeCheck s f = some st → Answers .pkeTakeUp s fun t => s.Ended t f (hideFor f.queue pkeHidden st) ∧ t.pke.state = 0 ∧ t.pke.run = none) ∧
    (pkeCheck s f = none → Desc.pkeFn f.desc ≠ 7 → Answers .pkeTakeUp s fun t =>
      t.pke.state = 1 ∧ t.pke.phase = 1 ∧ t.pke.run = some f.tag ∧ t.pke.holders = s.pke.holders ∧ t.cmd = s.cmd ∧ t.skn = s.skn) ∧
    (s.Runs f.tag 0x37 f → pkeCheck s f = none → Answers (.pkeEphClear f.tag) s fun t => s.Ended t f 0 ∧ t.pke.holder (Desc.holder f.desc) = {} ∧
      ∀ h, h ≠ Desc.holder f.desc → t.pke.holder h = s.pke.holder h)) ∧
  (∀ (s : State) (tag : Tag) (f : Flight), s.pke.run = some tag → f.tag = tag → s.pke.phase = 1 → s.ownDone (.cmd tag) = true →
    let u := if bit s.pke.constValid (Desc.pkeSet f.desc) then s else s.at (s.pke.since.toNat + cyclesNs (pkeConst (Desc.pkeSet f.desc)))
    let o := pkeCompute u f.desc ((pkeInputs f.desc).map fun e => u.pkeRead f e.1 e.2) (u.randomBytes 64)
    let ready : Prop := Desc.pkeFn f.desc = 1 ∨ s.skn.drbgReady 0 = true
    let timed (t : State) : Prop := t.pke.phase = 2 ∧ t.pke.outcome = some o ∧ t.pke.run = some tag ∧ t.cmd = s.cmd ∧ t.skn.slots = s.skn.slots
    let kept (t : State) : Prop := timed t ∧ t.pke.holders = s.pke.holders
    (s.Runs tag 0x30 f → ready → Answers (.pkeSign tag) s kept) ∧ (s.Runs tag 0x31 f → ready → Answers (.pkeVerify tag) s kept) ∧
    (s.Runs tag 0x32 f → ready → Answers (.pkePubkey tag) s kept) ∧ (s.Runs tag 0x33 f → ready → Answers (.pkeKeygen tag) s kept) ∧
    (s.Runs tag 0x34 f → ready → Answers (.pkeEncaps tag) s kept) ∧
    (s.Runs tag 0x35 f → ready → Answers (.pkeDecaps tag) s fun t => timed t ∧ (t.pke.holder (Desc.holder f.desc)).kemFull = false ∧ (t.pke.holder (Desc.holder f.desc)).dz = []) ∧
    (s.Runs tag 0x36 f → ready → Answers (.pkeEcdh tag) s fun t => timed t ∧ (t.pke.holder (Desc.holder f.desc)).dhFull = false ∧ (t.pke.holder (Desc.holder f.desc)).scalar = 0) ∧
    (¬ ready → ∀ e ∈ [((0x30 : BitVec 8), Instr.pkeSign tag), (0x32, .pkePubkey tag), (0x33, .pkeKeygen tag), (0x34, .pkeEncaps tag), (0x35, .pkeDecaps tag), (0x36, .pkeEcdh tag)],
      s.Runs tag e.1 f → Answers e.2 s fun t => s.Ended t f (hideFor f.queue pkeHidden 0x020A) ∧ t.pke.run = none ∧ t.pke.holders = s.pke.holders)) ∧
  (∀ (s : State) (tag : Tag) (f : Flight) (o : PkeOut), s.pke.run = some tag → s.cmd.flight tag = some f → s.pke.phase = 2 → s.pke.outcome = some o → o.cycles ≠ 0 →
    (Answers (.pkeComplete true) s fun t => t.pke.state = 2 ∧ t.pke.run = none ∧ t.pke.mem = [] ∧ t.pke.cntFault = s.pke.cntFault + 1 ∧
      t.pke.after = s.pke.after ++ [(tag, 0x040C, none)] ∧ t.cmd = s.cmd) ∧
    (s.pke.wrote = false → o.status ≠ 0 → Answers (.pkeComplete false) s fun t => s.Ended t f (hideFor f.queue pkeHidden o.status) ∧ t.pke.run = none ∧ t.skn = s.skn ∧ t.pke.mem = s.pke.mem) ∧
    (s.pke.wrote = false → ∀ st, s.pkeTaken f.desc = some st → o.status = 0 → Answers (.pkeComplete false) s fun t =>
      s.Ended t f (hideFor f.queue pkeHidden st) ∧ t.pke.run = none ∧ t.skn = s.skn ∧ t.pke.mem = s.pke.mem ∧ t.pke.holders = s.pke.holders) ∧
    (s.pke.wrote = false → s.pkeTaken f.desc = none → o.status = 0 → Desc.pkeFn f.desc < 4 → Desc.pkePlain f.desc = false → Answers (.pkeComplete false) s fun t =>
      let w := if Desc.pkeFn f.desc = 1 then s else s.pkeWrite f (Desc.dst f.desc) o.out
      s.Ended t f 0 ∧ (∀ v, o.result = some v → s.EndedWith t f 0 v) ∧ t.pke.state = 0 ∧ t.skn = w.skn ∧ t.pke.mem = w.pke.mem ∧
      (Desc.pkeFn f.desc ≠ 1 → qClass f.queue = .keeper → isSramForm (Desc.dst f.desc) = true →
        t.skn.keeperSram = Mem.write 0 s.skn.keeperSram (field (Desc.dst f.desc) 0 20).toNat o.out) ∧
      (∀ h, o.holder = some h → (h.kemFull = true ∨ h.dhFull = true) → t.pke.holder (Desc.holder f.desc) = (s.pke.holder (Desc.holder f.desc)).join h)) ∧
    (s.pke.wrote = false → o.status = 0 → Desc.pkeFn f.desc ∈ [4, 5, 6] →
      (s.skn.locked (Desc.skey f.desc) = true → s.pkeTaken f.desc = some 0x0202) ∧
      (s.skn.locked (Desc.skey f.desc) = false → Desc.pkePlain f.desc = false → Answers (.pkeComplete false) s fun t =>
        s.EndedWith t f 0 ((s.skn.slot (Desc.skey f.desc)).gen.setWidth 64) ∧ t.pke.state = 0 ∧
        t.skn.slot (Desc.skey f.desc) = (s.skn.slot (Desc.skey f.desc)).fill (Desc.attr f.desc) 6 o.secret)) ∧
    (o.status = 0 → Desc.pkePlain f.desc = true → s.pkeTaken f.desc = none →
      (s.pke.wrote = false → Answers (.pkeComplete false) s fun t => t.cmd = s.cmd ∧ t.pke = { s.pke with wrote := true } ∧ t.skn = s.skn ∧
        ∀ w ∈ plainLines (field (Desc.dst f.desc) 0 52).toNat o.out, w.behind tag ∈ t.own ∧
          ∃ r ∈ t.own, r.purpose = .save tag ∧ r.op = 0 ∧ r.addr = w.addr ∧ r.dom = 65) ∧
      (s.pke.wrote = true → ¬ (s.ownDone (.cmd tag) = true ∧ s.ownDone (.save tag) = true) → exec (.pkeComplete false) s = .next s) ∧
      (s.pke.wrote = true → s.ownDone (.cmd tag) = true → s.ownDone (.save tag) = true → Answers (.pkeComplete false) s fun t =>
        s.Ended t f 0 ∧ t.pke.state = 0 ∧ t.pke.run = none ∧ (∀ v, o.result = some v → Desc.pkeFn f.desc < 4 → s.EndedWith t f 0 v))))

/-- PKE_ABORT of the running operation starts a clearing that completes both when it ends; of a waiting one it completes both at once; naming none it completes with RESULT 0. The end of a clearing leaves the engine idle with operand memory zero and no constants, counts it and completes the stopped operation. A write of SLOT_LEN by Keeper to an idle engine without waiting operations takes the value and starts a clearing; any other sets ERR. (R340, R361, R363, R364) -/
def Obligations.PublicKeyAbortsAndClearings : Prop :=
  (∀ (s : State) (tag : Tag) (f : Flight), s.Runs tag 0x38 f → (Desc.length f.desc).toNat = 0 → f.started = false →
    let named := Desc.argField f.desc 0 9
    (s.pke.run = some named → Answers (.pkeAbort tag) s fun t => t.pke.state = 2 ∧ t.pke.run = none ∧ t.pke.mem = [] ∧ t.cmd.ring = s.cmd.ring ∧
      t.pke.after = s.pke.after ++ [(named, 0x040D, none), (tag, 0, some 1)]) ∧
    (s.pke.run ≠ some named → s.pkeWaiting.find? (fun g => g.tag = named) = none → Answers (.pkeAbort tag) s fun t => s.EndedWith t f 0 0 ∧ t.pke = s.pke) ∧
    (∀ g, s.pke.run ≠ some named → s.pkeWaiting.find? (fun g => g.tag = named) = some g → Answers (.pkeAbort tag) s fun t =>
      t.cmd.flight named = none ∧ t.cmd.flight tag = none ∧ t.pke = s.pke)) ∧
  (∀ s : State, s.pke.state = 2 → Answers .pkeClearingEnd s fun t => t.pke.state = 0 ∧ t.pke.mem = [] ∧ t.pke.constValid = 0 ∧ t.pke.after = [] ∧
    t.pke.cntClear = s.pke.cntClear + 1 ∧ (s.pke.after = [] → t.cmd = s.cmd) ∧
    ∀ tag f st r, s.pke.after = [(tag, st, r)] → s.cmd.flight tag = some f → s.Ended t f st) ∧
  (∀ (s : State) (v : BitVec 3),
    (v.toNat ≤ 5 → s.pke.state = 0 → s.pkeWaiting = [] → Answers (.pkeSlotLenWrite .K v) s fun t => t.pke.slotLen = v ∧ t.pke.state = 2 ∧ t.pke.mem = [] ∧ t.pke.constValid = 0 ∧ t.cmd = s.cmd) ∧
    ((5 < v.toNat ∨ s.pke.state ≠ 0 ∨ s.pkeWaiting ≠ []) → exec (.pkeSlotLenWrite .K v) s = .next { s with pke := { s.pke with err := true } }) ∧
    ∀ c, c ≠ .K → exec (.pkeSlotLenWrite c v) s = .next s)

/-- With no operation running: OTP_READ gives the word at the asked reference, for an ECC word its decoded value or UNCORR, and zeros with 0x080A for words that hold secrets; OTP_PROGRAM and OTP_REBURN that pass their checks start the program of their target bits (of the counters whatever is set; a re-burn where the word already holds the data) and change no word, else set STATUS; OTP_CHECK compares the digest. OTP_OP_COMPLETE ends the program with STATUS 0 or 0x0808 and loses no fuse. While one runs, an OTP_READ changes no result. From any class but Keeper the four commands change nothing. (R390, R391, R392, R393, R394, R397, R398) -/
def Obligations.FuseCommandsOfKeeper : Prop :=
  ∀ (s : State) (a : BitVec 11),
    let n := a.toNat
    (s.otp.running = none →
      (∀ m : BitVec 2, 0x050 ≤ n → n ≤ 0x06E → Answers (.otpRead .K m a) s fun t => t.otp.rdata = 0 ∧ t.otp.rdec = 0 ∧ t.otp.status = 0x080A ∧ t.otp.words = s.otp.words) ∧
      (∀ (m : BitVec 2) (v : BitVec 32) (c : Bool), ¬ (0x050 ≤ n ∧ n ≤ 0x06E) → incOf n = none → m.toNat < 3 →
        let raw := if m = 0 then (s.otp.word n).nrm else if m = 1 then (s.otp.word n).low else (s.otp.word n).hi
        eccDecode raw = some (v, c) → Answers (.otpRead .K m a) s fun t =>
          t.otp.rdata = raw ∧ t.otp.rdec = v ∧ t.otp.corrected = c ∧ t.otp.rUncorr = false ∧ t.otp.status = 0 ∧ t.otp.words = s.otp.words) ∧
      (∀ m : BitVec 2, ¬ (0x050 ≤ n ∧ n ≤ 0x06E) → Answers (.otpRead .K m a) s fun t => t.otp.status = 0 ∧ t.otp.words = s.otp.words ∧ t.otp.running = none ∧
        (m = 0 → t.otp.rdata = (s.otp.word n).nrm) ∧ (m = 1 → t.otp.rdata = (s.otp.word n).low) ∧ (m = 2 → t.otp.rdata = (s.otp.word n).hi) ∧
        (m = 0 → incOf n = none → (t.otp.rUncorr = true ↔ eccDecode (s.otp.word n).nrm = none))) ∧
      (otpProgramCheck s n s.otp.wdata = none → (eccPartOf n = none ∨ (s.otp.word n).nrm = 0) → Answers (.otpProgram .K a) s fun t => t.otp.words = s.otp.words ∧
        t.otp.running = some { user := .command, addr := n, reburn := false, t0 := (programTargets n s.otp.wdata).1, t1 := (programTargets n s.otp.wdata).2.1,
                               t2 := (programTargets n s.otp.wdata).2.2, start := s.bnd.timebase }) ∧
      (∀ x, otpProgramCheck s n s.otp.wdata = none → (eccPartOf n).isSome = true → (s.otp.word n).nrm ≠ 0 → s.otp.reburnTargets n = some x →
        Answers (.otpProgram .K a) s fun t => t.otp.words = s.otp.words ∧
          t.otp.running = some { user := .command, addr := n, reburn := true, t0 := x.1, t1 := x.2.1, t2 := x.2.2, start := s.bnd.timebase }) ∧
      (∀ st, otpProgramCheck s n s.otp.wdata = some st → Answers (.otpProgram .K a) s fun t => t.otp.status = st ∧ t.otp.running = none ∧ t.otp.words = s.otp.words) ∧
      (∀ x, (otpCodeOf n).isSome = true → 1 ≤ s.lc.state.toNat → s.lc.state.toNat < 6 → s.otp.reburnTargets n = some x → otpCommon s = none →
        Answers (.otpReburn .K a) s fun t => t.otp.words = s.otp.words ∧
          t.otp.running = some { user := .command, addr := n, reburn := true, t0 := x.1, t1 := x.2.1, t2 := x.2.2, start := s.bnd.timebase }) ∧
      (
        let refused (st : Status) : Prop := Answers (.otpReburn .K a) s fun t => t.otp.status = st ∧ t.otp.running = none ∧ t.otp.words = s.otp.words
        (otpCodeOf n = none → refused 0x0802) ∧
        ((otpCodeOf n).isSome = true → (s.lc.state.toNat = 0 ∨ 6 ≤ s.lc.state.toNat) → refused 0x0803) ∧
        ((otpCodeOf n).isSome = true → 1 ≤ s.lc.state.toNat → s.lc.state.toNat < 6 → s.otp.reburnTargets n = none → refused 0x0809) ∧
        (∀ x st, (otpCodeOf n).isSome = true → 1 ≤ s.lc.state.toNat → s.lc.state.toNat < 6 → s.otp.reburnTargets n = some x → otpCommon s = some st → refused st)) ∧
      (∀ p, eccPartOf n = some p → Answers (.otpCheck .K a) s fun t => t.otp.status = 0 ∧ t.otp.words = s.otp.words ∧ t.otp.running = none ∧
        (t.otp.checkMatch = true ↔ ∃ d, s.otp.decode (p.lock - 1) = some (d, false) ∧ s.otp.digest p = some d)) ∧
      (eccPartOf n = none → Answers (.otpCheck .K a) s fun t => t.otp.status = 0x0802 ∧ t.otp.words = s.otp.words)) ∧
    (s.otp.running.isSome = true → ∀ m, Answers (.otpRead .K m a) s fun t => t.otp.rdata = s.otp.rdata ∧ t.otp.status = s.otp.status ∧ t.otp.running = s.otp.running ∧ t.otp.words = s.otp.words) ∧
    (∀ (c : Cls) (m : BitVec 2), c ≠ .K → exec (.otpRead c m a) s = .next s ∧ exec (.otpProgram c a) s = .next s ∧ exec (.otpReburn c a) s = .next s ∧ exec (.otpCheck c a) s = .next s) ∧
    (∀ r b, s.otp.running = some r → r.user = .command → Answers (.otpOpComplete b) s fun t =>
      t.otp.running = none ∧ t.otp.words = (s.otp.burnRun r b).words ∧ s.otp.keeps t.otp ∧
      t.otp.status = (if (s.otp.burnRun r b).failedCopies r b = 0 then 0 else 0x0808))

/-- LC_SESSION_OPEN by Keeper, the host or the instrument that passes its checks starts the ticket program; LC_TICKET_VERIFIED opens the session when it verified. LC_TRANS_GO starts the transition that passes the checks of R415, else sets STATUS; the token is zeroed either way. LC_TRANSITION_PHASE takes the next phase, or stops when copy 0 does not verify; LC_TRANSITION_END sets STATUS by the state that OTP then decodes to and ends the session and unsigned code that is no longer permitted. The test gates follow, and no fuse is lost. (R408, R411, R412, R414, R415, R416, R417, R418, R419, R420) -/
def Obligations.LifeCycleTransitionsAndSessions : Prop :=
  (∀ (s : State) (c : Cls), c ≠ .O → s.lcWrites c = true → s.reaches c 0x0740008 = true → (s.lc.state = 1 ∨ s.lc.state = 2) → s.lc.session = false → s.lc.ticketsUsed.toNat < 16 →
    s.otp.running = none → s.lc.trBusy = false → s.bnd.vppOk = true → s.bnd.pwrWarn = false → Answers (.lcSessionOpen c) s fun t =>
      t.lc = { s.lc with sessBusy := true } ∧ t.otp.words = s.otp.words ∧ ∃ r, t.otp.running = some r ∧ r.user = .ticket ∧ r.addr = 0x4BC ∧
        r.t0 = 1 <<< s.lc.ticketsUsed.toNat ∧ r.t1 = r.t0 ∧ r.t2 = r.t0) ∧
  (∀ (s : State) (b : Burn) (r : OtpRun), s.otp.running = some r → r.user = .ticket → Answers (.lcTicketVerified b) s fun t =>
    t.otp.running = none ∧ t.lc.sessBusy = false ∧ s.otp.keeps t.otp ∧
    ((s.otp.burnRun r b).failedCopies r b = 0 → t.lc.session = true ∧ t.lc.sessStatus = 0 ∧ t.lc.ticketsUsed = s.lc.ticketsUsed + 1 ∧ t.bnd.testGate = t.gateValue) ∧
    ((s.otp.burnRun r b).failedCopies r b ≠ 0 → t.lc.session = s.lc.session ∧ t.lc.sessStatus = 0x090E)) ∧
  (∀ (s : State) (c : Cls) (target : BitVec 4), s.lcWrites c = true → s.reaches c 0x0740010 = true →
    (lcGoCheck s c target.toNat = none → Answers (.lcTransGo c target) s fun t => t.lc.trBusy = true ∧ t.lc.trPhase = 1 ∧ t.lc.trTo = target ∧ t.lc.token = 0 ∧
      t.lc.state = s.lc.state ∧ t.otp = s.otp) ∧
    (∀ st, lcGoCheck s c target.toNat = some st → Answers (.lcTransGo c target) s fun t => t.lc.trBusy = s.lc.trBusy ∧ t.lc.trStatus = st ∧ t.lc.token = 0 ∧
      t.lc.state = s.lc.state ∧ t.otp = s.otp)) ∧
  (∀ (s : State) (w0 w1 w2 w3 : CopyBurn), s.lc.trBusy = true → s.lc.trStop = false → 1 ≤ s.lc.trPhase.toNat → s.lc.trPhase.toNat ≤ 4 →
    Answers (.lcTransitionPhase w0 w1 w2 w3) s fun t => t.lc.trBusy = true ∧ t.lc.state = s.lc.state ∧ s.otp.keeps t.otp ∧
      (t.lc.trPhase = s.lc.trPhase + 1 ∧ t.lc.trStop = false ∨ s.lc.trPhase = 2 ∧ t.lc.trPhase = 2 ∧ t.lc.trStop = true) ∧
      (s.lc.trPhase = 2 → (t.lc.trStop = false ↔ ∀ x ∈ lcChanges s, (t.otp.word (0x4B0 + x.1)).verified x.2 = true))) ∧
  (∀ s : State, s.lc.trBusy = true → (s.lc.trPhase = 5 ∨ s.lc.trStop = true) → Answers .lcTransitionEnd s fun t =>
    t.lc.trBusy = false ∧ t.lc.trPhase = 0 ∧ t.otp = s.otp ∧ t.lc.otpState = s.otp.lcCode ∧ t.bnd.testGate = t.gateValue ∧
    t.lc.trStatus = (if s.lc.trStop then 0x090E else if s.otp.lcCode = s.lc.trTo then 0 else 0x090F) ∧
    (t.lc.trStatus = 0 → t.lc.transSince = true ∧ t.lc.session = false) ∧ t.co.unsignedRun = (s.co.unsignedRun && t.unsignedOk))

/-- LC_DBG_NEW by Keeper in state 4 stores a new challenge; LC_CHALLENGE_EXPIRE removes it. LC_DBG_GRANT by Keeper, who first erases the ledger and configuration keys, consumes the challenge where it passes R425, empties slots 0 to 3 and 16 to 18, changes no other slot and starts the count program; else it sets STATUS. LC_GRANT_OPEN opens the grant when that program verified, else sets 0x090E. LC_DBG_LOCK and LC_GRANT_EXPIRE end an open grant, and the test gates follow. (R422, R423, R425, R426, R427) -/
def Obligations.DebugGrants : Prop :=
  (∀ s : State, s.lc.state = 4 → s.skn.drbgReady 0 = true → Answers (.lcDbgNew .K) s fun t =>
    t.lc = { s.lc with chal := some { record := lcRecord s (s.randomBytes 48), time := s.bnd.timebase }, dbgStatus := 0 } ∧ t.otp = s.otp ∧ t.skn.slots = s.skn.slots) ∧
  (∀ s : State, s.lc.state ≠ 4 → Answers (.lcDbgNew .K) s fun t => t = { s with lc := { s.lc with dbgStatus := 0x0902 } }) ∧
  (∀ (s : State) (c : LcChal), s.lc.chal = some c → Answers .lcChallengeExpire s fun t => t.lc = { s.lc with chal := none } ∧ t.otp = s.otp) ∧
  (∀ s : State, let u := s.eraseStoreKeys fun _ => true
    (lcGrantCheck u = none → Answers (.lcDbgGrant .K) s fun t => t.lc.chal = none ∧ t.lc.dbgSince = true ∧ t.lc.dbgOpen = u.lc.dbgOpen ∧
      (∀ i, i ∈ [0, 1, 2, 3, 16, 17, 18] → (t.skn.slot i).valid = false ∧ (t.skn.slot i).mat = 0) ∧
      (∀ i, i ∉ [0, 1, 2, 3, 16, 17, 18] → t.skn.slot i = u.skn.slot i) ∧ t.otp.words = u.otp.words ∧ t.fl.keys = [] ∧
      ∃ r, t.otp.running = some r ∧ r.user = .count ∧ r.addr = 0x4BD + u.lc.unlocks.toNat / 32 ∧ r.t0 = 1 <<< (u.lc.unlocks.toNat % 32)) ∧
    (∀ st, lcGrantCheck u = some st → exec (.lcDbgGrant .K) s = .next { u with lc := { u.lc with dbgStatus := st } })) ∧
  (∀ (s : State) (b : Burn) (r : OtpRun) (sc : BitVec 2) (dur : BitVec 16), s.otp.running = some r → r.user = .count → s.lc.granting = some (sc, dur) →
    Answers (.lcGrantOpen b) s fun t => t.otp.running = none ∧ s.otp.keeps t.otp ∧ t.lc.granting = none ∧
      ((s.otp.burnRun r b).failedCopies r b = 0 → t.lc.dbgOpen = true ∧ t.lc.dbgScope = sc ∧ t.lc.grantFor = dur ∧ t.lc.dbgStatus = 0 ∧ t.bnd.testGate = t.gateValue) ∧
      ((s.otp.burnRun r b).failedCopies r b ≠ 0 → t.lc.dbgOpen = s.lc.dbgOpen ∧ t.lc.dbgStatus = 0x090E)) ∧
  (∀ s : State, s.lc.dbgOpen = true →
    (s.lc.state.toNat < 6 → Answers (.lcDbgLock .K) s fun t => t.lc.dbgOpen = false ∧ t.lc.dbgScope = 0 ∧ t.lc.dbgStatus = 0 ∧ t.bnd.testGate = t.gateValue ∧ t.otp = s.otp) ∧
    (Answers .lcGrantExpire s fun t => t.lc.dbgOpen = false ∧ t.lc.dbgScope = 0 ∧ t.bnd.testGate = t.gateValue ∧ t.otp = s.otp))

/-- A well-formed VENT_REPORT of a hub unit in domain 65 is counted and answered OK, a malformed one counted and REFUSED, one of another domain or site REFUSED; while the port is closed by R520 it has no effect. TEST_UNIT of a configured unit waits for its seam, or defers with an interim record when no spare stands by; other units complete at once with their outcome. A deferred test fences its unit after an idle row, SELF_TEST_START takes the first ready test, SELF_TEST_END repeats a first failure, makes a second one lasting and completes. TEST_PROBE completes and returns state and number of a unit in service, TEST_FENCE of a configured unit waits for its seam and completes at once for another. The row's strobe logs each report of the row, opens the row-routed ones, starts a storm above 16 reports of one pair with a test of the unit; the seam puts a spare in the place of a waiting test's unit (new epoch), or fences it where none stands by. CALDERA_COPY_END makes a finished copy wait for the seam; VENT_REPORT_EXPIRE drops an expired row-routed report. (R98, R628, R629, R630, R631, R633, R634, R635, R636, R638, R639, R646) -/
def Obligations.VentTakesReportsAndRunsTests : Prop :=
  (∀ (s : State) (h : NocHdr) (size : BitVec 7) (d : W128),
    (hdrBarred h = true → exec (.ventReport h size d) s = .next (s.respond h .refused)) ∧
    (hdrBarred h = false → s.reaches (.C h.site false) 0x07E0000 = true → h.dom ≠ 65 ∨ h.site = 31 → exec (.ventReport h size d) s = .next (s.respond h .refused)) ∧
    (hdrBarred h = false → s.reaches (.C h.site false) 0x07E0000 = false →
      exec (.ventReport h size d) s = .next (s.respond h (if s.portRefuses h then .refused else .ok)))) ∧
  (∀ (s : State) (h : NocHdr) (size : BitVec 7) (d : W128), s.reaches (.C h.site false) 0x07E0000 = true → h.rsvdOp = false → h.dom = 65 →
    (h.site.toNat < 24 ∨ h.site = 30) →
    (reportOk size.toNat d = true → Answers (.ventReport h size d) s fun t => t.vent.accepted = s.vent.accepted + 1 ∧ t.vent.refused = s.vent.refused ∧
      t.out = s.out ++ [.nocResp h.txid .ok 0] ∧ t.cmd = s.cmd) ∧
    (reportOk size.toNat d = false → Answers (.ventReport h size d) s fun t => t.vent = { s.vent with refused := satAdd s.vent.refused 1 } ∧
      t.out = s.out ++ [.nocResp h.txid .refused 0])) ∧
  (∀ (s : State) (hd : BitVec 16), Answers (.ventReportExpire hd) s fun t => t.cmd = s.cmd ∧ t.vent = { s.vent with opens := t.vent.opens } ∧
    ∀ r, r ∈ t.vent.opens ↔ r ∈ s.vent.opens ∧ ¬ (r.handle = hd ∧ 256 ≤ r.rows)) ∧
  (∀ (s : State) (tag : Tag) (f : Flight),
    let u := Desc.unit f.desc
    (s.Runs tag 0xA0 f → f.started = false →
      (∀ o, unitOutcome s u = some o → Answers (.testUnit tag) s fun t => s.EndedWith t f 0 (BitVec.ofNat 64 o) ∧ t.vent = s.vent) ∧
      (unitOutcome s u = none → ((s.vent.unitRec u).state ≠ 0 ∨ s.vent.freeSpares u ≠ []) → Answers (.testUnit tag) s fun t =>
        t.vent.tests = s.vent.tests ++ [{ unitId := u, byCmd := some tag, was := (s.vent.unitRec u).state, asked := s.bnd.timebase }] ∧
        t.cmd.ring = s.cmd.ring ∧ t.cmd.flight tag = some { f with started := true }) ∧
      (unitOutcome s u = none → (s.vent.unitRec u).state = 0 → s.vent.freeSpares u = [] → Answers (.testUnit tag) s fun t =>
        t.vent.tests = s.vent.tests ++ [{ unitId := u, byCmd := some tag, phase := .deferred, asked := s.bnd.timebase }] ∧
        field (s.recordAt t f.queue) 0 16 = 0x0109 ∧ (t.cmd.queue f.queue).tail = (s.cmd.queue f.queue).tail + 1 ∧ (t.cmd.flight tag).isSome = true)) ∧
    (s.Runs tag 0xA1 f → Answers (.testProbe tag) s fun t => s.Ended t f 0 ∧ t.vent = s.vent) ∧
    (s.Runs tag 0xA1 f → unitOutcome s u = none → (s.vent.unitRec u).state = 0 → Answers (.testProbe tag) s fun t =>
      s.EndedWith t f 0 (pack [(4, 0), (16, s.vent.logicalOf u)]) ∧ t.vent = s.vent) ∧
    (∀ o, s.Runs tag 0xA2 f → f.started = false → unitOutcome s u = some o → Answers (.testFence tag) s fun t => s.Ended t f 0 ∧ t.vent = s.vent) ∧
    (s.Runs tag 0xA2 f → f.started = false → unitOutcome s u = none → Answers (.testFence tag) s fun t =>
      t.vent.tests = s.vent.tests ++ [{ unitId := u, byCmd := some tag, fence := true, was := (s.vent.unitRec u).state, asked := s.bnd.timebase }] ∧
      t.cmd.ring = s.cmd.ring ∧ t.cmd.flight tag = some { f with started := true })) ∧
  (∀ (s : State) (u : UnitId) (x : Test), s.vent.tests = [x] → x.unitId = u →
    (x.phase = .deferred → x.asked.toNat / 1000 + 2 ≤ s.row → (s.vent.unitRec u).state = 0 → s.testable u = true → Answers (.deferredTestStart u) s fun t =>
      t.vent.tests = [{ x with phase := .ready, deferredRun := true, was := 0 }] ∧ (t.vent.unitRec u).state = 3) ∧
    (x.phase = .deferred → (s.vent.unitRec u).state = 5 → Answers (.deferredTestStart u) s fun t => t.vent.tests = [] ∧
      ∀ tag f, x.byCmd = some tag → s.cmd.flight tag = some f → s.Ended t f 0) ∧
    (x.phase = .ready → s.testable u = true → Answers .selfTestStart s fun t =>
      t.vent.tests = [{ x with phase := .running, start := s.bnd.timebase }] ∧ (t.vent.unitRec u).state = 2 ∧ t.cmd = s.cmd) ∧
    (x.phase = .running → x.again = false → Answers (.selfTestEnd u false) s fun t => t.vent.tests = [{ x with again := true }] ∧ t.vent.units = s.vent.units ∧ t.cmd = s.cmd) ∧
    (x.phase = .running → x.again = true → Answers (.selfTestEnd u false) s fun t => t.vent.tests = [] ∧ (t.vent.unitRec u).lasting = true ∧
      ∀ tag f, x.byCmd = some tag → s.cmd.flight tag = some f → s.Ended t f 0) ∧
    (∀ tag f, x.phase = .running → x.again = false → x.byCmd = some tag → s.cmd.flight tag = some f → Answers (.selfTestEnd u true) s fun t =>
      t.vent.tests = [{ x with phase := .passed }] ∧ s.Ended t f 0)) ∧
  (∀ (s : State) (r : VentRec), s.vent.table = [r] → s.vent.storms = [] → s.bnd.snsAlert = false →
    let t := s.ventTick
    s.Logs t 0x0D0000C0 ∧ t.vent.table = [] ∧ t.vent.accepted = 0 ∧
    t.vent.opens.length = s.vent.opens.length + (if r.cls = 8 ∨ r.cls = 10 then 1 else 0) ∧
    (r.count.toNat ≤ 16 → t.vent.storms = [] ∧ t.vent.tests = s.vent.tests) ∧
    (16 < r.count.toNat → t.vent.storms = [{ cls := r.cls, code := r.code, rows := 1 }] ∧
      (unitExternal r.peer = false → unitConfigured r.peer = true → s.vent.testing r.peer = false → (s.vent.unitRec r.peer).state ≠ 5 → (s.vent.unitRec r.peer).lasting = false →
        t.vent.tests = s.vent.tests ++ [{ unitId := r.peer, byCmd := none, was := (s.vent.unitRec r.peer).state }]))) ∧
  (∀ (s : State) (x : Test), s.vent.tests = [x] → x.phase = .waiting → x.fence = false → s.vent.copying = [] → s.vent.copyDone = [] →
    unitKind x.unitId ≠ 5 → unitKind x.unitId ≠ 9 → (s.vent.unitRec x.unitId).state = 0 →
    let u := x.unitId
    let n := s.vent.logicalOf u
    let t := s.ventSeam
    (∀ sp l, s.vent.freeSpares u = sp :: l → t.vent.tests = [{ x with spare := some sp, phase := .ready }] ∧ (t.vent.unitRec u).state = 2 ∧
      (t.vent.unitRec sp).state = 0 ∧ (t.vent.unitRec sp).logical = some n ∧
      SMap.get 0 t.vent.epochs (2048 * unitKind u + n) = SMap.get 0 s.vent.epochs (2048 * unitKind u + n) + 1) ∧
    (s.vent.freeSpares u = [] → x.byCmd = none → t.vent.tests = [{ x with phase := .ready }] ∧ (t.vent.unitRec u).state = 3)) ∧
  (∀ (s : State) (u : UnitId), Answers (.calderaCopyEnd u) s fun t => t.vent = { s.vent with copying := t.vent.copying, copyDone := t.vent.copyDone } ∧
    (∀ c, c ∈ t.vent.copying ↔ c ∈ s.vent.copying ∧ c.1 ≠ u) ∧ ∀ c, c ∈ t.vent.copyDone ↔ c ∈ s.vent.copyDone ∨ c ∈ s.vent.copying ∧ c.1 = u)

/-- With the log open and no loss pending, SNT_APPEND by Keeper or Steward writes the entry at PROD with TIMEBASE and advances PROD; on a full ring it counts a loss and writes nothing. By another class it changes nothing. SNT_CKPT_WRITE by Steward to an entry not past PROD takes the value and frees the entries behind it; a value further on, or another class, changes nothing. (R642, R643, R719) -/
def Obligations.SinterEntriesAreAppendedAndCheckpointed : Prop :=
  (∀ (s : State) (c : Cls) (d : BitVec 256), c = .K ∨ c = .S → s.snt.opened = true → s.snt.lostSince = 0 →
    (s.snt.pend < 2097152 → Answers (.sntAppend c d) s fun t => t.snt.prod = s.snt.prod + 1 ∧ t.snt.pend = s.snt.pend + 1 ∧ t.snt.lost = s.snt.lost ∧
      SMap.get {} t.snt.ring s.snt.prod.toNat = { time := s.bnd.timebase, code := field d 64 32, unitId := field d 96 16, dom := field d 112 8, flags := field d 120 8, p0 := field d 128 64, p1 := field d 192 64 } ∧
      ∀ i, i ≠ s.snt.prod.toNat → SMap.get {} t.snt.ring i = SMap.get {} s.snt.ring i) ∧
    (2097152 ≤ s.snt.pend → Answers (.sntAppend c d) s fun t => t.snt.ring = s.snt.ring ∧ t.snt.prod = s.snt.prod ∧ t.snt.lost = satAdd s.snt.lost 1 ∧ t.snt.lostSince = 1)) ∧
  (∀ (s : State) (c : Cls) (d : BitVec 256), c ≠ .K → c ≠ .S → exec (.sntAppend c d) s = .next s) ∧
  (∀ (s : State) (v : BitVec 21),
    ((v - s.snt.ckpt).toNat ≤ s.snt.pend → Answers (.sntCkptWrite .S v) s fun t => t.snt.ckpt = v ∧ t.snt.pend + (v - s.snt.ckpt).toNat = s.snt.pend ∧ t.snt.ring = s.snt.ring) ∧
    (s.snt.pend < (v - s.snt.ckpt).toNat → exec (.sntCkptWrite .S v) s = .next s) ∧
    (∀ c : Cls, c ≠ .S → exec (.sntCkptWrite c v) s = .next s))

/-- LINK_JOB and LINK_REKEY that pass their checks derive their lane key into a shadow entry and wait for the seam, else complete with the status of the check; the seam makes the entry live and completes them, not before the derivation core has derived it. LINK_END ends the job and frees its streams; LINK_PROBE returns generation and counter. LINK_TX_FRAME: a plain frame passes an enabled lane and is counted; a protected frame of a job that passes takes its packet number and, without injection, goes out in protected form; without such a job it is dropped and counted. LINK_RX_FRAME: a plain frame passes; a protected one that is malformed, of no such job or generation, not authentic, a repetition, or of a stream with no room is dropped and counted; one that authenticates is delivered, on a new stream too. A lane that is not up passes nothing. (R244, R247, R248, R250, R251, R252, R254, R255, R256, R289, R290) -/
def Obligations.LinkJobsAndFrames : Prop :=
  (∀ (s : State) (tag : Tag) (f : Flight), f.started = false →
    let d := f.desc
    (s.Runs tag 0x90 f → linkJobCheck s d = none → Answers (.linkJob tag) s fun t => t.cmd.flight tag = some { f with started := true } ∧ t.lnk = s.lnk ∧
      t.skn.shadows = s.skn.shadows ++ [{ tag := tag, jobKey := jobKey s.skn (Desc.jobSlot d) (Desc.job d) 0 }]) ∧
    (∀ st, s.Runs tag 0x90 f → linkJobCheck s d = some st → Answers (.linkJob tag) s fun t => s.Ended t f st ∧ t.lnk = s.lnk) ∧
    (∀ i x, s.Runs tag 0x91 f → linkRekeyCheck s d = none → s.jobOf d = some (i, x) → Answers (.linkRekey tag) s fun t =>
      t.cmd.flight tag = some { f with started := true } ∧ t.lnk = s.lnk ∧
      t.skn.shadows = s.skn.shadows ++ [{ tag := tag, jobKey := jobKey s.skn (Desc.jobSlot d) (Desc.job d) (x.kgen + 1 + BitVec.ofNat 8 (s.rekeys (Desc.job d))) }]) ∧
    (∀ st, s.Runs tag 0x91 f → linkRekeyCheck s d = some st → Answers (.linkRekey tag) s fun t => s.Ended t f st ∧ t.lnk = s.lnk) ∧
    (∀ i x, s.Runs tag 0x92 f → s.jobOf d = some (i, x) → Answers (.linkEnd tag) s fun t => t.jobEntry x.job = none ∧ (∀ e ∈ t.lnk.streams, e.job ≠ x.job) ∧
      s.EndedWith t f 0 (BitVec.ofNat 64 (s.lnk.streams.filter fun e => e.job = x.job).length)) ∧
    (∀ i x, s.Runs tag 0x93 f → s.jobOf d = some (i, x) → Answers (.linkProbe tag) s fun t => t.lnk = s.lnk ∧
      s.EndedWith t f 0 (pack [(0, x.kgen.toNat), (8, b2n x.prev.isSome), (16, x.pn % 2 ^ 48)])) ∧
    (s.jobOf d = none → (s.Runs tag 0x92 f → Answers (.linkEnd tag) s fun t => s.Ended t f 0x0722 ∧ t.lnk = s.lnk) ∧
      (s.Runs tag 0x93 f → Answers (.linkProbe tag) s fun t => s.Ended t f 0x0722 ∧ t.lnk = s.lnk))) ∧
  (∀ (s : State) (l : BitVec 6) (p : Bool) (j : BitVec 24) (frame : List Byte),
    (s.laneUp l.toNat = false → exec (.linkTxFrame l p j frame) s = .next s ∧ exec (.linkRxFrame l frame) s = .next s) ∧
    (s.laneUp l.toNat = true → Answers (.linkTxFrame l false j frame) s fun t => .frameTx l.toNat frame ∈ t.out ∧ t.lnk.jobs = s.lnk.jobs) ∧
    (∀ i y, s.laneUp l.toNat = true → s.jobEntry j = some (i, y) →
      (s.jobPasses l.toNat y = false ∨ 2 ^ 48 ≤ y.pn → exec (.linkTxFrame l true j frame) s = .next ((s.worked (· = unitOf 7 l.toNat)).setLane l.toNat { s.lane l.toNat with txDrop := (s.lane l.toNat).txDrop + 1 })) ∧
      (s.jobPasses l.toNat y = true → y.pn < 2 ^ 48 → Answers (.linkTxFrame l true j frame) s fun t =>
        ∃ y', SMap.get none t.lnk.jobs i = some y' ∧ y'.pn = y.pn + 1 ∧ y'.key = y.key ∧ y'.kgen = y.kgen))) ∧
  (∀ (s : State) (l : BitVec 6) (frame : List Byte), s.laneUp l.toNat = true → (s.lane l.toNat).held = [] →
    let x := s.lane l.toNat
    let w := s.worked (· = unitOf 7 l.toNat)
    let n := x.clearLen.toNat
    (∀ j, Answers (.linkTxFrame l false j frame) s fun t => t.out = s.out ++ [.frameTx l.toNat frame] ∧ t.lane l.toNat = { x with txPlain := x.txPlain + 1 } ∧ t.lnk.jobs = s.lnk.jobs) ∧
    (∀ j i y, s.jobEntry j = some (i, y) → s.jobPasses l.toNat y = true → y.pn < 2 ^ 48 → x.injects = false → Answers (.linkTxFrame l true j frame) s fun t =>
      t.out = s.out ++ [.frameTx l.toNat (protect y n frame)] ∧ (t.lane l.toNat).txProt = x.txProt + 1 ∧
      ∃ y', SMap.get none t.lnk.jobs i = some y' ∧ y'.pn = y.pn + 1 ∧ y'.key = y.key ∧ y'.kgen = y.kgen) ∧
    (∀ j, s.jobEntry j = none → exec (.linkTxFrame l true j frame) s = .next (w.setLane l.toNat { x with txDrop := x.txDrop + 1 })) ∧
    ((frame.drop (n - 2)).take 2 ≠ beBytes 2 x.etype → Answers (.linkRxFrame l frame) s fun t =>
      t.out = s.out ++ [.frameRx l.toNat none frame] ∧ t.lane l.toNat = { x with rxPlain := x.rxPlain + 1 }) ∧
    ((frame.drop (n - 2)).take 2 = beBytes 2 x.etype → frame.length < n + 40 ∨ ((frame.drop n).take 24).drop 12 ≠ [1, 0] ++ List.replicate 10 0 →
      exec (.linkRxFrame l frame) s = .next (w.setLane l.toNat { x with rxAuth := x.rxAuth + 1 })) ∧
    ((frame.drop (n - 2)).take 2 = beBytes 2 x.etype → n + 40 ≤ frame.length → ((frame.drop n).take 24).drop 12 = [1, 0] ++ List.replicate 10 0 →
      s.jobEntry (ofLeBytes 24 (((frame.drop n).take 24).take 3)) = none → exec (.linkRxFrame l frame) s = .next (w.setLane l.toNat { x with rxNojob := x.rxNojob + 1 })) ∧
    (∀ i y, let hd := (frame.drop n).take 24
      let body := frame.drop (n + 24)
      let job : BitVec 24 := ofLeBytes 24 (hd.take 3)
      let rank : BitVec 16 := ofLeBytes 16 ((hd.drop 10).take 2)
      let c : BitVec 48 := ofLeBytes 48 ((hd.drop 4).take 6)
      let opened (k : Key256) : Option (List Byte) := gcmOpen k (linkIv hd) (frame.take n ++ hd) (body.take (body.length - 16)) (ofLeBytes 128 (body.drop (body.length - 16)))
      let refused : Prop := exec (.linkRxFrame l frame) s = .next (w.setLane l.toNat { x with rxAuth := x.rxAuth + 1 })
      let known := s.lnk.streams.find? fun e => e.job = job ∧ e.rank = rank
      (frame.drop (n - 2)).take 2 = beBytes 2 x.etype → n + 40 ≤ frame.length → hd.drop 12 = [1, 0] ++ List.replicate 10 0 → s.jobEntry job = some (i, y) →
      (s.jobPasses l.toNat y = false → exec (.linkRxFrame l frame) s = .next (w.setLane l.toNat { x with rxNojob := x.rxNojob + 1 })) ∧
      (s.jobPasses l.toNat y = true → hd.getD 3 0 ≠ y.kgen → (y.kgen.toNat = 0 ∨ hd.getD 3 0 ≠ y.kgen - 1 ∨ y.prev = none) → refused) ∧
      (s.jobPasses l.toNat y = true → hd.getD 3 0 = y.kgen → opened y.key = none → refused) ∧
      (∀ k, s.jobPasses l.toNat y = true → 0 < y.kgen.toNat → hd.getD 3 0 = y.kgen - 1 → y.prev = some k → opened k = none → refused) ∧
      (∀ pt, s.jobPasses l.toNat y = true → hd.getD 3 0 = y.kgen → opened y.key = some pt →
        (∀ e e', known = some e → e.accept y.kgen c = some e' → Answers (.linkRxFrame l frame) s fun t =>
          t.out = s.out ++ [.frameRx l.toNat (some job) (frame.take n ++ pt)] ∧ (t.lane l.toNat).rxOk = x.rxOk + 1 ∧ e' ∈ t.lnk.streams) ∧
        (∀ e, known = some e → e.accept y.kgen c = none → exec (.linkRxFrame l frame) s = .next (w.setLane l.toNat { x with rxReplay := x.rxReplay + 1 })) ∧
        (known = none → s.lnk.streams.length < 16384 → s.streamsOf y.dom < (s.part y.dom.toNat).streams.toNat → Answers (.linkRxFrame l frame) s fun t =>
          t.out = s.out ++ [.frameRx l.toNat (some job) (frame.take n ++ pt)] ∧ (t.lane l.toNat).rxOk = x.rxOk + 1 ∧
          t.lnk.streams = s.lnk.streams ++ [{ job := job, rank := rank, gen := y.kgen, top := c, window := 1 }]) ∧
        (known = none → 16384 ≤ s.lnk.streams.length ∨ (s.part y.dom.toNat).streams.toNat ≤ s.streamsOf y.dom → Answers (.linkRxFrame l frame) s fun t =>
          t.out = s.out ∧ t.lane l.toNat = { x with rxStream := x.rxStream + 1 } ∧ t.lnk.streams = s.lnk.streams)))) ∧
  (∀ (s : State) (f : Flight) (sh : Shadow), s.cmd.flights = [f] → f.started = true → s.skn.shadows = [sh] → sh.tag = f.tag →
    let t := s.functionSeam
    (Desc.opcode f.desc = 0x90 ∨ Desc.opcode f.desc = 0x91 → s.deriveUp = false → t = s) ∧
    (s.deriveUp = true → Desc.opcode f.desc = 0x90 → s.jobEntry (Desc.job f.desc) = none → s.jobFree ≠ [] → t.skn.shadows = [] ∧ ∃ i ∈ s.jobFree,
      SMap.get none t.lnk.jobs i = some { job := Desc.job f.desc, dom := field (Desc.dom f.desc) 0 6, rank := Desc.argField f.desc 24 16, key := sh.jobKey } ∧
      s.EndedWith t f 0 (BitVec.ofNat 64 i)) ∧
    (∀ i x, s.deriveUp = true → Desc.opcode f.desc = 0x91 → s.jobOf f.desc = some (i, x) → x.kgen ≠ 255 → t.skn.shadows = [] ∧
      SMap.get none t.lnk.jobs i = some { x with kgen := x.kgen + 1, prev := some x.key, key := sh.jobKey, pn := 0, warned := false } ∧
      s.EndedWith t f 0 ((x.kgen + 1).setWidth 64)))

/-- FI_MODE_WRITE of a new value by Keeper takes it and counts the epoch; switching off zeroes every lane's fields. LNK_FI_WRITE by Keeper or Steward in fault mode takes the four fields and loads the lane's generator from seed and number; outside fault mode, for no lane of the block, or by another class it changes nothing. REORDER_FLUSH empties the frames that a lane holds. (R257, R258, R259, R260) -/
def Obligations.LinkFaultInjectionByRegister : Prop :=
  (∀ (s : State) (on : Bool), s.lnk.fiMode ≠ on → Answers (.fiModeWrite .K on) s fun t => t.lnk.fiMode = on ∧ t.lnk.fiEpoch = s.lnk.fiEpoch + 1 ∧ t.lnk.jobs = s.lnk.jobs ∧
    (on = false → ∀ l, l < Config.lanes → (t.lane l).injects = false) ∧ (on = true → ∀ l, l < Config.lanes → (t.lane l).lfsr = lfsrSeed s.lnk.fiSeed l)) ∧
  (∀ (s : State) (c : Cls) (on : Bool), c ≠ .K ∨ s.lnk.fiMode = on → exec (.fiModeWrite c on) s = .next s) ∧
  (∀ (s : State) (c : Cls) (l : BitVec 6) (d : W64), c = .K ∨ c = .S →
    (s.lnk.fiMode = true → l.toNat < Config.lanes → Answers (.lnkFiWrite c l d) s fun t => (t.lane l.toNat).drop = field d 0 16 ∧ (t.lane l.toNat).corrupt = field d 16 16 ∧
      (t.lane l.toNat).rate.toNat = (field d 32 16).toNat ∧ (t.lane l.toNat).depth = field d 48 _ ∧ (t.lane l.toNat).lfsr = lfsrSeed s.lnk.fiSeed l.toNat ∧ ∀ j, j ≠ l.toNat → t.lane j = s.lane j) ∧
    (s.lnk.fiMode = false ∨ Config.lanes ≤ l.toNat → exec (.lnkFiWrite c l d) s = .next s)) ∧
  (∀ (s : State) (c : Cls) (l : BitVec 6) (d : W64), c ≠ .K → c ≠ .S → exec (.lnkFiWrite c l d) s = .next s) ∧
  (∀ (s : State) (l : BitVec 6), Answers (.reorderFlush l) s fun t => (t.lane l.toNat).held = [] ∧ t.cmd = s.cmd ∧
    t.out = s.out ++ (s.lane l.toNat).held.map fun q => .frameTx l.toNat q.bytes)

/-- MARKER_POST that passes R598 is answered OK; one that names another marker makes it the site's current one and zeroes the site's counters; an announcement joins the site's list in AHEAD order while fewer than four wait, and those equal to the current marker go. SITE_ADD_POST adds its low 48 bits to that counter of the site, INT_ADD_POST to its own; REGION_CYCLES_POST replaces the region's cycles. PC_SAMPLE_POST with room adds one record behind PROD; with PC_EN 0 it is dropped. Each is answered OK. A post that fails the checks of its port is REFUSED, counted, and changes nothing else; one that no unit of the block takes (R41) is REFUSED and not counted; while the port is closed by R520 a post changes nothing. The strobe's latch keeps every counter's value and its delta word with FIRST, BOUNDARY and POSTED, and begins the next delta at zero; the snapshot shows the delta words at 0x200 to 0x6FF. (R41, R43, R592, R593, R595, R597, R598, R599, R600, R602, R609) -/
def Obligations.PostsReachFumarole : Prop :=
  (∀ s : State, ∀ i, i < 1280 → let t := s.fumLatch
    SMap.get 0 t.fum.latched i = s.fumValue i ∧
    SMap.get 0 t.fum.deltas i = pack [(0, (s.fumDelta i).1.toNat), (48, b2n s.fum.first), (49, b2n (s.fumDelta i).2), (50, b2n (fumPosted i))] ∧
    (t.fum.cnt i).delta = 0 ∧ (t.fum.cnt i).resets = false ∧ t.cmd = s.cmd) ∧
  (∀ (s : State) (b : Bool) (i : Nat), i < 1280 → (∀ e ∈ s.re.sensors, e.1 < 256) → (∀ e ∈ s.vent.summary, e.1 < 256) → (s.fum.deltas.map (·.1)).Nodup →
    SMap.get 0 (s.snapshot b) (0x200 + i) = SMap.get 0 s.fum.deltas i) ∧
  ∀ (s : State) (h : NocHdr) (size : BitVec 7),
    let n := h.site.toNat
    let ok (t : State) : Prop := t.out = s.out ++ [.nocResp h.txid .ok 0] ∧ t.cmd = s.cmd
    let bad (t : State) : Prop := t.out = s.out ++ [.nocResp h.txid .refused 0] ∧ t.fum = { s.fum with postRefused := satAdd s.fum.postRefused 1 } ∧ t.cmd = s.cmd
    let val (t : State) (i : Nat) : BitVec 48 := (t.fum.cnt i).value
    let open' (off : Nat) : Prop := hdrBarred h = false ∧ s.reaches (.C h.site false) off = true
    let closed (i : Instr) (off : Nat) : Prop :=
      (hdrBarred h = true → exec i s = .next (s.respond h .refused)) ∧
      (hdrBarred h = false → s.reaches (.C h.site false) off = false → exec i s = .next (s.respond h (if s.portRefuses h then .refused else .ok)))
    (∀ d : W128,
      let good : Prop := s.postTrusted h = true ∧ size.toNat = 16 ∧ n < 24 ∧ field d 56 8 = 0 ∧ field d 95 33 = 0 ∧ (bit d 87 = true ↔ field d 88 7 ≠ (0 : BitVec 7)) ∧
        markerDom d = h.dom.toNat ∧ (markerDom d = 65 ∨ markerDom d < 64 ∧ (s.part (markerDom d)).state = .running)
      closed (.markerPost h size d) 0x0790000 ∧
      (open' 0x0790000 → (good → Answers (.markerPost h size d) s ok) ∧ (¬ good → Answers (.markerPost h size d) s bad) ∧
        (good → bit d 87 = false → (s.fum.site n).marker.map markerKey ≠ some (markerKey d) → Answers (.markerPost h size d) s fun t =>
          (t.fum.site n).marker = some d ∧ (t.fum.site n).began = s.bnd.timebase ∧ (∀ k, k < 4 → val t (128 + 4 * n + k) = 0) ∧ ∀ m, m ≠ n → t.fum.site m = s.fum.site m) ∧
        (good → bit d 87 = true → (s.fum.site n).announces.length < 4 → Answers (.markerPost h size d) s fun t => (t.fum.site n).marker = (s.fum.site n).marker ∧
          (t.fum.site n).announces = (announceIn { marker := d, ahead := field d 88 7 } (s.fum.site n).announces).filter fun a =>
            (s.fum.site n).marker.map markerKey ≠ some (markerKey a.marker)))) ∧
    (∀ (c : BitVec 2) (d : W64),
      let good : Prop := s.postTrusted h = true ∧ size.toNat = 8 ∧ n < 24
      closed (.siteAddPost h c size d) 0x0790100 ∧
      (open' 0x0790100 → (¬ good → Answers (.siteAddPost h c size d) s bad) ∧
        (good → Answers (.siteAddPost h c size d) s fun t => ok t ∧ val t (128 + 4 * n + c.toNat) = val s (128 + 4 * n + c.toNat) + field d 0 48))) ∧
    (∀ d : W64,
      let good : Prop := s.postTrusted h = true ∧ size.toNat = 8 ∧ n < 24 ∧ field d 59 5 = 0
      closed (.pcSamplePost h size d) 0x0790200 ∧
      (open' 0x0790200 → (¬ good → Answers (.pcSamplePost h size d) s bad) ∧ (good → Answers (.pcSamplePost h size d) s ok) ∧
        (good → s.fum.pcEn = false → Answers (.pcSamplePost h size d) s fun t => t.fum = s.fum) ∧
        (good → s.fum.pcEn = true → (s.fum.site n).pcRow < 16 → s.fum.pcGap = false → (s.bnd.timebase - s.fum.pcLast).toNat < 2 ^ 32 → s.fum.pcUsed < pcSize →
          Answers (.pcSamplePost h size d) s fun t => t.fum.pcUsed = s.fum.pcUsed + 1 ∧ t.fum.pcProd = ringNext pcSize s.fum.pcProd ∧
            t.fum.pcLast = s.bnd.timebase ∧ val t 55 = val s 55 + 1 ∧
            ∀ i, i ≠ s.fum.pcProd.toNat → SMap.get 0 t.fum.pcRing i = SMap.get 0 s.fum.pcRing i))) ∧
    (∀ (r : BitVec 6) (d : W64),
      let good : Prop := h.site = 30 ∧ size.toNat = 8
      closed (.regionCyclesPost h r size d) 0x0790400 ∧
      (open' 0x0790400 → (¬ good → Answers (.regionCyclesPost h r size d) s bad) ∧
        (good → Answers (.regionCyclesPost h r size d) s fun t => ok t ∧ SMap.get 0 t.fum.regionPost r.toNat = d ∧ t.fum.cnts = s.fum.cnts))) ∧
    (∀ (i : BitVec 5) (d : W64),
      let good : Prop := h.site = 30 ∧ size.toNat = 8
      closed (.intAddPost h i size d) 0x0790600 ∧
      (open' 0x0790600 → (¬ good → Answers (.intAddPost h i size d) s bad) ∧
        (good → Answers (.intAddPost h i size d) s fun t => ok t ∧ val t (224 + i.toNat) = val s (224 + i.toNat) + field d 0 48)))

/-- TELEM_MARK stores the descriptor's marker. TELEM_READ of source 0 into SRAM writes the counters and completes with their number of bytes. TELEM_DRAIN of an empty ring completes with 0; of a filled one it issues the reads of its lines with the writes behind them and keeps its records until they are answered. DUMP_ARM and DISARM that pass their checks set and free the selector; a BUSY one stays. DUMP_POINT without a match completes with 0; with one that passes R620 it makes the selector BUSY and waits. DUMP_RUN gives the free engine to the oldest waiting dump and reads every line of its pages. A dump that fails with bytes written requests zero writes for exactly those bytes before it completes. (R615, R616, R617, R618, R619, R620, R621, R623) -/
def Obligations.TelemetryAndDumpFunctions : Prop :=
  (∀ (s : State) (tag : Tag) (f : Flight), f.started = false →
    let d := f.desc
    let p := (Desc.dom d).toNat
    let n := (Desc.length d).toNat
    let i := (Desc.argField d 0 4).toNat
    let waits (t : State) : Prop := t.cmd.ring = s.cmd.ring ∧ (t.cmd.flight tag).map (·.started) = some true
    (s.Runs tag 0x80 f → Answers (.telemMark tag) s fun t => s.Ended t f 0 ∧ (p < 64 → SMap.get 0 t.fum.descMarker p = markerOf d)) ∧
    (s.Runs tag 0x81 f → Desc.argField d 0 2 = 0 → p < 64 → bit (Desc.dst d) 63 = true → digForm f.queue (Desc.dom d) (Desc.dst d) 136 true = none →
      Answers (.telemRead tag) s fun t => s.EndedWith t f 0 136 ∧ t.skn = (s.coreWrite f.queue (Desc.dst d) (s.partCounters ((qClass f.queue).cls f.queue) p)).skn) ∧
    (s.Runs tag 0x81 f → 2 ≤ (Desc.argField d 0 2).toNat → Answers (.telemRead tag) s fun t => s.Ended t f 0x0D02) ∧
    (s.Runs tag 0x82 f → s.cmd.flights.any (fun g => Desc.opcode g.desc = 0x82 ∧ g.started) = false → bit (Desc.dst d) 63 = false →
      let pc := bit (Desc.arg d) 0
      let used := if pc then s.fum.pcUsed else s.fum.used
      let size := if pc then 16 else 64
      n % size = 0 →
      (min (n / size) used = 0 → Answers (.telemDrain tag) s fun t => s.EndedWith t f 0 0) ∧
      (0 < min (n / size) used → Answers (.telemDrain tag) s fun t => waits t ∧ t.fum = s.fum ∧
        ∀ w ∈ plainLines (field (Desc.dst d) 0 52).toNat (s.fum.waitingRecords pc (min (n / size) used)).flatten, w.behind tag ∈ t.own ∧
          ∃ r ∈ t.own, r.purpose = .save tag ∧ r.op = 0 ∧ r.addr = w.addr ∧ r.dom = 65)) ∧
    (s.Runs tag 0x70 f → p < 64 → ((s.part p).state = .keyed ∨ (s.part p).state = .running) → (SMap.get none s.fum.dumpKeys p).isSome = true →
      ((s.dumpSel p i).state = 0 ∨ (s.dumpSel p i).state = 2) → bit (Desc.dst d) 63 = false → field (Desc.dst d) 0 6 = 0 → Answers (.dumpArm tag) s fun t => s.Ended t f 0 ∧
        (t.dumpSel p i).state = 1 ∧ (t.dumpSel p i).tensor = Desc.argField d 32 32 ∧ (t.dumpSel p i).dst = Desc.dst d ∧ (t.dumpSel p i).cap = Desc.length d) ∧
    (s.Runs tag 0x72 f → 64 ≤ p ∨ (s.dumpSel p i).state = 3 → Answers (.dumpDisarm tag) s fun t => s.Ended t f 0x0D04 ∧ t.fum.sels = s.fum.sels) ∧
    (s.Runs tag 0x72 f → p < 64 → (s.dumpSel p i).state ≠ 3 → Answers (.dumpDisarm tag) s fun t => s.Ended t f 0 ∧ (t.dumpSel p i).state = 0) ∧
    (s.Runs tag 0x71 f → p < 64 → s.dumpMatch d = none → Answers (.dumpPoint tag) s fun t => s.EndedWith t f 0 0 ∧ t.fum.sels = s.fum.sels) ∧
    (∀ j, s.Runs tag 0x71 f → p < 64 → s.dumpMatch d = some j → dumpCheck s d (s.dumpSel p j) = none → Answers (.dumpPoint tag) s fun t => waits t ∧
      t.dumpSel p j = { s.dumpSel p j with state := 3 })) ∧
  (∀ (s : State) (f : Flight), s.fum.dump = none → s.skn.drbgReady 0 = true → s.cmd.flights.find? (fun f => Desc.opcode f.desc = 0x71 ∧ f.started) = some f →
    0 < (Desc.length f.desc).toNat → Answers .dumpRun s fun t => t.cmd = s.cmd ∧
      (∀ a ∈ linesOf (field (Desc.src0 f.desc) 0 52).toNat (4096 * dumpChunks (Desc.length f.desc).toNat),
        ∃ q ∈ t.own, q.purpose = .dump ∧ q.op = 0 ∧ q.addr = a ∧ q.dom = Desc.dom f.desc) ∧ ∃ r, t.fum.dump = some r ∧ r.tag = f.tag ∧ r.phase = .reading ∧ r.sel = (f.result.getD 0).toNat) ∧
  (∀ (s : State) (r : DumpRun) (f : Flight) (st : Status), s.cmd.flight r.tag = some f → s.dumpWritten r ≠ [] → let t := s.dumpFail r st
    t.cmd = s.cmd ∧ t.fum.dump = some { r with phase := .zeroing, status := st } ∧ ∀ a ∈ s.dumpWritten r, ∃ q ∈ t.own, q.purpose = .dump ∧ q.addr = a.1 ∧ q.data = 0 ∧ q.mask = a.2)

/-- While the row engine issues, NOP and each operation of S0, S1 and S2 complete: GADD to GSUBS, GADDI, GANDI, GSHLI, GSHRI, GSRAI, GLDI, GLDIH, GLIDX put their value in flight for rd with latency 1, GMUL, GMULH, GQMUL, GQMAC, GMULI theirs with latency 3, beside what was in flight, and the cycle ends: what falls due takes effect. Where nothing else falls due, rd reads the value at once (latency 1), and every other register, predicate, accumulator, memory byte, staging word and event is as before. With a false predicate none of them writes anything. A stitch of NOPs alone lets what falls due take effect. Outside a row a stitch changes nothing; a stitch address beyond 1,023 is a row fault. (R523, R524, R525, R527, R532, R535, R536, R537) -/
def Obligations.GulunScalarOperations : Prop :=
  (∀ (s : State) (pr : Pred) (s1 : Bool) (rd ra rb : BitVec 6) (imm : BitVec 8) (sh : BitVec 6) (i : BitVec 14) (lv : BitVec 2),
    let a := s.re.reg ra
    let b := s.re.reg rb
    let d := s.re.reg rd
    let n := (field b 0 6).toNat
    let k := b2n s1
    let all : List Instr := [.gAdd s1 pr rd ra rb, .gSub s1 pr rd ra rb, .gAnd s1 pr rd ra rb, .gOr s1 pr rd ra rb, .gXor s1 pr rd ra rb, .gShl s1 pr rd ra rb,
      .gShr s1 pr rd ra rb, .gSra s1 pr rd ra rb, .gMin s1 pr rd ra rb, .gMax s1 pr rd ra rb, .gMinu s1 pr rd ra rb, .gMaxu s1 pr rd ra rb, .gAdds s1 pr rd ra rb,
      .gSubs s1 pr rd ra rb, .gAddi s1 pr rd ra imm, .gAndi s1 pr rd ra imm, .gShli s1 pr rd ra sh, .gShri s1 pr rd ra sh, .gSrai s1 pr rd ra sh, .gLdi s1 pr rd i,
      .gLdih s1 pr rd i, .gLidx s1 pr rd lv, .gMul pr rd ra rb, .gMulh pr rd ra rb, .gQmul pr rd ra rb, .gQmac pr rd ra rb, .gMuli pr rd ra imm]
    (s.Issues → s.re.holds pr = true →
      Answers (.gAdd s1 pr rd ra rb) s (s.WroteReg k rd (a + b)) ∧ Answers (.gSub s1 pr rd ra rb) s (s.WroteReg k rd (a - b)) ∧
      Answers (.gAnd s1 pr rd ra rb) s (s.WroteReg k rd (a &&& b)) ∧ Answers (.gOr s1 pr rd ra rb) s (s.WroteReg k rd (a ||| b)) ∧
      Answers (.gXor s1 pr rd ra rb) s (s.WroteReg k rd (a ^^^ b)) ∧ Answers (.gShl s1 pr rd ra rb) s (s.WroteReg k rd (a <<< n)) ∧
      Answers (.gShr s1 pr rd ra rb) s (s.WroteReg k rd (a >>> n)) ∧ Answers (.gSra s1 pr rd ra rb) s (s.WroteReg k rd (a.sshiftRight n)) ∧
      Answers (.gMin s1 pr rd ra rb) s (s.WroteReg k rd (if a.toInt ≤ b.toInt then a else b)) ∧
      Answers (.gMax s1 pr rd ra rb) s (s.WroteReg k rd (if a.toInt ≤ b.toInt then b else a)) ∧
      Answers (.gMinu s1 pr rd ra rb) s (s.WroteReg k rd (if a.toNat ≤ b.toNat then a else b)) ∧
      Answers (.gMaxu s1 pr rd ra rb) s (s.WroteReg k rd (if a.toNat ≤ b.toNat then b else a)) ∧
      Answers (.gAdds s1 pr rd ra rb) s (s.WroteReg k rd (sat64 (a.toInt + b.toInt))) ∧ Answers (.gSubs s1 pr rd ra rb) s (s.WroteReg k rd (sat64 (a.toInt - b.toInt))) ∧
      Answers (.gAddi s1 pr rd ra imm) s (s.WroteReg k rd (a + imm.signExtend 64)) ∧ Answers (.gAndi s1 pr rd ra imm) s (s.WroteReg k rd (a &&& imm.setWidth 64)) ∧
      Answers (.gShli s1 pr rd ra sh) s (s.WroteReg k rd (a <<< sh.toNat)) ∧ Answers (.gShri s1 pr rd ra sh) s (s.WroteReg k rd (a >>> sh.toNat)) ∧
      Answers (.gSrai s1 pr rd ra sh) s (s.WroteReg k rd (a.sshiftRight sh.toNat)) ∧
      Answers (.gLdi s1 pr rd i) s (s.WroteReg k rd (i.signExtend 64)) ∧ Answers (.gLdih s1 pr rd i) s (s.WroteReg k rd ((d <<< 14) ||| i.setWidth 64)) ∧
      Answers (.gLidx s1 pr rd lv) s (s.WroteReg k rd (match s.re.loops[lv.toNat]? with | some l => BitVec.ofNat 64 l.index | none => 0)) ∧
      Answers (.gMul pr rd ra rb) s (s.Launched 3 2 (.scalar rd (a * b))) ∧
      Answers (.gMulh pr rd ra rb) s (s.Launched 3 2 (.scalar rd (BitVec.ofInt 64 (a.toInt * b.toInt / 2 ^ 64)))) ∧
      Answers (.gQmul pr rd ra rb) s (s.Launched 3 2 (.scalar rd (sat64 ((a.toInt * b.toInt + 2 ^ 15) / 2 ^ 16)))) ∧
      Answers (.gQmac pr rd ra rb) s (s.Launched 3 2 (.scalar rd (sat64 (d.toInt + (sat64 ((a.toInt * b.toInt + 2 ^ 15) / 2 ^ 16)).toInt)))) ∧
      Answers (.gMuli pr rd ra imm) s (s.Launched 3 2 (.scalar rd (a * imm.signExtend 64)))) ∧
    (s.Issues → s.re.holds pr = false → ∀ c ∈ all, Answers c s s.Idled) ∧
    (s.RowOver → ∀ c ∈ all, exec c s = .next s)) ∧
  (∀ s : State, (s.Issues → Answers .nop s s.Idled) ∧ (s.RowOver → exec .nop s = .next s) ∧
    (s.re.running = true → s.re.ended = false → s.re.fault = false → 1023 < s.re.pc → Answers .nop s s.RowFaulted)) ∧
  (∀ (s : State) (k : Nat) (r : BitVec 6) (v : W64), s.Issues → k < 8 →
    s.re.flights = [{ left := 1, slot := k, write := .scalar r v }] → Answers .nop s fun t => s.Stitched t ∧ t.re.reg r = v ∧ t.re.flights = [] ∧
      ∀ q, q ≠ r → t.re.reg q = s.re.reg q)

/-- While the row engine issues, each operation of S3 and S4 completes. With a true predicate, GTMAC and GTMACZ put the tile product in flight for their accumulator with latency 4, GTRQ and GTST32 their bytes for row memory, GTLD32 the accumulator read. GLD64, GLD32S, GLD32U, GLD8S put their extended value in flight for rd and GST64, GST32, GST16, GST8 their bytes for the aligned 18-bit address with latency 3; the eight post-increment forms use ra and put ra + imm8 x W in flight for ra with latency 1. The cycle then ends: what falls due takes effect; where nothing else does, nothing else changes. A corrected read is counted. With a false predicate nothing is written, whatever the memory code. An uncorrectable read delivers 0 to its destination and stops issue, and nothing in flight takes effect. Outside a row none of them changes anything. (R523, R525, R527, R532, R535, R538, R539, R540, R541, R542) -/
def Obligations.GulunTilesAndMemory : Prop :=
  ∀ (s : State) (pr : Pred) (acc : BitVec 2) (rd ra rb : BitVec 6) (sh : BitVec 5) (relu : Bool) (imm : BitVec 8) (err : MemErr),
    let a := s.re.reg ra
    let tile (v : W64) : List Byte := Mem.read 0 s.re.mem (rowAddr v 64) 64
    let off (w : Nat) : Nat := rowAddr (a + imm.signExtend 64 * BitVec.ofNat 64 w) w
    let at_ (w : Nat) : Nat := rowAddr a w
    let val (w p : Nat) : List Byte := Mem.read 0 s.re.mem p w
    let st (w : Nat) : List Byte := leBytes w (s.re.reg rd)
    let next (w : Nat) : W64 := a + imm.signExtend 64 * BitVec.ofNat 64 w
    let post (w : Nat) (x : RowWrite) (t : State) : Prop := s.Wrote 4 [(3, x), (1, .scalar ra (next w))] t ∧
      (s.Quiet → t.re.reg ra = next w ∧ (∀ r, r ≠ ra → t.re.reg r = s.re.reg r) ∧ t.re.mem = s.re.mem ∧ t.re.accs = s.re.accs ∧ t.re.preds = s.re.preds ∧
        t.re.stage = s.re.stage ∧ t.re.flights = s.re.aged ++ [{ left := 2, slot := 4, write := x }])
    let reads : List (MemErr → Instr) := [fun e => .gTmac pr acc ra rb e, fun e => .gTmacz pr acc ra rb e, fun e => .gTld32 pr acc ra e, fun e => .gLd64 pr rd ra imm e,
      fun e => .gLd32s pr rd ra imm e, fun e => .gLd32u pr rd ra imm e, fun e => .gLd8s pr rd ra imm e, fun e => .gLd64Post pr rd ra imm e,
      fun e => .gLd32sPost pr rd ra imm e, fun e => .gLd32uPost pr rd ra imm e, fun e => .gLd8sPost pr rd ra imm e]
    let others : List Instr := [.gTrq pr acc ra sh relu, .gTst32 pr acc ra, .gSt64 pr rd ra imm, .gSt32 pr rd ra imm, .gSt16 pr rd ra imm, .gSt8 pr rd ra imm,
      .gSt64Post pr rd ra imm, .gSt32Post pr rd ra imm, .gSt16Post pr rd ra imm, .gSt8Post pr rd ra imm]
    (s.Issues → s.re.holds pr = true →
      (err ≠ .uncorrectable →
        Answers (.gTmac pr acc ra rb err) s (s.Launched 4 3 (.accAdd acc (tileProduct (tile a) (tile (s.re.reg rb))))) ∧
        Answers (.gTmacz pr acc ra rb err) s (s.Launched 4 3 (.acc acc (tileProduct (tile a) (tile (s.re.reg rb))))) ∧
        Answers (.gTld32 pr acc ra err) s (s.Launched 4 3 (.acc acc (ofLeBytes 2048 (Mem.read 0 s.re.mem (rowAddr a 256) 256)))) ∧
        Answers (.gLd64 pr rd ra imm err) s (s.Launched 3 4 (.scalar rd (ofLeBytes 64 (val 8 (off 8))))) ∧
        Answers (.gLd32s pr rd ra imm err) s (s.Launched 3 4 (.scalar rd ((ofLeBytes 32 (val 4 (off 4))).signExtend 64))) ∧
        Answers (.gLd32u pr rd ra imm err) s (s.Launched 3 4 (.scalar rd ((ofLeBytes 32 (val 4 (off 4))).setWidth 64))) ∧
        Answers (.gLd8s pr rd ra imm err) s (s.Launched 3 4 (.scalar rd ((ofLeBytes 8 (val 1 (off 1))).signExtend 64))) ∧
        Answers (.gLd64Post pr rd ra imm err) s (post 8 (.scalar rd (ofLeBytes 64 (val 8 (at_ 8))))) ∧
        Answers (.gLd32sPost pr rd ra imm err) s (post 4 (.scalar rd ((ofLeBytes 32 (val 4 (at_ 4))).signExtend 64))) ∧
        Answers (.gLd32uPost pr rd ra imm err) s (post 4 (.scalar rd ((ofLeBytes 32 (val 4 (at_ 4))).setWidth 64))) ∧
        Answers (.gLd8sPost pr rd ra imm err) s (post 1 (.scalar rd ((ofLeBytes 8 (val 1 (at_ 1))).signExtend 64)))) ∧
      Answers (.gTrq pr acc ra sh relu) s (s.Launched 4 3 (.mem (rowAddr a 64) ((List.range 64).map fun i => requantise (field (s.re.acc acc) (32 * i) 32) sh.toNat relu))) ∧
      Answers (.gTst32 pr acc ra) s (s.Launched 4 3 (.mem (rowAddr a 256) (leBytes 256 (s.re.acc acc)))) ∧
      Answers (.gSt64 pr rd ra imm) s (s.Launched 3 4 (.mem (off 8) (st 8))) ∧ Answers (.gSt32 pr rd ra imm) s (s.Launched 3 4 (.mem (off 4) (st 4))) ∧
      Answers (.gSt16 pr rd ra imm) s (s.Launched 3 4 (.mem (off 2) (st 2))) ∧ Answers (.gSt8 pr rd ra imm) s (s.Launched 3 4 (.mem (off 1) (st 1))) ∧
      Answers (.gSt64Post pr rd ra imm) s (post 8 (.mem (at_ 8) (st 8))) ∧ Answers (.gSt32Post pr rd ra imm) s (post 4 (.mem (at_ 4) (st 4))) ∧
      Answers (.gSt16Post pr rd ra imm) s (post 2 (.mem (at_ 2) (st 2))) ∧ Answers (.gSt8Post pr rd ra imm) s (post 1 (.mem (at_ 1) (st 1))) ∧
      (∀ c ∈ reads, Answers (c .corrected) s (fun t => t.re.cntEcc = s.re.cntEcc + 1) ∧ Answers (c .clean) s (fun t => t.re.cntEcc = s.re.cntEcc) ∧
        Answers (c .uncorrectable) s s.RowFaulted) ∧
      (∀ c ∈ ([fun e => .gLd64 pr rd ra imm e, fun e => .gLd32s pr rd ra imm e, fun e => .gLd32u pr rd ra imm e, fun e => .gLd8s pr rd ra imm e] : List (MemErr → Instr)),
        Answers (c .uncorrectable) s fun t => t.re.reg rd = 0) ∧
      (∀ c ∈ ([(8, fun e => .gLd64Post pr rd ra imm e), (4, fun e => .gLd32sPost pr rd ra imm e), (4, fun e => .gLd32uPost pr rd ra imm e),
          (1, fun e => .gLd8sPost pr rd ra imm e)] : List (Nat × (MemErr → Instr))),
        Answers (c.2 .uncorrectable) s fun t => t.re.reg ra = next c.1 ∧ (rd ≠ ra → t.re.reg rd = 0)) ∧
      Answers (.gTmacz pr acc ra rb .uncorrectable) s (fun t => t.re.acc acc = 0) ∧ Answers (.gTld32 pr acc ra .uncorrectable) s (fun t => t.re.acc acc = 0)) ∧
    (s.Issues → s.re.holds pr = false → (∀ c ∈ reads, Answers (c err) s s.Idled) ∧ ∀ c ∈ others, Answers c s s.Idled) ∧
    (s.RowOver → (∀ c ∈ reads, exec (c err) s = .next s) ∧ ∀ c ∈ others, exec c s = .next s)

/-- While the row engine issues, each operation of S5 and S6 completes. With a true predicate, GPRB and GPRBX put the named snapshot word, or 0 beyond 4,095, in flight for rd with latency 2; GPST and GPSTX stage their value for an existing word, converted as R556 says, and write nothing for another. GDBSET, GDBSETR and GDBCLR gather doorbell masks, GKSIG, GSLOG and GVACK append their event while there is room, GRAILOK sets its flag; an event beyond the capacity is dropped and counted. The cycle then ends: what falls due takes effect; where nothing else does, nothing else changes. With a false predicate none of them does anything. Outside a row none of them changes anything. (R523, R525, R527, R532, R543, R544, R545, R553, R556) -/
def Obligations.GulunProbesStagingAndEvents : Prop :=
  ∀ (s : State) (pr : Pred) (rd ra rb : BitVec 6) (index : BitVec 14) (imm : BitVec 8) (target : Bool) (bell : BitVec 5),
    let a := s.re.reg ra
    let b := s.re.reg rb
    let e := s.re.events
    let word (i : Nat) : W64 := if i < 4096 then SMap.get 0 s.re.snap i else 0
    let ix := (a + imm.signExtend 64).toNat
    let put (i : Nat) (v : W64) (t : State) : Prop := match s.re.staging i v with
      | some w => s.Launched 2 5 w.1 t ∧ t.re.cntCalconv = (if w.2 then s.re.cntCalconv + 1 else s.re.cntCalconv)
      | none => s.Idled t
    let dropped (t : State) : Prop := s.Staged e t ∧ t.re.cntDrop = s.re.cntDrop + 1 ∧ t.re.dropped = true
    let all : List Instr := [.gPrb pr rd index, .gPrbx pr rd ra imm, .gPst pr rd index, .gPstx pr rd ra imm, .gDbset pr target bell, .gDbsetr pr target ra,
      .gDbclr pr target ra, .gKsig pr ra rb, .gSlog pr ra rb, .gVack pr ra, .gRailok pr]
    (s.Issues → s.re.holds pr = true →
      Answers (.gPrb pr rd index) s (s.Launched 2 5 (.scalar rd (word index.toNat))) ∧ Answers (.gPrbx pr rd ra imm) s (s.Launched 2 5 (.scalar rd (word ix))) ∧
      Answers (.gPst pr rd index) s (put index.toNat (s.re.reg rd)) ∧ Answers (.gPstx pr rd ra imm) s (put ix (s.re.reg rd)) ∧
      Answers (.gDbset pr target bell) s (s.Staged (if target then { e with up79 := e.up79 ||| (BitVec.ofNat 32 (2 ^ bell.toNat) &&& 0x7FFFFFFF) } else
        { e with up78 := e.up78 ||| (BitVec.ofNat 32 (2 ^ bell.toNat) &&& 0x7FFFFFFF) })) ∧
      Answers (.gDbsetr pr target ra) s (s.Staged (if target then { e with up79 := e.up79 ||| (field a 0 32 &&& 0x7FFFFFFF) } else
        { e with up78 := e.up78 ||| (field a 0 32 &&& 0x7FFFFFFF) })) ∧
      Answers (.gDbclr pr target ra) s (s.Staged (if target then { e with down79 := e.down79 ||| field a 0 32 } else { e with down78 := e.down78 ||| field a 0 32 })) ∧
      Answers (.gKsig pr ra rb) s (if e.ksigs.length < 16 then s.Staged { e with ksigs := e.ksigs ++ [(field a 0 17, field b 0 48)] } else dropped) ∧
      Answers (.gSlog pr ra rb) s (if e.slogs.length < 8 then s.Staged { e with slogs := e.slogs ++ [(field a 0 23, b)] } else dropped) ∧
      Answers (.gVack pr ra) s (if e.vacks.length < 16 then s.Staged { e with vacks := e.vacks ++ [field a 0 16] } else dropped) ∧
      Answers (.gRailok pr) s (if e.railOk then dropped else s.Staged { e with railOk := true })) ∧
    (s.Issues → s.re.holds pr = false → ∀ c ∈ all, Answers c s s.Idled) ∧
    (s.RowOver → ∀ c ∈ all, exec c s = .next s)

/-- While the row engine issues, each operation of S7 completes. With a true predicate, GPSET, GPSETI and GPLOG write pd at once, but never p0; with a false one nothing. GLOOP opens a level over the stitches that follow, where R533 allows it. GROW_END outside loops, at the declared issue count, ends issue for the row and completes everything in flight. A GLOOP where R533 forbids it, a GROW_END inside a loop or at another count, and a stitch with an illegal slot word stop issue with a row fault; a stitch word without one issues its eight operations. Outside a row none of them changes anything. (R523, R525, R526, R529, R532, R533, R534, R546, R547, R565) -/
def Obligations.GulunPredicatesLoopsAndEnd : Prop :=
  (∀ (s : State) (pr : Pred) (pd c : BitVec 3) (ra rb : BitVec 6) (imm : BitVec 8) (lop : BitVec 2) (pa pb : BitVec 3),
    let all : List Instr := [.gPset pr pd c ra rb, .gPseti pr pd c ra imm, .gPlog pr pd lop pa pb]
    (s.Issues → s.re.holds pr = true →
      Answers (.gPset pr pd c ra rb) s (s.WrotePred pd (condition c (s.re.reg ra) (s.re.reg rb))) ∧
      Answers (.gPseti pr pd c ra imm) s (s.WrotePred pd (condition c (s.re.reg ra) (imm.signExtend 64))) ∧
      Answers (.gPlog pr pd lop pa pb) s (s.WrotePred pd (plogic lop (s.re.pred pa) (s.re.pred pb)))) ∧
    (s.Issues → s.re.holds pr = false → ∀ i ∈ all, Answers i s s.Idled) ∧ (s.RowOver → ∀ i ∈ all, exec i s = .next s)) ∧
  (∀ (s : State) (trip body : BitVec 10),
    let last := s.re.pc + body.toNat + 1
    let legal := s.re.loops.length < 4 ∧ last ≤ 1023 ∧ (∀ l ∈ s.re.loops.head?, last ≤ l.last)
    (s.Issues → legal → Answers (.gLoop trip body) s fun t => t.RowIs (s.re.after 7 []) ∧ t.re.events = s.re.events ∧ (s.Quiet → s.RowKept t) ∧
      t.re.pc = s.re.pc + 1 ∧ t.re.issued = s.re.issued + 1 ∧ t.re.fault = false ∧
      t.re.loops = { trip := trip.toNat + 1, index := 0, first := s.re.pc + 1, last := last } :: s.re.loops) ∧
    (s.Issues → ¬ legal → Answers (.gLoop trip body) s s.RowFaulted) ∧ (s.RowOver → exec (.gLoop trip body) s = .next s)) ∧
  (∀ s : State,
    (s.Issues → s.re.loops = [] → s.re.issued + 1 = (s.re.hdr s.re.bank).maxIssue.toNat → Answers .gRowEnd s fun t => t.RowIs (s.re.after 7 []).drain ∧
      t.re.events = s.re.events ∧ t.re.ended = true ∧ t.re.fault = false ∧ t.re.lastEnd = BitVec.ofNat 12 (16 + s.re.issued) ∧
      (s.re.flights = [] → s.RowKept t ∧ t.re.flights = [])) ∧
    (s.Issues → s.re.loops ≠ [] ∨ s.re.issued + 1 ≠ (s.re.hdr s.re.bank).maxIssue.toNat → Answers .gRowEnd s s.RowFaulted) ∧
    (s.RowOver → exec .gRowEnd s = .next s)) ∧
  (∀ (s : State) (word : BitVec 256) (bad : BitVec 8),
    (∀ k, s.re.running = true → s.re.ended = false → s.re.fault = false → stitchOps word bad = .error k → Answers (.illegalStitch word bad) s s.RowFaulted) ∧
    (∀ l, stitchOps word bad = .ok l → exec (.illegalStitch word bad) s = .next (s.stitch (.ok l))) ∧
    (s.RowOver → exec (.illegalStitch word bad) s = .next s))

/-- For every slot operation whose shift amount fits its six bits, the slot word built from the encoding tables decodes, in a slot that has the operation, to that operation with all its operands at every value, and its predicate bits read back as they were. A word whose opcode no slot has decodes nowhere. (R531, R533, R536, R537, R538, R540, R543, R544, R546) -/
def Obligations.GulunSlotWordsDecodeToTheirOperation : Prop :=
  (∀ (pr : Pred) (o : Op) (k : Nat), (match o with
      | .nop => k < 8
      | .alu .. | .ldi .. | .ldih .. | .lidx .. => k < 2
      | .aluI f _ _ imm => k < 2 ∧ (f.shifts = true → imm.toNat < 64)
      | .mul .. | .muli .. => k = 2
      | .tmac .. | .trq .. | .tst32 .. | .tld32 .. => k = 3
      | .mem .. => k = 4
      | .prb .. | .prbx .. | .pst .. | .pstx .. => k = 5
      | .dbset .. | .dbsetr .. | .dbclr .. | .ksig .. | .slog .. | .vack .. | .railok => k = 6
      | .pset .. | .pseti .. | .plog .. => k = 7
      | .loop .. | .rowEnd => k = 7 ∧ pr = {}) → opOf k (slotWord pr o) = some o ∧ predOf (slotWord pr o) = pr) ∧
  (∀ (k : Nat) (w : BitVec 32), (field w 24 8).toNat ≠ 0 → 0xC4 < (field w 24 8).toNat → opOf k w = none)

/-- RUN by Keeper with a valid bank 0 header takes the run up from bank 0; with an invalid one it sets ROW_HEADER. BANK_REQ of a running engine marks the switch when the other bank's header is valid with the same layout, else sets 0x0C03. CLEAR of a stopped engine begins, of a running one sets 0x0C01; RE_CLEAR_DONE, its end, empties registers, memories and headers. While it clears, RUN and CLEAR set 0x0C04. RE_PARAM_COMMIT marks the parameter page. Other classes change nothing, and neither a RUN nor the end of a clear changes the governor or a committed word. The seam behind a row that a fault stopped or that has not ended keeps the committed words, stages them anew, counts and logs the overrun; behind a clean row it commits the publication words and clears CONSEC. A pending bank switch and a pending parameter page take effect. (R26, R528, R530, R552, R554, R558, R559, R560, R561, R563) -/
def Obligations.RowEngineControl : Prop :=
  ∀ s : State,
    let kept (t : State) : Prop := t.gov = s.gov ∧ t.re.committed = s.re.committed ∧ t.re.stage = s.re.stage ∧ t.re.param = s.re.param ∧ t.cmd = s.cmd
    (s.re.clearing = false → s.re.run = false → s.re.hdr0.valid = true → Answers (.reRun .K) s fun t => kept t ∧ t.re = { s.re with run := true, bank := false, first := true }) ∧
    (s.re.clearing = false → s.re.run = false → s.re.hdr0.valid = false → exec (.reRun .K) s = .next { s with re := { s.re with status := 0x0C02 } }) ∧
    (s.re.clearing = true → exec (.reRun .K) s = .next { s with re := { s.re with status := 0x0C04 } } ∧
      (s.re.run = false → exec (.reClear .K) s = .next { s with re := { s.re with status := 0x0C04 } })) ∧
    (s.re.clearing = false → s.re.run = true → exec (.reRun .K) s = .next s) ∧ (s.re.clearing = false → exec .reClearDone s = .next s) ∧
    (∀ c, (c ≠ .K ∧ c ≠ .S) ∨ s.re.run = false ∨ s.re.switching = true → exec (.reBankReq c) s = .next s) ∧
    (∀ c, c ≠ .K → exec (.reRun c) s = .next s ∧ exec (.reClear c) s = .next s) ∧
    (∀ c, c = .K ∨ c = .S → s.re.run = true → s.re.switching = false →
      ((s.re.hdr (!s.re.bank)).valid = true → (s.re.hdr (!s.re.bank)).layout = (s.re.hdr s.re.bank).layout →
        exec (.reBankReq c) s = .next { s with re := { s.re with switching := true } }) ∧
      ((s.re.hdr (!s.re.bank)).valid = false ∨ (s.re.hdr (!s.re.bank)).layout ≠ (s.re.hdr s.re.bank).layout →
        exec (.reBankReq c) s = .next { s with re := { s.re with status := 0x0C03 } })) ∧
    (s.re.run = false → s.re.clearing = false → exec (.reClear .K) s = .next { s with re := { s.re with clearing := true } }) ∧
    (s.re.run = true → exec (.reClear .K) s = .next { s with re := { s.re with status := 0x0C01 } }) ∧
    (s.re.clearing = true → Answers .reClearDone s fun t => kept t ∧ t.re.regs = [] ∧ t.re.preds = 1 ∧ t.re.accs = [] ∧ t.re.mem = [] ∧ t.re.prog = [] ∧
      t.re.hdr0 = {} ∧ t.re.hdr1 = {} ∧ t.re.flights = [] ∧ t.re.clearing = false ∧ t.re.run = s.re.run) ∧
    (∀ c, c = .K ∨ c = .S → exec (.reParamCommit c) s = .next { s with re := { s.re with paramReq := true } }) ∧
    (∀ c, c ≠ .K → c ≠ .S → exec (.reParamCommit c) s = .next s) ∧
    (s.re.running = true →
      let t := (s.setRe s.re.judge).engineSeam
      t.re.cntRows = s.re.cntRows + 1 ∧ t.re.stage = t.re.committed ∧ t.re.events = {} ∧ t.re.flights = [] ∧
      (s.re.fault = true ∨ s.re.ended = false → t.re.committed = s.re.committed ∧ t.re.cntOverrun = s.re.cntOverrun + 1 ∧
        t.re.cntFault = (if s.re.fault then s.re.cntFault + 1 else s.re.cntFault) ∧ t.re.consec = (if s.re.consec = 3 then 3 else s.re.consec + 1) ∧
        t.gov.cleanRows = 0 ∧ t.cmd = s.cmd ∧ s.Logs t 0x0C000080) ∧
      (s.re.fault = false → s.re.ended = true → t.re.cntOverrun = s.re.cntOverrun ∧ t.re.cntFault = s.re.cntFault ∧ t.re.consec = 0 ∧
        t.gov.cleanRows.toNat = min 1024 (s.gov.cleanRows.toNat + 1) ∧ ∀ i, 0x100 ≤ i → SMap.get 0 t.re.committed i = SMap.get 0 s.re.stage i)) ∧
    (s.re.switching = true → s.bankSwitch.re = { s.re with switching := false, bank := !s.re.bank } ∧ s.Logs s.bankSwitch 0x0C000083) ∧
    (s.re.switching = false → s.bankSwitch = s) ∧
    (s.re.paramReq = true → s.paramCopy.re.paramReq = false ∧ s.paramCopy.re.seq = s.re.seq + 1 ∧
      (field (SMap.get 0 s.paramCopy.re.paramNow 0x140) 0 16).toNat = min (field (SMap.get 0 s.re.param 0x140) 0 16).toNat s.otp.powerCap.toNat ∧
      ∀ i, i ≠ 0x140 → SMap.get 0 s.paramCopy.re.paramNow i = SMap.get 0 s.re.param i) ∧
    (s.re.paramReq = false → s.paramCopy = s)

/-- A SENSOR_READING in slots 1 to 24 that answers a command of the slot before, with right parity and ack and status 0, replaces that sensor's reading and sets FRESH; another keeps the reading, sets STALE and is counted; without a command before it the answer changes nothing. AVS_READBACK stores a target for a rail with VMAX on an enabled port; a faulting status sets FAULT and is counted; for another rail it changes nothing. Keeper alone writes FORCE_HOLD and the limits; VMAX below VMIN sets 0x0C20. The seam of the third overrun in a row enters hold mode, as does a forced one, keeping each region's committed step as its ceiling. HOLD_EXIT ends hold mode when it is not forced and 1,024 rows were clean. (R27, R60, R61, R550, R567, R568, R570, R571) -/
def Obligations.SensorsRailsAndHold : Prop :=
  (∀ (s : State) (slot : BitVec 5) (w : BitVec 20), 1 ≤ slot.toNat → slot.toNat ≤ 24 →
    let cmd := SMap.get 0 s.re.sensLive (0x40 + (slot.toNat - 1))
    let a := (field cmd 11 8).toNat
    let old := SMap.get ({} : Sensor) s.re.sensors a
    let ok := parityOk w = true ∧ bit w 19 = true ∧ field w 17 2 = 0
    bit cmd 20 = true →
      (ok → Answers (.sensorReading slot w) s fun t => SMap.get {} t.re.sensors a =
        { old with reading := field w 1 16, status := 0, stale := false, fresh := true, cal := field cmd 9 2 = 2, age := 0 } ∧ t.vent = s.vent) ∧
      (¬ ok → Answers (.sensorReading slot w) s fun t => SMap.get {} t.re.sensors a =
        { old with status := field w 17 2, stale := true, unused := satAdd old.unused 1 }) ∧
      Answers (.sensorReading slot w) s fun t => ∀ b, b ≠ a → SMap.get {} t.re.sensors b = SMap.get {} s.re.sensors b) ∧
  (∀ (s : State) (slot : BitVec 5) (w : BitVec 20), slot = 0 ∨ 24 < slot.toNat ∨ bit (SMap.get 0 s.re.sensLive (0x40 + (slot.toNat - 1))) 20 = false →
    exec (.sensorReading slot w) s = .next s) ∧
  (∀ (s : State) (q : BitVec 6) (a f : Bool) (v : BitVec 16), (s.gov.rail q.toNat).vmax = 0 ∨ bit s.bnd.avsEn (q.toNat / 16) = false → exec (.avsReadback q a f v) s = .next s) ∧
  (∀ (s : State) (q : BitVec 6) (v : BitVec 16), (s.gov.rail q.toNat).vmax ≠ 0 → bit s.bnd.avsEn (q.toNat / 16) = true →
    (∀ f, Answers (.avsReadback q false f v) s fun t => t.gov.rail q.toNat = { s.gov.rail q.toNat with readback := field v 0 12 } ∧ t.gov.cntRailfault = s.gov.cntRailfault) ∧
    (Answers (.avsReadback q true true v) s fun t => (t.gov.rail q.toNat).fault = true ∧ t.gov.cntRailfault = s.gov.cntRailfault + 1) ∧
    (Answers (.avsReadback q true false v) s fun t => t.gov.rail q.toNat = { s.gov.rail q.toNat with fault := false } ∧ t.gov.cntRailfault = s.gov.cntRailfault)) ∧
  (∀ (s : State) (b : Bool), exec (.govForceHoldWrite .K b) s = .next { s with gov := { s.gov with forceHold := b } }) ∧
  (∀ (s : State) (q : BitVec 6) (lo hi : BitVec 12),
    (lo.toNat ≤ hi.toNat → Answers (.govRailWrite .K q lo hi) s fun t => t.gov.rail q.toNat = { s.gov.rail q.toNat with vmin := lo, vmax := hi } ∧
      ∀ p, p ≠ q.toNat → t.gov.rail p = s.gov.rail p) ∧
    (hi.toNat < lo.toNat → exec (.govRailWrite .K q lo hi) s = .next { s with gov := { s.gov with status := 0x0C20 } }) ∧
    ∀ c b, c ≠ .K → exec (.govRailWrite c q lo hi) s = .next s ∧ exec (.govForceHoldWrite c b) s = .next s) ∧
  (∀ s : State,
    (s.gov.hold = true → s.gov.forceHold = false → s.gov.cleanRows = 1024 → Answers .holdExit s fun t => t.gov.hold = false ∧ t.gov.holdCause = 0 ∧ t.re = s.re) ∧
    ((s.gov.hold = false ∨ s.gov.forceHold = true ∨ s.gov.cleanRows ≠ 1024) → exec .holdExit s = .next s)) ∧
  (∀ s : State, let t := (s.setRe s.re.judge).engineSeam
    let third : Prop := s.re.running = true ∧ (s.re.fault = true ∨ s.re.ended = false) ∧ (s.re.consec = 2 ∨ s.re.consec = 3)
    let enters (cause : BitVec 2) : Prop := t.gov.hold = true ∧ t.gov.holdCause = cause ∧ t.gov.cntHold = s.gov.cntHold + 1 ∧
      ∀ n, n < Config.regions → (t.gov.reg n).holdCeil = (s.gov.reg n).step
    (s.gov.hold = false → third → s.Logs ((s.setRe s.re.judge).holdEnter 1) 0x0C0000A0 ∧ enters 1) ∧
    (s.gov.hold = false → s.re.running = false → s.gov.forceHold = true → enters 2) ∧
    (s.gov.hold = false → s.re.running = false → s.gov.forceHold = false → t.gov.hold = false) ∧
    (s.gov.hold = true → t.gov.hold = true ∧ t.gov.cntHold = s.gov.cntHold))

/-- A claim that passes R226 is CLAIMED and waits for its pass; a completed pass leaves every page of the claim sealed, sparse and owned, the lanes owned, and completes OK; one that meets a sealed page completes 0x0704 and leaves the partition FREE. The other functions, from a state they are issued from and with their own check passed, wait for their seam (PART_RESET and PART_BINDOFF where no open or load of the partition runs); with that check failed they complete with its status, from another state 0x0701, while a function of the same partition is in progress 0x0702. At the seam START gives RUNNING, MIGRATE the next epoch, FREEZE FROZEN, THAW the resumed state, KEY its live entries, RESET CLAIMED, BINDOFF BINDING_OFF, RELEASE FREE. (R219, R220, R221, R225, R226, R227, R228, R231, R234, R235, R237, R242) -/
def Obligations.PartitionFunctionsAndTheirSeam : Prop :=
  (∀ (s : State) (tag : Tag) (f : Flight), s.Runs tag 0x50 f → f.started = false → s.partBusy f = false →
    let d := (Desc.dom f.desc).toNat
    let r := s.retire (some d)
    (claimCheck r d = none → Answers (.partClaim tag) s fun t => (t.part d).state = .claimed ∧ (t.part d).claimChecked = true ∧ t.cmd.flight tag = some { f with started := true }) ∧
    (∀ st, claimCheck r d = some st → Answers (.partClaim tag) s fun t => s.Ended t f st ∧ t.parts = s.parts)) ∧
  (∀ (s : State) (d : BitVec 6) (f : Flight), s.claimOf d.toNat = some f →
    let pass := claimPass d (s.part d.toNat).kgen (s.regionPages d.toNat) (s.guard.sync false d) []
    (pass.2.2 = true → Answers (.claimPassComplete d) s fun t => s.Ended t f 0 ∧ (t.part d.toNat).state = (s.part d.toNat).state ∧
      (∀ q ∈ s.regionPages d.toNat, let r := t.guard.record q
        r.isSealed = true ∧ r.pid = d ∧ r.zmap = BitVec.allOnes 64 ∧ r.kgen = (s.part d.toNat).kgen ∧ r.quarantine = false) ∧
      (∀ l ∈ bitsSet (s.part d.toNat).lanes, (t.lane l).owner = d.setWidth 7)) ∧
    (pass.2.2 = false → Answers (.claimPassComplete d) s fun t => s.Ended t f 0x0704 ∧ (t.part d.toNat).state = .free)) ∧
  (∀ (s : State) (tag : Tag) (f : Flight), f.started = false → s.partBusy f = false →
    let d := (Desc.dom f.desc).toNat
    let waits (t : State) : Prop := t.cmd.flight tag = some { f with started := true } ∧ t.cmd.ring = s.cmd.ring ∧ t.parts = s.parts
    (partFrom (Desc.opcode f.desc) (s.part d).state = true → partCheck s f = none →
      (s.Runs tag 0x51 f → Answers (.partKey tag) s fun t => waits t ∧ t.skn.shadows.length = s.skn.shadows.length + 1 ∧ t.guard.keys = s.guard.keys) ∧
      (s.Runs tag 0x52 f → Answers (.partStart tag) s waits) ∧ (s.Runs tag 0x53 f → Answers (.partMigrate tag) s waits) ∧
      (s.Runs tag 0x54 f → Answers (.partFreeze tag) s waits) ∧ (s.Runs tag 0x55 f → Answers (.partThaw tag) s waits) ∧
      (s.Runs tag 0x58 f → Answers (.partRelease tag) s waits) ∧
      ((∀ c, c < 4 → (s.wgCtx c).busy = false ∨ (s.wgCtx c).dom.toNat ≠ d) → (s.Runs tag 0x56 f → Answers (.partReset tag) s waits) ∧ (s.Runs tag 0x57 f → Answers (.partBindoff tag) s waits))) ∧
    (∀ c op st, (c, op) ∈ [(Instr.partKey tag, 0x51), (.partStart tag, 0x52), (.partMigrate tag, 0x53), (.partFreeze tag, 0x54),
      (.partThaw tag, 0x55), (.partReset tag, 0x56), (.partBindoff tag, 0x57), (.partRelease tag, 0x58)] → s.Runs tag op f →
      partFrom op (s.part d).state = true → partCheck s f = some st → Answers c s fun t => s.Ended t f st ∧ t.parts = s.parts) ∧
    (partFrom (Desc.opcode f.desc) (s.part d).state = false → ∀ c op, (c, op) ∈ [(Instr.partKey tag, 0x51), (.partStart tag, 0x52), (.partMigrate tag, 0x53), (.partFreeze tag, 0x54),
      (.partThaw tag, 0x55), (.partReset tag, 0x56), (.partBindoff tag, 0x57), (.partRelease tag, 0x58)] → s.Runs tag op f →
      Answers c s fun t => s.Ended t f 0x0701 ∧ t.parts = s.parts)) ∧
  (∀ (s : State) (tag : Tag) (f : Flight), f.started = false → s.partBusy f = true → ∀ c op, (c, op) ∈ [(Instr.partClaim tag, 0x50), (.partKey tag, 0x51), (.partStart tag, 0x52),
    (.partMigrate tag, 0x53), (.partFreeze tag, 0x54), (.partThaw tag, 0x55), (.partReset tag, 0x56), (.partBindoff tag, 0x57), (.partRelease tag, 0x58)] → s.Runs tag op f →
    Answers c s fun t => s.Ended t f 0x0702 ∧ t.parts = s.parts) ∧
  (∀ (s : State) (f : Flight),
    let d := (Desc.dom f.desc).toNat
    let p := s.part d
    let t := s.partSeam f
    p.state ≠ .frozen →
      (Desc.opcode f.desc = 0x52 → t.part d = { p with state := .running } ∧ (d ≠ f.queue → s.Ended t f 0)) ∧
      (Desc.opcode f.desc = 0x53 → t.part d = { p with epoch := p.epoch + 1, lastEpochRow := some s.row } ∧ s.Ended t f 0) ∧
      (Desc.opcode f.desc = 0x54 → (p.state = .keyed ∨ p.state = .running) → (t.part d).state = .frozen ∧ (t.part d).resume = p.state) ∧
      (∀ x, Desc.opcode f.desc = 0x51 → s.skn.shadows.find? (fun x => x.tag = f.tag) = some x → t.part d = { p with state := .keyed } ∧ (t.wgPart d).keyValid = true ∧
        t.keyEntry d = { dataKey := x.dataKey, macKey := x.macKey, h := aes256 x.macKey 0, kgen := x.kgen, valid := true }) ∧
      (Desc.opcode f.desc = 0x56 → s.wgQuiet d = true → (t.part d).state = .claimed) ∧
      (Desc.opcode f.desc = 0x57 → s.wgQuiet d = true → (t.part d).state = .bindingOff) ∧
      (Desc.opcode f.desc = 0x58 → (t.part d).state = .free ∧ (t.part d).regions = [])) ∧
  (∀ (s : State) (f : Flight), (s.part (Desc.dom f.desc).toNat).state = .frozen → Desc.opcode f.desc = 0x55 → (∀ c, c < 4 → (s.wgCtx c).stopped = false ∨ (s.wgCtx c).dom.toNat ≠ (Desc.dom f.desc).toNat) →
    ((s.partSeam f).part (Desc.dom f.desc).toNat).state = (s.part (Desc.dom f.desc).toNat).resume)

/-- FL_READ, FL_PROGRAM and FL_ERASE on an idle channel set STATUS when a check fails and begin the operation when the device and the other channel are idle. FL_OP_COMPLETE ends it: a read delivers the bytes to the channel's SRAM, a program clears bits of its bytes, an erase sets the sector to 0xFF, each alone; STATUS is 0, or 0x0A03 or 0x0A04 where it did not verify; where the other channel waits, its operation begins. A class without the channel changes nothing. (R431, R444, R445) -/
def Obligations.FlashOperationsRunOneAtATime : Prop :=
  (∀ (s : State) (c : Cls) (ch : Bool) (addr : BitVec 32) (len : BitVec 17) (sram : BitVec 20), c = .K ∨ c = .S ∧ ch = true → (s.fl.chan (flChanOf ch)).busy = false →
    let n := flChanOf ch
    let goes (op : BitVec 2) (len : BitVec 17) (sram : BitVec 20) (i : Instr) : Prop :=
      let x : FlChan := { s.fl.chan n with op := op, addr := addr, len := len, sram := sram }
      (∀ st, flCheck s n x = some st → exec i s = .next { s with fl := s.fl.setChan n { x with status := st } }) ∧
      (flCheck s n x = none → s.fl.run = none → s.fl.last < 2 → (s.fl.chan (1 - n)).busy = false → Answers i s fun t =>
        t.fl.dev = s.fl.dev ∧ (t.fl.chan n).busy = true ∧ t.skn = s.skn ∧
        ∃ r, t.fl.run = some r ∧ r.chan = n ∧ r.op = op ∧ r.addr = addr.toNat ∧ r.len = len.toNat ∧ r.sram = sram.toNat)
    goes 1 len sram (.flRead c ch addr len sram) ∧ goes 2 len sram (.flProgram c ch addr len sram) ∧
    goes 3 (s.fl.chan n).len (s.fl.chan n).sram (.flErase c ch addr)) ∧
  (∀ (s : State) (c : Cls) (ch : Bool) (a : BitVec 32) (l : BitVec 17) (m : BitVec 20), c ≠ .K → (c ≠ .S ∨ ch = false) →
    exec (.flRead c ch a l m) s = .next s ∧ exec (.flProgram c ch a l m) s = .next s ∧ exec (.flErase c ch a) s = .next s) ∧
  (∀ (s : State) (r : FlRun) (ok : Bool), s.fl.run = some r → r.chan < 2 → s.fl.last < 2 → (s.fl.chan (1 - r.chan)).busy = true → Answers (.flOpComplete ok) s fun t =>
    ∃ r', t.fl.run = some r' ∧ r'.chan = 1 - r.chan) ∧
  (∀ (s : State) (ok : Bool), s.fl.run = none → exec (.flOpComplete ok) s = .next s) ∧
  (∀ (s : State) (r : FlRun) (ok : Bool), s.fl.run = some r → r.chan < 2 → (s.fl.chan (1 - r.chan)).busy = false → Answers (.flOpComplete ok) s fun t =>
    t.fl.run = none ∧ (t.fl.chan r.chan).busy = false ∧ (ok = true → (t.fl.chan r.chan).status = 0) ∧
    (ok = false → (t.fl.chan r.chan).status = (if r.op = 1 then 0 else if r.op = 3 then 0x0A03 else 0x0A04)) ∧
    (r.op = 1 → t.fl.dev = s.fl.dev ∧ t.skn = (s.setCoreSram r.chan r.sram (s.fl.read r.addr r.len)).skn) ∧
    (r.op = 2 → t.skn = s.skn ∧ t.fl.progs = s.fl.progs + 1 ∧ (r.data.length = r.len → ok = true →
      (∀ i, i < r.len → SMap.get 0xFF t.fl.dev (r.addr + i) = SMap.get 0xFF s.fl.dev (r.addr + i) &&& r.data.getD i 0xFF) ∧
      ∀ a, (a < r.addr ∨ r.addr + r.len ≤ a) → SMap.get 0xFF t.fl.dev a = SMap.get 0xFF s.fl.dev a)) ∧
    (r.op = 3 → t.skn = s.skn ∧ t.fl.erases = s.fl.erases + 1 ∧ (ok = true → ∀ a, SMap.get 0xFF t.fl.dev a =
      if r.addr ≤ a ∧ a < r.addr + 4096 then 0xFF else SMap.get 0xFF s.fl.dev a)))

/-- After READY, with sealing possible, the ledger's key held, the store repaired, no compaction open and the supply warning high, WEAR_LEDGER_COMMIT whose slots verify takes OPTIME on and logs the commit, and in a failed store ends with 0x0A09 and changes nothing on the device. SINTER_CHECKPOINT of waiting entries moves CKPT past as many as a sector takes and frees them; beyond the limit of R460 it takes as many as hold 61 codes and logs event 0x0A00_0087; without entries, or where it cannot be written, it changes nothing. A COMPACTION that neither may begin nor resumes ends with 0x0A08. One that may writes its records, and when they all stand programs the next bit of the epoch counter; no fuse is lost and no program stays open. While PWR_WARN_N is low neither the wear commit nor an allowed compaction does anything. The bucket behind the limit is the model's choice (log entry 30). (R437, R443, R445, R451, R455, R456, R457, R460, R461, R462, R719) -/
def Obligations.LedgersAndCheckpointsAreWritten : Prop :=
  (∀ (s : State) (a b : BitVec 3), s.bnd.pwrWarn = true → exec (.wearLedgerCommit a b) s = .next s) ∧
  (∀ (s : State) (b : Burn),
    ((s.compactionOpen || s.mayCompact) = false → exec (.compaction b) s = .next { s with fl := { s.fl with status := 0x0A08 } }) ∧
    ((s.compactionOpen || s.mayCompact) = true → s.canSeal = false ∨ s.otp.running.isSome = true ∨ s.bnd.pwrWarn = true → exec (.compaction b) s = .next s)) ∧
  (∀ s : State, s.compactionOpen = false → s.bnd.ready = true → s.bnd.pwrWarn = false → s.canSeal = true → (s.storeKey (keyName 2 1 (s.otp.counter 3)).1 (keyName 2 1 (s.otp.counter 3)).2).isSome = true →
    bit s.fl.repaired 2 = true → s.fl.defectsDue = false →
    (s.storeFailed (storeOf 2) = false → s.snt.opened = true → s.snt.lostSince = 0 → s.snt.pend < sntSize → Answers (.wearLedgerCommit 0 0) s fun t =>
      t.fl.optime = s.optime ∧ t.fl.optimeAt = some s.bnd.timebase ∧ t.fl.status = 0 ∧ t.otp = s.otp ∧ t.snt.prod = s.snt.prod + 1 ∧
      (SMap.get {} t.snt.ring s.snt.prod.toNat).code = 0x0A000080) ∧
    (s.storeFailed (storeOf 2) = true → ∀ a b, Answers (.wearLedgerCommit a b) s fun t => t.fl.status = 0x0A09 ∧ t.fl.dev = s.fl.dev)) ∧
  (∀ s : State, 0 < s.snt.pend →
    let n := min ckMost s.snt.pend
    let m := (ckCodes [] s.snt.waiting).length
    (s.ckThrottled (144 + 32 * n) = false → s.ckBlocked (144 + 32 * n) false = false → Answers .sinterCheckpoint s fun t =>
      t.snt.ckpt = s.snt.ckpt + BitVec.ofNat 21 n ∧ t.snt.pend + n = s.snt.pend ∧ t.snt.ring = s.snt.ring ∧ t.snt.prod = s.snt.prod ∧
      t.fl.optimeAt = some s.bnd.timebase) ∧
    (s.ckThrottled (144 + 32 * n) = true → s.ckBlocked (144 + 32 * (ckCondensed (ckCodes [] s.snt.waiting)).length) false = false → s.snt.opened = true →
      s.snt.lostSince = 0 → s.snt.pend < sntSize → Answers .sinterCheckpoint s fun t =>
        t.snt.ckpt = s.snt.ckpt + BitVec.ofNat 21 m ∧ t.snt.pend + m = s.snt.pend + 1 ∧ (SMap.get {} t.snt.ring s.snt.prod.toNat).code = 0x0A000087) ∧
    (s.ckThrottled (144 + 32 * n) = false → s.ckBlocked (144 + 32 * n) false = true → exec .sinterCheckpoint s = .next s)) ∧
  (∀ s : State, s.snt.pend = 0 → exec .sinterCheckpoint s = .next s) ∧
  (∀ (s : State) (b : Burn), s.canSeal = true → s.otp.running = none → s.bnd.pwrWarn = false → (s.compactionOpen || s.mayCompact) = true →
    let e := s.otp.counter 3
    let r := (s.log (if s.compactionOpen then 0x0A000084 else 0x0A000082)).compactRecords e
    (r.compactReady e = false → exec (.compaction b) s = .next r) ∧
    (r.compactReady e = true → Answers (.compaction b) s fun t =>
      t.otp.wdata = BitVec.ofNat 32 (2 ^ (e % 32)) ∧ t.otp.running = none ∧ s.otp.keeps t.otp))

/-- RPT_REQ takes a sound request of a ready mailbox, with or without the KEM flag, frees its buffer and starts writing the report of its claims; a malformed request, a failed check of R485 or a report that cannot be signed or is beyond 65,536 bytes is answered and starts nothing. KEY_REQ takes a sound request, frees its buffer and starts reading the bundle; another is answered. On a mailbox that is not ready, or holds the other TYPE, each changes nothing. KEM_HOLDER_EXPIRE clears the holder and unbinds it. SITE_ATTESTATION assigns the endpoint ID of R52 and sends request 0 of R478; a good CHIPLET_SPDM_RESPONSE is followed by the next request (GET_CERTIFICATE again while the chain is not whole), the last by trust in a present site; one that is not the asked response or is bad, or a nonce that cannot be drawn, fails the site. CHIPLET_SPDM_TIMEOUT repeats the request once, then fails the site. Keeper alone writes the trusted set with ATT_SITE_TRUST. SPDM_REQUEST is answered: from the table of unsigned answers, with a signature over the transcript, with the error where it needs one and evidence or the generator is unavailable, or refused where the requester's proof fails; GET_MEASUREMENTS answers the asked blocks and a signature. The encodings are those of DSP0274 (log entry 33). (R52, R467, R473, R475, R476, R477, R478, R479, R481, R483, R485, R486) -/
def Obligations.ReportsKeysAndChipletSites : Prop :=
  (∀ (s : State) (mb : BitVec 7), (s.attReady mb.toNat = false ∨ s.attType mb.toNat = some 2 → exec (.rptReq mb) s = .next s) ∧
    (s.attReady mb.toNat = false ∨ s.attType mb.toNat = some 1 → exec (.keyReq mb) s = .next s)) ∧
  (∀ (s : State) (mb : BitVec 7),
    let m := mb.toNat
    let s0 := (s.attTake m).2
    let msg := (s.attTake m).1
    let kind := leNat (sub msg 2 1)
    let flags := leNat (sub msg 3 1)
    let d := leNat (sub msg 4 1)
    let addr := leNat (sub msg 48 8)
    let id := sub (msg ++ zeros 16) 8 8
    let kem : Bool := decide (flags = 1) && decide (kind = 1)
    let sound : Prop := msg.length = 64 ∧ sub msg 0 2 = [1, 1] ∧ kind ≤ 1 ∧ flags ≤ 1 ∧ sub msg 5 3 = zeros 3 ∧ sub msg 60 4 = zeros 4 ∧ rptAllowed m kind d (decide (flags = 1)) = true
    let r : Option Nat × State := if kem then (some (s0.fillHolder d).1, (s0.fillHolder d).2) else (none, s0)
    let rep := (r.2.reportOf (r.2.claims kind d (sub msg 16 32) r.1)).1
    let answered (t : State) : Prop := t.att.run = none ∧ t.own = s.own ∧ (t.cmd.mailbox m).up.full = false ∧ (t.cmd.mailbox m).down.full = true
    s.attReady m = true →
    (∀ bs, sound → rptCheck s0 kind d kem addr (leNat (sub msg 56 4)) = none → rep = some bs → bs.length ≤ 65536 → Answers (.rptReq mb) s fun t =>
      t.att.run = some { mb := m, phase := .writing, part := d, holder := r.1, reqId := id, len := bs.length, addr := addr, td := sha384 bs } ∧
      (t.cmd.mailbox m).up.full = false ∧ (t.cmd.mailbox m).down = (s.cmd.mailbox m).down) ∧
    ((s.cmd.mailbox m).down.highWater = 0 →
      (¬ sound → s.attType m ≠ some 2 → Answers (.rptReq mb) s answered) ∧
      (∀ st, sound → rptCheck s0 kind d kem addr (leNat (sub msg 56 4)) = some st → Answers (.rptReq mb) s fun t => answered t ∧ t.att = s.att) ∧
      (sound → rptCheck s0 kind d kem addr (leNat (sub msg 56 4)) = none → (∀ bs, rep = some bs → 65536 < bs.length) → Answers (.rptReq mb) s answered))) ∧
  (∀ (s : State) (mb : BitVec 7),
    let m := mb.toNat
    let msg := (s.attTake m).1
    let sound : Prop := 64 ≤ m ∧ m ≤ 67 ∧ msg.length = 32 ∧ sub msg 0 4 = [2, 1, 0, 0] ∧ sub msg 6 2 = zeros 2 ∧ sub msg 28 4 = zeros 4 ∧ leNat (sub msg 24 4) = 1960
    s.attReady m = true →
    (sound → Answers (.keyReq mb) s fun t =>
      t.att.run = some { mb := m, phase := .reading, part := leNat (sub msg 4 1), holder := some (leNat (sub msg 5 1)), reqId := sub (msg ++ zeros 16) 8 8, len := 1960, addr := leNat (sub msg 16 8) } ∧
      (t.cmd.mailbox m).up.full = false ∧ t.own.length = s.own.length + (linesOf (leNat (sub msg 16 8)) 1960).length) ∧
    (¬ sound → s.attType m ≠ some 1 → (s.cmd.mailbox m).down.highWater = 0 → Answers (.keyReq mb) s fun t => t.att = s.att ∧ t.own = s.own ∧ (t.cmd.mailbox m).up.full = false ∧
      (t.cmd.mailbox m).down.full = true)) ∧
  (∀ (s : State) (d : BitVec 6) (h : Nat), (s.attPart d.toNat).holder = some h → Answers (.kemHolderExpire d) s fun t =>
    (t.attPart d.toNat).holder = none ∧ (t.attPart d.toNat).bound = [] ∧ (s.holderFull h d.toNat = true → SMap.get {} t.pke.holders h = {}) ∧ t.parts = s.parts) ∧
  (∀ (s : State) (n : BitVec 5), n.toNat < Config.sites →
    let x := s.attSite n.toNat
    let failed (t : State) : Prop := (t.attSite n.toNat).status = 3 ∧ (t.attSite n.toNat).step = none ∧ t.bnd.siteTrusted = s.bnd.siteTrusted ∧ t.out = s.out
    (bit s.bnd.sitePresent n.toNat = true → x.step = none → Answers (.siteAttestation n) s fun t =>
      (t.attSite n.toNat).step = some 0 ∧ (t.attSite n.toNat).repeated = false ∧ (t.attSite n.toNat).eid = siteEid n.toNat ∧
      t.out = s.out ++ [.mctpAssign n.toNat (siteEid n.toNat), .mctp n.toNat ownEid (siteEid n.toNat) (({} : SpdmSide).request 0 [])]) ∧
    (∀ k msg, x.step = some k → x.side.heard k msg = none → Answers (.chipletSpdmResponse n msg) s failed) ∧
    (∀ k msg y, x.step = some k → x.side.heard k msg = some y →
      let good : Prop := s.siteGood n.toNat k y msg = true
      let asks (j : Nat) (t : State) : Prop := (t.attSite n.toNat).step = some j ∧ (t.attSite n.toNat).side = y ∧ t.bnd.siteTrusted = s.bnd.siteTrusted ∧
        ∃ nonce, .mctp n.toNat ownEid x.eid (y.request j nonce) ∈ t.out
      (¬ good → Answers (.chipletSpdmResponse n msg) s failed) ∧
      (good → k < 4 → Answers (.chipletSpdmResponse n msg) s (asks (k + 1))) ∧
      (good → k = 4 → y.left ≠ 0 → Answers (.chipletSpdmResponse n msg) s (asks 4)) ∧
      (good → k = 4 → y.left = 0 → s.skn.drbgReady 0 = true → Answers (.chipletSpdmResponse n msg) s (asks 5)) ∧
      (good → k = 4 → y.left = 0 → s.skn.drbgReady 0 = false → Answers (.chipletSpdmResponse n msg) s failed) ∧
      (good → k = 5 → bit s.bnd.sitePresent n.toNat = true → Answers (.chipletSpdmResponse n msg) s fun t =>
        (t.attSite n.toNat).status = 2 ∧ (t.attSite n.toNat).step = none ∧ bit t.bnd.siteTrusted n.toNat = true ∧ (t.attSite n.toNat).measDigest = sha384 (measRecord msg) ∧
        (t.attSite n.toNat).leafDigest = x.leafDigest)) ∧
    (x.step ≠ none → x.repeated = false → Answers (.chipletSpdmTimeout n) s fun t =>
      t.attSite n.toNat = { x with repeated := true, sentAt := t.bnd.timebase } ∧ t.out = s.out ++ [.mctp n.toNat ownEid x.eid (x.sent.getLast?.getD [])]) ∧
    (x.step ≠ none → x.repeated = true → Answers (.chipletSpdmTimeout n) s failed) ∧
    (x.step = none → ∀ msg, exec (.chipletSpdmResponse n msg) s = .next s ∧ exec (.chipletSpdmTimeout n) s = .next s)) ∧
  (∀ (s : State) (v : W64),
    exec (.attSiteTrust .K v) s = .next { s with bnd := { s.bnd with siteTrusted := (s.bnd.siteTrusted ||| (field v 0 24 &&& s.bnd.sitePresent)) &&& ~~~(field v 32 24) } } ∧
    ∀ c, c ≠ .K → exec (.attSiteTrust c v) s = .next s) ∧
  (∀ (s : State) (msg : List Byte),
    let signed (context : String) (body : List Byte) (u : State) : List Byte :=
      body ++ (u.spdmSign (spdmSigned (msg.headD 0) context (sha384 (s.att.hostSpdm.flatten ++ msg ++ body)))).1
    let asked := ((sub msg 1 1).headD 0)
    Answers (.spdmRequest msg) s (fun t => (∃ rsp, .spdm rsp ∈ t.out) ∧ t.cmd = s.cmd) ∧
    (∀ rsp, hostPlain s.hostSlot0 msg = some rsp → Answers (.spdmRequest msg) s fun t => t.out = s.out ++ [.spdm rsp] ∧
      t.att = { s.att with hostSpdm := (if asked = 0x84 then [] else s.att.hostSpdm) ++ [msg, rsp] }) ∧
    (hostPlain s.hostSlot0 msg = none → spdmSigns msg = true →
      (s.evidence = false ∨ s.skn.drbgReady 0 = false → Answers (.spdmRequest msg) s fun t => t.out = s.out ++ [.spdm spdmError]) ∧
      (s.evidence = true → s.skn.drbgReady 0 = true → let u := s.drbgUsed 32
        (asked = 0x83 → Answers (.spdmRequest msg) s fun t => .spdm (signed "responder-challenge_auth signing" (u.challengeAnswer (s.randomBytes 32) msg) u) ∈ t.out) ∧
        (∀ body w, asked = 0xE0 → u.measAnswer (s.randomBytes 32) msg = (some body, w) → Answers (.spdmRequest msg) s fun t =>
          .spdm (signed "responder-measurements signing" body w) ∈ t.out))) ∧
    (∀ p, hostPlain s.hostSlot0 msg = none → spdmSigns msg = false → asked ≠ 0xE0 → Config.spdmProof s.att.hostSpdm msg = some p → mutualHolds p = false →
      Answers (.spdmRequest msg) s fun t => t.out = s.out ++ [.spdm (spdmErr (msg.headD 0) 0x06 0)])) ∧
  (∀ (s : State) (nonce : Key256) (i : BitVec 8),
    (s.evidence = false ∨ s.skn.drbgReady 0 = false → Answers (.getMeasurements nonce i) s fun t => t.out = s.out ++ [.spdm spdmError]) ∧
    (s.evidence = true → s.skn.drbgReady 0 = true →
      let msg : List Byte := [0x13, 0xE0, 1, i] ++ leBytes 32 nonce ++ [0] ++ zeros 8
      let r := (s.drbgUsed 32).measAnswer (s.randomBytes 32) msg
      (r.1 = none → Answers (.getMeasurements nonce i) s fun t => .spdm spdmError ∈ t.out) ∧
      (∀ body, r.1 = some body → Answers (.getMeasurements nonce i) s fun t => t.cmd = s.cmd ∧
        .spdm (body ++ (r.2.spdmSign (spdmSigned 0x13 "responder-measurements signing" (sha384 (s.att.hostSpdm.flatten ++ msg ++ body)))).1) ∈ t.out)))

/-- CAST_ON_STAGE in a start takes CO1 to CO2, CO2 to CO3 with the wired outputs valid, the repair stream loaded and the trims applied, CO7 to CO8, CO9 to CO10 once no exchange runs, CO10 to CO11 once every region of the mask is decided; it changes nothing outside a start and test hold. The timeout of CO8 enables the trained slices and goes to CO9, or halts with cause 5 where none trained; that of CO9 goes to CO10 with exchanges going on. A watchdog expiry or a core fault counts a failed start and its cause, then starts over at CO3, at CO1 in a warm reset, and enters ROM recovery with cause 4 at the fourth. RUN_SRAM acts for the host in test hold. ROOT_REQ answers the message of mailbox 64 and loses no fuse. BLOCK_READY enters CO12 when its conditions hold, sets READY, and clears the failed starts. (R492, R494, R496, R505, R506, R507, R510, R512, R513, R518) -/
def Obligations.CastOnStagesRunInOrder : Prop :=
  (∀ (s : State) (flash : FlashStart) (failed : List UnitId), (s.starting = false → s.co.testHold = false → exec (.castOnStage flash failed) s = .next s) ∧
    (s.starting = true →
      let went (a b : Nat) (t : State) : Prop := t.bnd.coStage.toNat = b ∧ SMap.get 0 t.co.times a = s.bnd.timebase ∧ t.bnd.ready = s.bnd.ready
      (s.bnd.coStage = 1 → s.bnd.warmRunning = false → Answers (.castOnStage flash failed) s (went 1 2)) ∧
      (s.bnd.coStage = 2 → Answers (.castOnStage flash failed) s fun t => went 2 3 t ∧ t.bnd.wiredValid = true ∧ t.bnd.wired = s.otp.wired ∧ t.out = s.out ++ [.repairLoad s.otp.repairStream, .trims ((List.range' 0x070 16).map s.otp.trim) ((List.range' 0x0A0 14).map s.otp.trim)]) ∧
      (s.bnd.coStage = 7 → Answers (.castOnStage flash failed) s (went 7 8)) ∧
      (s.bnd.coStage = 9 → (s.att.sites.any fun e => e.2.step.isSome) = false → Answers (.castOnStage flash failed) s fun t => went 9 10 t ∧ t.att = s.att) ∧
      (s.bnd.coStage = 9 → (s.att.sites.any fun e => e.2.step.isSome) = true → exec (.castOnStage flash failed) s = .next s) ∧
      (s.bnd.coStage = 10 → s.co.waveBusy = false → s.co.waveMask &&& ~~~(s.co.released ||| s.co.failed) = 0 → Answers (.castOnStage flash failed) s (went 10 11)))) ∧
  (∀ s : State, s.starting = true → s.bnd.coStage = 8 →
    ((∃ n ∈ s.enabledSlices, bit s.bnd.memtrn n = true) → Answers .co8Timeout s fun t => t.bnd.coStage = 9 ∧
      ∀ n ∈ s.enabledSlices, bit s.bnd.memtrn n = true → (t.slice n).en = true) ∧
    ((∀ n ∈ s.enabledSlices, bit s.bnd.memtrn n = false) → Answers .co8Timeout s fun t => t.co.halted = true ∧ t.co.haltCause = 5 ∧ t.bnd.coStage = 8)) ∧
  (∀ s : State, s.starting = true → s.bnd.coStage = 9 → Answers .co9Timeout s fun t => t.bnd.coStage = 10 ∧ t.att = s.att ∧ t.bnd.siteTrusted = s.bnd.siteTrusted) ∧
  (∀ (s : State) (i : Instr) (cause : BitVec 2), (i = .castOnWatchdogExpire ∧ cause = 1 ∧ s.wdogPaused = false) ∨ (i = .coreFault false ∧ cause = 2) ∨ (i = .coreFault true ∧ cause = 3) →
    (s.starting = true → s.co.failedStarts.toNat < 3 → Answers i s fun t => t.co.failedStarts = s.co.failedStarts + 1 ∧ t.co.failStage = s.bnd.coStage ∧
      t.co.failCause = cause ∧ t.bnd.coStage = (if s.bnd.warmRunning then 1 else 3) ∧ t.bnd.ready = false) ∧
    (s.starting = true → s.co.failedStarts = 3 → Answers i s fun t => t.bnd.recovery = true ∧ t.co.recCause = 4 ∧ t.co.failCause = cause) ∧
    (s.starting = false → exec i s = .next s)) ∧
  (∀ s : State, (s.co.testHold = true → exec (.runSram .H) s = .next { s with co := { s.co with runSram := true, unsignedRun := s.co.unsignedRun || s.unsignedOk } }) ∧
    (s.co.testHold = false → exec (.runSram .H) s = .next s) ∧ ∀ c, c ≠ .H → exec (.runSram c) s = .next s) ∧
  (∀ (s : State) (bs : List Burn), s.co.rootprov = true → (s.cmd.mailbox 64).up.full = true → (s.cmd.mailbox 64).down.full = false → (s.cmd.mailbox 64).down.highWater = 0 →
    Answers (.rootReq bs) s fun t => (t.cmd.mailbox 64).up.full = false ∧ (t.cmd.mailbox 64).down.full = true ∧ (t.cmd.mailbox 64).down.length = 16 ∧ s.otp.keeps t.otp) ∧
  (∀ s : State, (s.readyDue = true → Answers .blockReady s fun t => t.bnd.coStage = 12 ∧ t.bnd.ready = true ∧ t.bnd.everReady = true ∧ t.bnd.warmRunning = false ∧
      t.co.failedStarts = 0 ∧ SMap.get 0 t.co.times 12 = s.bnd.timebase) ∧
    (s.readyDue = false → exec .blockReady s = .next s))

/-- CO_WAVE_GO of Keeper with regions left starts the engine; other classes change nothing. WAVE_BEGIN takes the up to 8 lowest regions left and begins the ramp, or clears BUSY with none left. A wave without RAIL_OK, and regions without 16 clean snapshots at the settle limit, are returned to the clamp, unreleased and failed; their outputs fall with the clamp at the next seam. The settle window opens after the release, a settled wave ends without failing a region, and a resumed settle step starts again. While the engine is paused, none of these acts. (R514, R515, R516, R517) -/
def Obligations.PowerUpRunsInWaves : Prop :=
  (∀ s : State, (s.co.waveBusy = false → s.co.waveLeft ≠ [] → exec (.coWaveGo .K) s = .next { s with co := { s.co with
      waveBusy := true, wave := 0, waveSet := 0, waveStep := .none, waveClean := [], paused := false } }) ∧ ∀ c, c ≠ .K → exec (.coWaveGo c) s = .next s) ∧
  (∀ s : State, s.wavePaused = true → ∀ i ∈ [Instr.waveBegin, .waveRailTimeout, .waveSettleOpen, .waveSettleDone, .waveSettleTimeout], exec i s = .next s) ∧
  (∀ s : State, s.wavePaused = false →
    let failsAll (p : Nat → Prop) (t : State) : Prop :=
      (∀ n ∈ bitsSet s.co.waveSet, p n → bit t.co.failed n = true ∧ bit t.co.released n = false) ∧
      (∀ n, ¬ (n ∈ bitsSet s.co.waveSet ∧ p n) → bit t.co.failed n = bit s.co.failed n ∧ bit t.co.released n = bit s.co.released n) ∧
      t.gov = s.gov ∧ t.co.waveStep = .none ∧ t.co.waveSet = 0 ∧ t.re = s.re
    (s.co.waveBusy = true → s.co.waveStep = .none →
      (s.co.waveLeft ≠ [] → exec .waveBegin s = .next { s with co := { s.co with
        waveSet := ofBits 64 (s.co.waveLeft.take 8), waveStep := .ramp, waveT0 := s.bnd.timebase, railOk := false, waveClean := [] } }) ∧
      (s.co.waveLeft = [] → exec .waveBegin s = .next { s with co := { s.co with waveBusy := false } })) ∧
    (s.co.waveStep = .ramp → s.co.railOk = false → Answers .waveRailTimeout s (failsAll fun _ => True)) ∧
    (s.co.waveStep = .settleWait → Answers .waveSettleOpen s fun t => t.co.waveStep = .settle ∧ t.co.waveClean = [] ∧ t.co.waveAt = t.bnd.timebase ∧ t.gov = s.gov) ∧
    (s.co.waveStep = .settle → s.co.settled = true → Answers .waveSettleDone s (failsAll fun _ => False)) ∧
    (s.co.waveStep = .settle → s.co.settled = false → Answers .waveSettleTimeout s (failsAll fun n => SMap.get 0 s.co.waveClean n < 16))) ∧
  (∀ s : State, s.co.paused = true → s.bnd.clamp = false → s.gov.hold = false → Answers .waveResume s fun t =>
    t.co.paused = false ∧ t.co.waveStep = s.co.waveStep ∧ t.co.released = s.co.released ∧ t.co.failed = s.co.failed ∧ t.gov = s.gov ∧
    (s.co.waveStep = .settle → t.co.waveClean = [] ∧ t.co.waveAt = s.bnd.timebase))

/-- In a secured session, for a stream ID that a slot holds: KEY_PROG with a free Skein slot drives that key and IV on the key port, answers KP_ACK, and leaves no key in Skein, and without a free one is answered so and changes nothing; K_SET_GO makes the key set active, K_SET_STOP of the set in use makes the direction inactive, both answered. Outside a secured session or with another ID, each is answered Unsupported and changes nothing. QUERY is answered likewise. The first host-path error freezes the path, records its cause, returns every stream to FREE and raises interrupt cause 0; a further one sets OVERFLOW. A read of HW_CONT by K or H while frozen sets CAUSE_READ. RELEASE by K or H of the cause that was read ends containment, another value sets 0x0E09, other classes change nothing. While R520 closes the registers a read gives zeros and a RELEASE changes nothing. (R666, R670, R672, R674, R675) -/
def Obligations.LinkKeysAndContainment : Prop :=
  (∀ (s : State) (secured : Bool) (id : BitVec 8) (kset tx : Bool) (sub : Fin 3) (key : Key256) (iv : W64),
    (∀ j, secured = true → s.host.ideSlot id = some j →
      (∀ i, 24 ≤ i → i < 256 → (s.skn.slot i).valid = false → (s.skn.slot i).erasing = false → s.skn.locked i = false →
        Answers (.keyProg secured id kset sub tx key iv) s fun t => t.out = s.out ++ [.ideKey j kset (b2n tx) sub.val (leBytes 32 key) iv, .ideKm .kpAck id] ∧
          (∀ i, (t.skn.slot i).valid = (s.skn.slot i).valid) ∧ t.host = { s.host with ideIv := iv } ∧ t.cmd = s.cmd) ∧
      ((∀ i, 24 ≤ i → i < 256 → (s.skn.slot i).valid = true ∨ (s.skn.slot i).erasing = true ∨ s.skn.locked i = true) →
        exec (.keyProg secured id kset sub tx key iv) s = .next { s with out := s.out ++ [.ideKm .noSlot id] }) ∧
      exec (.kSetGo secured id kset tx) s = .next { s with host := s.host.ideGo j tx kset, out := s.out ++ [.ideKm .goStopAck id] } ∧
      exec (.kSetStop secured id kset tx) s = .next { s with host := s.host.ideStop j tx kset, out := s.out ++ [.ideKm .goStopAck id] } ∧
      (j < 16 → bit (s.host.ideGo j tx kset).active (ideBit j tx) = true ∧ (bit s.host.ksetUsed (ideBit j tx) = kset → bit (s.host.ideStop j tx kset).active (ideBit j tx) = false))) ∧
    (secured = false ∨ s.host.ideSlot id = none → ∀ i ∈ [Instr.keyProg secured id kset sub tx key iv, .kSetGo secured id kset tx, .kSetStop secured id kset tx],
      exec i s = .next { s with out := s.out ++ [.ideKm .unsupported id] }) ∧
    exec (.query secured) s = .next { s with out := s.out ++ [.ideKm (if secured then .queryResp else .unsupported) 0] }) ∧
  (∀ (s : State) (cause : Fin 4),
    (s.host.frozen = false → Answers (.containmentEnter cause) s fun t => t.host.frozen = true ∧ t.host.cause.toNat = cause.val + 1 ∧
      bit t.host.irqPending 0 = true ∧ ∀ n, n < 16 → (t.stream n).state = .free) ∧
    (s.host.frozen = true → exec (.containmentEnter cause) s = .next { s with host := { s.host with errors := satAdd s.host.errors 1, overflow := true, causeRead := false } })) ∧
  (∀ (s : State) (c : Cls), s.reaches c 0x0E00000 = true →
    let data : State := { s with out := s.out ++ [.regData (s.host.cont.setWidth 512)] }
    ((c = .K ∨ c = .H) → s.host.frozen = true → exec (.hwContRead c) s = .next { data with host := { s.host with causeRead := true } }) ∧
    ((c = .S ∨ c = .O ∨ s.host.frozen = false) → capKSHO 0 c s = true → exec (.hwContRead c) s = .next data) ∧
    ∀ v, ((c = .K ∨ c = .H) → s.host.frozen = true → s.host.causeRead = true → s.host.cause = v → Answers (.hwContRelease c v) s fun t =>
        t.host = { s.host with frozen := false, cause := 0, causeRead := false, overflow := false } ∧ t.out = s.out) ∧
      ((c = .K ∨ c = .H) → ¬ (s.host.frozen = true ∧ s.host.causeRead = true ∧ s.host.cause = v) →
        exec (.hwContRelease c v) s = .next { s with host := { s.host with status := 0x0E09 } }) ∧
      (c ≠ .K → c ≠ .H → exec (.hwContRelease c v) s = .next s)) ∧
  (∀ (s : State) (c : Cls) (v : BitVec 3), s.reaches c 0x0E00000 = false →
    exec (.hwContRelease c v) s = .next s ∧ exec (.hwContRead c) s = .next { s with out := s.out ++ [.regData 0] })

/-- OPEN of a FREE stream with a nonzero multiple of 4 as LEN opens it at position 0; of another stream it sets 0x0E01. CLOSE of an open unbound stream closes it with the result of the close. ABORT frees a stream with 0x0E05, the idle limit a bound one with 0x0E07. Classes other than K and H change nothing. While the host path is not frozen and no window is enabled: a whole aperture write of a fitting position stores its dwords there in mode 1, a whole ordered burst write at F in mode 2; a write through the other port than the stream's sets ERROR with 0x0E03; a write to a stream that is not open is counted in DROPPED. A stream write in containment changes nothing. (R657, R658, R659, R660, R661, R664, R665) -/
def Obligations.BulkStreamsFollowTheirStates : Prop :=
  (∀ (s : State) (c : Cls) (n : BitVec 4), s.reaches c (0x0E01000 + 0x40 * n.toNat) = true → c = .K ∨ c = .H →
    let x := s.stream n.toNat
    (x.state = .free → x.len ≠ 0 → x.len.toNat % 4 = 0 → exec (.hwStrOpen c n) s = .next (s.setStream n.toNat { state := .opened, len := x.len, status := x.status })) ∧
    (x.state = .opened ∨ x.state = .bound ∨ x.state = .closed → exec (.hwStrOpen c n) s = .next (s.setStream n.toNat { x with status := 0x0E01 })) ∧
    (x.state = .opened → x.tag = none → exec (.hwStrClose c n) s = .next (s.setStream n.toNat { x with state := .closed, status := x.closeResult })) ∧
    (x.state ≠ .free → Answers (.hwStrAbort c n) s fun t => (t.stream n.toNat).state = .free ∧ (t.stream n.toNat).status = 0x0E05 ∧ (t.stream n.toNat).tag = none ∧
      (∀ m, m ≠ n.toNat → t.stream m = s.stream m)) ∧
    (x.state = .free → exec (.hwStrAbort c n) s = .next s)) ∧
  (∀ (s : State) (c : Cls) (n : BitVec 4), c ≠ .K → c ≠ .H → ∀ i ∈ [Instr.hwStrOpen c n, .hwStrClose c n, .hwStrAbort c n], exec i s = .next s) ∧
  (∀ (s : State) (n : BitVec 4), ((s.stream n.toNat).state = .bound → Answers (.streamIdleTimeout n) s fun t =>
      (t.stream n.toNat).state = .free ∧ (t.stream n.toNat).status = 0x0E07) ∧
    ((s.stream n.toNat).state ≠ .bound → exec (.streamIdleTimeout n) s = .next s)) ∧
  (∀ (s : State) (n : BitVec 4) (dws : List (BitVec 32)), s.host.frozen = false → s.host.translating = false →
    let x := s.stream n.toNat
    let open_ := x.state = .opened ∨ x.state = .bound
    (∀ off : BitVec 18, 4 * off.toNat + 4 * dws.length ≤ 1048576 →
      (open_ → x.mode = 0 ∨ x.mode = 1 → ({ x with mode := 1 } : Stream).fits (({ x with mode := 1 } : Stream).place (4 * off.toNat)) dws.length = true →
        exec (.streamApertureWrite n off dws true) s =
          .next (s.setStream n.toNat (({ x with mode := 1 } : Stream).store (({ x with mode := 1 } : Stream).place (4 * off.toNat)).toNat dws s.bnd.timebase))) ∧
      (open_ → x.mode = 2 → x.tag = none → Answers (.streamApertureWrite n off dws true) s fun t =>
        (t.stream n.toNat).state = .error ∧ (t.stream n.toNat).status = 0x0E03 ∧ bit t.host.irqPending 1 = true) ∧
      (¬ open_ → exec (.streamApertureWrite n off dws true) s = .next s.streamDropped)) ∧
    (∀ off : BitVec 10, 4 * off.toNat + 4 * dws.length ≤ 4096 →
      (open_ → x.mode = 0 ∨ x.mode = 2 → ({ x with mode := 2 } : Stream).fits (x.f : Int) dws.length = true →
        exec (.streamBurstWrite n off dws true false) s = .next (s.setStream n.toNat (({ x with mode := 2 } : Stream).store x.f dws s.bnd.timebase))) ∧
      (open_ → x.tag = none → Answers (.streamBurstWrite n off dws true true) s fun t => (t.stream n.toNat).state = .error ∧ (t.stream n.toNat).status = 0x0E03) ∧
      (¬ open_ → exec (.streamBurstWrite n off dws true false) s = .next s.streamDropped))) ∧
  (∀ (s : State) (n : BitVec 4) (dws : List (BitVec 32)) (full relaxed : Bool), s.host.frozen = true →
    (∀ off, exec (.streamApertureWrite n off dws full) s = .next s) ∧ ∀ off, exec (.streamBurstWrite n off dws full relaxed) s = .next s)

/-- HW_WIN_WRITE by Keeper stores the half window written where R667 allows the result, and sets 0x0E08 otherwise; other classes change nothing. In translation mode, a permitted access inside one enabled window of a core's SRAM writes its bytes at TARGET plus the offset, and a read returns them; an access in no window, or in the burst ports, returns zeros or is dropped, and is counted in MISS. In containment a read returns all ones and a write is dropped. (R651, R667, R668, R671) -/
def Obligations.TranslationWindowsReachCoreSram : Prop :=
  (∀ (s : State) (w : BitVec 4) (hi : Bool) (v : W64),
    let x := s.host.win w.toNat
    let y : HwWin := if hi then { x with target := mrg x.target 0 v (BitVec.allOnes 64) } else x.write v (BitVec.allOnes 64)
    (s.winAllowed y = true → Answers (.hwWinWrite .K w hi v) s fun t => t.host.win w.toNat = y ∧ (∀ m, m ≠ w.toNat → t.host.win m = s.host.win m) ∧ t.host.status = s.host.status) ∧
    (s.winAllowed y = false → exec (.hwWinWrite .K w hi v) s = .next { s with host := { s.host with status := 0x0E08 } }) ∧
    ∀ c, c ≠ .K → exec (.hwWinWrite c w hi v) s = .next s) ∧
  (∀ (s : State) (off : BitVec 25) (bs : List (Option Byte)), s.host.frozen = false → s.host.translating = true →
    (off.toNat < 16777216 → ∀ x, s.host.winAt off.toNat = some x → x.space.toNat ≤ 1 → off.toNat + bs.length ≤ (x.hostBase.toNat + x.size.toNat) * 65536 →
      let a := x.target.toNat + (off.toNat - x.hostBase.toNat * 65536)
      let sram (t : State) : Mem := if x.space = 1 then t.skn.stewardSram else t.skn.keeperSram
      let end_ := if x.space = 1 then 1048576 else 524288
      a + bs.length ≤ end_ →
      (x.wr = true → Answers (.translationAccess off true bs) s fun t =>
        (∀ i, (h : i < bs.length) → SMap.get 0 (sram t) (a + i) = (bs[i]).getD (SMap.get 0 (sram s) (a + i))) ∧
        (∀ b, b < a ∨ a + bs.length ≤ b → SMap.get 0 (sram t) b = SMap.get 0 (sram s) b) ∧ t.out = s.out ∧ t.host = s.host) ∧
      (x.rd = true → Answers (.translationAccess off false bs) s fun t =>
        t.out = s.out ++ [.hostRead ((List.range bs.length).map fun i => SMap.get 0 (sram s) (a + i))] ∧ t.host = s.host ∧ t.skn = s.skn)) ∧
    (16777216 ≤ off.toNat ∨ s.host.winAt off.toNat = none →
      exec (.translationAccess off true bs) s = .next { s with host := { s.host with miss := satAdd s.host.miss 1 } } ∧
      exec (.translationAccess off false bs) s = .next { s with host := { s.host with miss := satAdd s.host.miss 1 }, out := s.out ++ [.hostRead (List.replicate bs.length 0)] })) ∧
  (∀ (s : State) (off : BitVec 25) (bs : List (Option Byte)), s.host.frozen = true →
    exec (.translationAccess off true bs) s = .next s ∧
    exec (.translationAccess off false bs) s = .next { s with out := s.out ++ [.hostRead (List.replicate bs.length 0xFF)] })

/-- REGISTER_READ by K, S, H, O or the instrument delivers the bytes of the class's access, REGISTER_WRITE by H, O or the instrument makes it. REG_READ and REG_WRITE that the block port refuses (R41, R43) are answered REFUSED and change nothing; others are answered OK behind the access of the request's class, or REFUSED where the unit refuses it; outside the NoC a read that the unit refuses delivers its data; a REG_WRITE in an area that R520 closes has no effect, one to an intake port is a post, as is Keeper's or Steward's, which learn whether it is refused. A low 32-bit read of TIMEBASE returns it and latches the high half for its class, and the next high read returns the latch. An access of a location that no window or register of the class covers reads 0 or has no effect; a malformed BAR0 access by the host, one of more than 64 bytes too, is counted in MALFORMED. A host write of HW_IRQ clears the pending bits written 1 and sets the mask. Accesses of the classes of partitions and chiplets come by REG_READ and REG_WRITE only. REG_READ of the identity page is answered OK with the discovery table's bytes. A partition's REG_WRITE of DB_SET rings doorbells of its own mailbox, is answered OK everywhere, and changes nothing at another partition's mailbox. (R8, R36, R41, R43, R109, R652, R654, R655, R673) -/
def Obligations.RegisterAccessesReachByClass : Prop :=
  (∀ (s : State) (c : Cls), c = .K ∨ c = .S ∨ c = .H ∨ c = .O →
    exec (.registerRead c 0x1008 8) s = .next { s with out := s.out ++ [.regData (s.bnd.timebase.setWidth 512)] } ∧
    Answers (.registerRead c 0x1008 4) s (fun t => t.out = s.out ++ [.regData ((field s.bnd.timebase 0 32).setWidth 512)] ∧ t.bnd.tbHigh c = field s.bnd.timebase 32 32 ∧
      t = { s with bnd := { s.bnd with tbLatch := t.bnd.tbLatch }, out := t.out }) ∧
    Answers (.registerRead c 0x100C 4) s (fun t => t.out = s.out ++ [.regData ((s.bnd.tbHigh c).setWidth 512)] ∧ t.bnd.tbHigh c = field s.bnd.timebase 32 32)) ∧
  (∀ (s : State) (off : BitVec 26) (size : BitVec 7) (data : Line) (full : Bool),
    (windowAt s .O off.toNat = none → (∀ loc, regAt s .O loc = none ∨ loc ∉ locsOf off.toNat (min size.toNat 64)) →
      exec (.registerRead .O off size) s = .next { s with out := s.out ++ [.regData 0] } ∧ exec (.registerWrite .O off size data full) s = .next s) ∧
    (s.contained .H off.toNat = false → barOk off.toNat size.toNat = false ∨ 64 < size.toNat →
      exec (.registerRead .H off size) s = .next { s with host := { s.host with malformed := satAdd s.host.malformed 1 }, out := s.out ++ [.regData 0] } ∧
      exec (.registerWrite .H off size data full) s = .next { s with host := { s.host with malformed := satAdd s.host.malformed 1 } }) ∧
    (∀ c, isNocClass c = true → exec (.registerRead c off size) s = .next s ∧ exec (.registerWrite c off size data full) s = .next s)) ∧
  (∀ (s : State) (data : Line), s.reaches .H 0x0E00008 = true → exec (.registerWrite .H 0x0E00008 8 data true) s = .next { s with host := { s.host with
    irqPending := s.host.irqPending &&& ~~~(field data 0 3), irqMask := field data 8 3 } }) ∧
  (∀ (s : State) (h : NocHdr) (size : BitVec 7), s.portRefuses h = false → h.addr.toNat + min size.toNat 64 ≤ 0x1000 → exec (.regRead h size) s = .next
    { s with out := s.out ++ [.nocResp h.txid .ok (ofLeBytes 512 (discoveryRead h.addr.toNat (min size.toNat 64)))] }) ∧
  (∀ (s : State) (h : NocHdr) (data : Line) (d : Nat), d < 64 → s.portRefuses h = false → s.accessClosed = false → h.addr.toNat = 0x0100218 + 4096 * d →
    (h.dom.toNat = d → (s.cmd.mailbox d).en = true → Answers (.regWrite h 8 data) s fun t =>
      (t.cmd.mailbox d).up = { (s.cmd.mailbox d).up with db := (s.cmd.mailbox d).up.db ||| (field data 0 32 &&& 0x7FFFFFFF) } ∧
      (∀ m, m ≠ d → t.cmd.mailbox m = s.cmd.mailbox m) ∧ t.out = s.out ++ [.nocResp h.txid .ok 0]) ∧
    (h.dom.toNat < 64 → h.dom.toNat ≠ d → exec (.regWrite h 8 data) s = .next { s with out := s.out ++ [.nocResp h.txid .ok 0] })) ∧
  (∀ (s : State) (c : Cls) (off : BitVec 26) (size : BitVec 7) (data : Line) (full : Bool), isNocClass c = false →
    let n := if c = .H then size.toNat else min size.toNat 64
    let r := regRead s c off.toNat n
    let w := regWrite s c off.toNat (leBytes n data) full
    (r.1.out = s.out ∨ r.1.out = s.out ++ [.regRefused] →
      exec (.registerRead c off size) s = .next { r.1 with out := s.out ++ [.regData (ofLeBytes 512 r.2)] }) ∧
    ((c ≠ .K ∧ c ≠ .S) ∨ intakeWrite s coreHdr off.toNat n data = none → w.out = s.out ∨ w.out = s.out ++ [.regRefused] →
      exec (.registerWrite c off size data full) s = .next { w with out := s.out }) ∧
    (∀ t, c = .K ∨ c = .S → intakeWrite s coreHdr off.toNat n data = some t →
      (t.out = s.out ++ [.nocResp 0 .ok 0] → exec (.registerWrite c off size data full) s = .next { t with out := s.out }) ∧
      (t.out = s.out ++ [.nocResp 0 .refused 0] → exec (.registerWrite c off size data full) s = .next { t with out := s.out ++ [.regRefused] }))) ∧
  (∀ (s : State) (h : NocHdr) (size : BitVec 7) (data : Line),
    let off := h.addr.toNat
    let n := min size.toNat 64
    let r := regRead s (nocClass s h off) off n
    let w := regWrite s (nocClass s h off) off (leBytes n data) true
    let goes := s.portRefuses h = false ∧ s.reaches (.C h.site false) off = true
    (s.portRefuses h = true → exec (.regRead h size) s = .next (s.respond h .refused) ∧ exec (.regWrite h size data) s = .next (s.respond h .refused)) ∧
    (s.portRefuses h = false → r.1.out = s.out → exec (.regRead h size) s = .next (r.1.respond h .ok (ofLeBytes 512 r.2))) ∧
    (s.portRefuses h = false → r.1.out = s.out ++ [.regRefused] → exec (.regRead h size) s = .next (({ r.1 with out := s.out } : State).respond h .refused)) ∧
    (s.portRefuses h = false → s.reaches (.C h.site false) off = false → exec (.regWrite h size data) s = .next (s.respond h .ok)) ∧
    (∀ t, goes → intakeWrite s h off size.toNat data = some t → exec (.regWrite h size data) s = .next t) ∧
    (goes → intakeWrite s h off size.toNat data = none → w.out = s.out → exec (.regWrite h size data) s = .next (w.respond h .ok)) ∧
    (goes → intakeWrite s h off size.toNat data = none → w.out = s.out ++ [.regRefused] → exec (.regWrite h size data) s = .next (({ w with out := s.out } : State).respond h .refused)))

/-- Trained loopback starts the 1 ms of R76, whose end with lock on both lanes drives BYPASS_N high; a gained lock and an uncorrectable codeword start it over; trained lanes set GY_TRAINED; a training timeout and 20 ms without lock drive BYPASS_N low, and the retry follows. Loss and gain of lock are recorded per lane; 1 ms of loss is reported once. A frame of a lane without lock is lost; one that fails R679 is dropped and counted, one of the station's own is taken off, one for another station is queued on its own lane with HOPS one lower, and leaves at once where that lane is free and nothing waits, or is counted at the end of its hops. ENUM leaves with COUNT one higher; a changed station number then ends every session. A resend timeout sends or queues every unacknowledged frame again, and ends the session after 8; an acknowledgement that is due goes out in a frame of its own. A message without a session is answered 0x0F01 where its TYPE is unknown, 0x0F02 where it is not GY_HELLO. (R76, R80, R679, R680, R681, R682, R683, R685, R712) -/
def Obligations.GeyserRingAndFrames : Prop :=
  (∀ s : State,
    (s.bnd.bypass = false → s.gy.retryAt = none → s.bnd.porN = true → s.co.halted = false → exec .loopbackTrained s = .next { s with gy := { s.gy with loopAt := some s.bnd.timebase } }) ∧
    (s.bnd.bypass = true ∨ s.gy.retryAt ≠ none ∨ s.bnd.porN = false ∨ s.co.halted = true → exec .loopbackTrained s = .next s) ∧
    (∀ t0, s.gy.loopAt = some t0 → s.gy.lock = 3 → t0.toNat + 1000000 < 2 ^ 64 → Answers .bypassRelease s fun t => t.bnd.bypass = true ∧ t.gy.loopAt = none ∧
      t.gy.ringAt = some t.bnd.timebase ∧ t0.toNat + 1000000 ≤ t.now ∧ t.cmd = s.cmd) ∧
    (s.gy.loopAt = none ∨ s.gy.lock ≠ 3 → exec .bypassRelease s = .next s) ∧
    (∀ t0, s.gy.ringAt = some t0 → exec .ringTrained s = .next { s with gy := { s.gy with ringAt := none }, bnd := { s.bnd with gyTrained := 3 } } ∧
      Answers .ringTrainTimeout s fun t => t.bnd.bypass = false ∧ t.bnd.gyTrained = 0 ∧ t.gy.retryAt = some t.bnd.timebase ∧ t.gy.ringAt = none) ∧
    (∀ t0, s.gy.retryAt = some t0 → Answers .ringRetry s fun t => t.gy = { s.gy with retryAt := none } ∧ t.bnd.bypass = s.bnd.bypass)) ∧
  (∀ (s : State) (l : BitVec 1),
    Answers (.fecLockChange l .gained) s (fun t => bit t.gy.lock l.toNat = true ∧ SMap.get none t.gy.lockLost l.toNat = none ∧ t.bnd = s.bnd ∧
      t.gy.loopAt = if bit s.gy.lock l.toNat then s.gy.loopAt else s.gy.loopAt.map fun _ => s.bnd.timebase) ∧
    (bit s.gy.lock l.toNat = true → Answers (.fecLockChange l .lost) s fun t => bit t.gy.lock l.toNat = false ∧
      SMap.get none t.gy.lockLost l.toNat = some s.bnd.timebase ∧ bit t.gy.lossTold l.toNat = false ∧ t.bnd = s.bnd) ∧
    (bit s.gy.lock l.toNat = false → exec (.fecLockChange l .lost) s = .next s ∧ exec (.fecLockChange l .uncorrectable) s = .next s) ∧
    (bit s.gy.lock l.toNat = true → exec (.fecLockChange l .uncorrectable) s = .next { s with gy := { s.gy with loopAt := s.gy.loopAt.map fun _ => s.bnd.timebase } }) ∧
    (∀ t0, s.bnd.porN = true → SMap.get none s.gy.lockLost l.toNat = some t0 →
      (bit s.gy.lossTold l.toNat = false → Answers (.laneLockLoss l) s fun t => bit t.gy.lossTold l.toNat = true ∧ t.vent.accepted = s.vent.accepted + 1 ∧ t.bnd.bypass = s.bnd.bypass) ∧
      (bit s.gy.lossTold l.toNat = true → s.bnd.bypass = true → Answers (.laneLockLoss l) s fun t => t.bnd.bypass = false ∧ t.gy.retryAt = some t.bnd.timebase))) ∧
  (∀ (s : State) (l : BitVec 1) (b : List Byte) (bad : Bool),
    (bit s.gy.lock l.toNat = false → exec (.geyserFrame l b bad) s = .next s) ∧
    (bit s.gy.lock l.toNat = true → bad = true ∨ frameOk b = false → exec (.geyserFrame l b bad) s = .next { s with gy := { s.gy with cntDrop := s.gy.cntDrop + 1 } }) ∧
    (frameOk b = true → bit s.gy.lock l.toNat = true →
      ((headOf b).src = s.gy.station → s.gy.station ≠ 0xFF → exec (.geyserFrame l b false) s = .next s) ∧
      ((headOf b).src ≠ s.gy.station → (headOf b).dst ≠ s.gy.station → (headOf b).dst ≠ 0xFF →
        (1 < (headOf b).hops.toNat →
          let e : GyEntry := { frame := b.set 4 ((headOf b).hops - 1), own := false }
          exec (.geyserFrame l b false) s = .next ({ s with gy := ({ s.gy with cntFwd := s.gy.cntFwd + 1 } : Gy).forward l.toNat (headOf b).cls e } : State).gyDrain ∧
          (s.EgressFree l.toNat → (headOf b).cls ≠ 0 ∨ 64 ≤ (s.gy.lane l.toNat).linkGap → Answers (.geyserFrame l b false) s fun t => t.out = s.out ++ [.geyser l.toNat (b.set 4 ((headOf b).hops - 1))])) ∧
        ((headOf b).hops.toNat ≤ 1 → exec (.geyserFrame l b false) s = .next { s with gy := { s.gy with cntHops := s.gy.cntHops + 1 } })))) ∧
  (∀ (s : State) (l : BitVec 1) (count hops : BitVec 8), bit s.gy.lock l.toNat = true → s.gy.station ≠ 0xFE → 1 ≤ hops.toNat → s.EgressFree l.toNat → 64 ≤ (s.gy.lane l.toNat).linkGap → Answers (.enum l count hops) s fun t =>
    t.gy.station = (if count.toNat ≤ 31 then count else 0xFF) ∧ t.out = s.out ++ [.geyser l.toNat (enumFrame (satAdd count 1) (hops - 1))] ∧
    (t.gy.station ≠ s.gy.station → t.gy.sessions = []) ∧ (t.gy.station = s.gy.station → t.gy.sessions = s.gy.sessions) ∧ t.cmd = s.cmd) ∧
  (∀ (s : State) (id : BitVec 32) (u : Bool) (f : GyFlow), id ≠ 0 → s.gy.flow (.session id u) = some f → s.gy.duration = 0 → s.gy.waiting = 0 →
    (f.unacked ≠ [] → f.resends < 8 → Answers (.geyserResendTimeout id u) s fun t => (∀ x ∈ f.unacked, t.SentOrQueued x.2) ∧ t.gy.cntTx = s.gy.cntTx + BitVec.ofNat 48 f.unacked.length ∧
      t.gy.flow (.session id u) = some { f with resends := f.resends + 1, since := t.bnd.timebase }) ∧
    (f.unacked ≠ [] → 8 ≤ f.resends → Answers (.geyserResendTimeout id u) s fun t => t.gy.session id = none ∧ t.out = s.out ∧
      ∀ j, j ≠ id → t.gy.session j = s.gy.session j) ∧
    (f.unacked = [] → exec (.geyserResendTimeout id u) s = .next s) ∧
    (f.ackDue = true → Answers (.ackOnlySend id u) s fun t => t.gy.flow (.session id u) = some { f with ackDue := false } ∧
      ∃ fr, t.SentOrQueued fr ∧ fr.length = 256 ∧ (headOf fr).ackOnly = true ∧ (headOf fr).ack = BitVec.ofNat 64 f.got) ∧
    (f.ackDue = false → exec (.ackOnlySend id u) s = .next s)) ∧
  (∀ (s : State) (l : BitVec 1) (b : List Byte), s.CanReply .hello → s.gy.hello.unacked = [] → s.gy.hello.asm = 0 → s.stewardRuns = true → bit s.gy.lock l.toNat = true → frameOk b = true →
    let h := headOf b
    h.cls = 1 → h.src = 0xFE → h.dst = s.gy.station → s.gy.station ≠ 0xFE → s.gy.station ≠ 0xFF → h.session = 0 → h.ackOnly = false → h.last = true → h.seq.toNat = s.gy.hello.got + 1 →
      h.msgBytes.toNat = frameBytes b →
      (gyType h.type.toNat = false → Answers (.geyserFrame l b false) s fun t => s.Replied t .hello h.type 0x0F01 []) ∧
      (gyType h.type.toNat = true → h.type ≠ 1 → Answers (.geyserFrame l b false) s fun t => s.Replied t .hello h.type 0x0F02 []))

/-- GY_HELLO with an accepted chain, room and a free holder leaves one more pending handshake, its holder filled for owner 64; a malformed one is answered 0x0F01. GY_FINISH in time with both signatures, a valid peer key and two good blobs opens a session with two filled slots and clears the holder; a bad signature is answered 0x0F04 in the pending session; one that names no pending session ends the oldest and clears its holder (log entry 34). An expired challenge clears its holder. In an open session: register reads and writes act as class O and are answered; a command goes into a free slot of queue 68; a report request is queued; log entries are answered (answers: where no frame waits for a lane); GY_FI is set; GY_CLOSE ends the session; a body of one byte is answered 0x0F01. Without the session nothing changes. A session end erases both slots. GY_FI is written by K, S and O; DURATION falls by 1 a second. (R687, R688, R689, R690, R691, R693, R694, R695, R697, R698) -/
def Obligations.OperatorSessionsAndRequests : Prop :=
  (∀ (s : State) (b : List Byte), s.stewardRuns = true →
    (b.length < 64 → s.CanReply .hello → Answers (.gyHello b) s fun t => s.Replied t .hello 0x01 0x0F01 [] ∧ t.gy.shakes = s.gy.shakes) ∧
    (∀ leaf, 64 ≤ b.length → leNat (sub b 32 4) = b.length - 64 → sub b 36 28 = zeros 28 →
      let certs := derSplit 6 (b.drop 64)
      2 ≤ certs.length → certs.length ≤ 5 → operatorChain certs = some (leaf, s.authoriser) → s.skn.drbgReady 0 = true → s.gy.waiting = 0 → s.gy.shakes.length < 2 → s.gy.sessions.length < 4 → s.freeHolders 64 ≠ [] →
      Answers (.gyHello b) s fun t => ∃ x, t.gy.shakes = s.gy.shakes ++ [x] ∧ x.leafP384 = leaf.pubP ∧ x.leafMldsa = leaf.pubM ∧ x.ski = leaf.ski ∧ x.time = s.bnd.timebase ∧
        t.holderFull x.holder 64 = true ∧ t.gy.sessions = s.gy.sessions ∧ t.cmd = s.cmd) ∧
    (∀ x, b.length = 6511 → s.gy.shakes.find? (fun x => leBytes 4 x.id = sub b 0 4) = some x → s.now ≤ x.time.toNat + 10000000000 → s.gy.session x.id = none →
      let h2 := sha384 (x.h1 ++ sub b 0 1788)
      let sound := p384.verify (number (sub x.leafP384 0 48), number (sub x.leafP384 48 48)) (number (sub b 1788 48)) (number (sub b 1836 48)) h2 = true ∧
        mldsaVerify 3 x.leafMldsa (mldsaMu x.leafMldsa h2) (sub b 1884 4627) = true
      let k : PkeHolder := SMap.get {} s.pke.holders x.holder
      let peer := (number (sub b 1572 48), number (sub b 1620 48))
      (¬ sound → s.CanReply (.session x.id false) → Answers (.gyFinish b) s fun t => s.Replied t (.session x.id false) 0x03 0x0F04 [] ∧ t.gy.sessions = s.gy.sessions) ∧
      (∀ q k0 k1, sound → s.skn.drbgReady 0 = true → s.gy.waiting = 0 → p384.onCurve peer.1 peer.2 = true → peer.1 < p384.p → peer.2 < p384.p → p384.mul k.scalar (some peer) = some q →
        let kek : Key256 := ofLeBytes 256 (derive (fitBytes 32 (mlkemDecaps 5 k.dz (sub b 4 1568))) "kem" (octets 48 q.1) h2 32)
        let blob (r : Nat) := sub b (1668 + 60 * r) 60
        let opened (r : Nat) := gcmOpen kek ((blob r).take 12) (h2 ++ [BitVec.ofNat 8 r]) (sub (blob r) 12 32) (ofLeBytes 128 ((blob r).drop 44))
        opened 0 = some k0 → opened 1 = some k1 → 5 ≤ ((List.range' 64 192).filter fun i => ¬ (s.skn.slot i).valid ∧ ¬ (s.skn.slot i).erasing).length →
        Answers (.gyFinish b) s fun t => t.gy.sessions.length = s.gy.sessions.length + 1 ∧ (∀ y ∈ t.gy.shakes, y.id ≠ x.id) ∧ t.holderFull x.holder 64 = false ∧
          ∃ y, t.gy.session x.id = some y ∧ y.ski = x.ski ∧ (t.skn.slot y.slot0).bytes = fitBytes 32 k0 ∧ (t.skn.slot y.slot1).bytes = fitBytes 32 k1)) ∧
    (∀ x l, b.length = 6511 → s.gy.shakes.find? (fun x => leBytes 4 x.id = sub b 0 4) = none → s.gy.shakes = x :: l → s.gy.session x.id = none →
      Answers (.gyFinish b) s fun t => (∀ y ∈ t.gy.shakes, y.id ≠ x.id) ∧ SMap.get {} t.pke.holders x.holder = {} ∧ t.gy.sessions = s.gy.sessions)) ∧
  (∀ (s : State) (id : BitVec 32),
    (∀ x, s.gy.shakes.find? (fun x => x.id = id) = some x → Answers (.gyChallengeExpire id) s fun t => (∀ y ∈ t.gy.shakes, y.id ≠ id) ∧ SMap.get {} t.pke.holders x.holder = {}) ∧
    (∀ x, s.gy.session id = some x → Answers (.gySessionIdleTimeout id) s fun t => t.gy.session id = none ∧ (t.skn.slot x.slot0).valid = false ∧
      (t.skn.slot x.slot1).valid = false ∧ ∀ j, j ≠ id → t.gy.session j = s.gy.session j) ∧
    (s.gy.session id = none → exec (.gySessionIdleTimeout id) s = .next s)) ∧
  (∀ (s : State) (id : BitVec 32) (b : List Byte), s.stewardRuns = false ∨ s.gy.session id = none →
    ∀ i ∈ [Instr.gyRegRead id b, .gyRegWrite id b, .gyCmd id b, .gyReport id b, .gyLog id b, .gyFiSet id b, .gyClose id b], exec i s = .next s) ∧
  (∀ (s : State) (id : BitVec 32) (b : List Byte) (x : GySession), s.stewardRuns = true → s.gy.session id = some x →
    let e : GyEnd := .session id false
    let off := leNat (sub b 0 8)
    let w := leNat (sub b 8 1)
    (s.CanReply e →
      (b.length = 1 → ∀ it ∈ [(Instr.gyRegRead id b, (0x10 : BitVec 16)), (.gyRegWrite id b, 0x11), (.gyCmd id b, 0x12), (.gyReport id b, 0x13), (.gyLog id b, 0x14),
          (.gyFiSet id b, 0x15), (.gyClose id b, 0x16)], Answers it.1 s fun t => s.Replied t e it.2 0x0F01 []) ∧
      (gyRegForm b 16 = true → (regRead s .O off w).1 = s → Answers (.gyRegRead id b) s fun t => s.Replied t e 0x10 0 (fitBytes 8 (regRead s .O off w).2)) ∧
      (b.length = 64 → (∀ i, i < 16 → s.cmd.held 68 i = true) → Answers (.gyCmd id b) s fun t => s.Replied t e 0x12 0x0F06 [] ∧ t.cmd = s.cmd) ∧
      (b.length = 8 → 1 ≤ leNat (sub b 4 4) → leNat (sub b 4 4) ≤ 4095 →
        let body := (List.range (leNat (sub b 4 4))).flatMap fun i => (SMap.get {} s.snt.ring ((leNat (sub b 0 4) + i) % sntSize)).bytes
        4 + body.length ≤ 4096 → Answers (.gyLog id b) s fun t => s.Replied t e 0x14 0 body ∧ t.snt = s.snt)) ∧
    (gyRegForm b 24 = true → (regWrite s .O off (sub b 16 w) true).CanReply e → Answers (.gyRegWrite id b) s fun t =>
      let s' := regWrite s .O off (sub b 16 w) true
      s'.Replied t e 0x11 0 [] ∧ t = { s' with gy := t.gy, out := t.out, freeCount := t.freeCount }) ∧
    (b.length = 64 → (∃ i, i < 16 ∧ s.cmd.held 68 i = false) → Answers (.gyCmd id b) s fun t => ∃ i, i < 16 ∧ s.cmd.held 68 i = false ∧
      (t.cmd.queue 68).order = (s.cmd.queue 68).order ++ [i] ∧ t.cmd.slot 68 i = ofLeBytes 512 b ∧ t.gy.waits = s.gy.waits ++ [{ session := id, slot := i }] ∧ t.out = s.out) ∧
    (b.length = 64 → sub b 48 12 = zeros 12 → exec (.gyReport id b) s = .next { s with gy := { s.gy with reports := s.gy.reports ++ [{ session := id, request := b }] } }) ∧
    (b.length = 8 → (field (ofLeBytes 64 b) 48 16).toNat ≤ 3600 → Answers (.gyFiSet id b) s fun t => t.gy.fi = (if field (ofLeBytes 64 b) 48 16 = 0 then 0 else ofLeBytes 64 b &&& 0xFFFF0007FFFFFFFF) ∧ t.gov = s.gov ∧ t.cmd = s.cmd) ∧
    (b = [] → s.gy.waiting = 0 → Answers (.gyClose id b) s fun t => t.gy.session id = none ∧ (t.skn.slot x.slot0).valid = false ∧ (t.skn.slot x.slot1).valid = false ∧
      ∀ j, j ≠ id → t.gy.session j = s.gy.session j)) ∧
  (∀ (s : State) (v : W64), (∀ c, c = .K ∨ c = .S ∨ c = .O → (field v 48 16).toNat ≤ 3600 → Answers (.gyFiWrite c v) s fun t =>
      t.gy = { s.gy with fi := if field v 48 16 = 0 then 0 else v &&& 0xFFFF0007FFFFFFFF, fiSecond := s.now / 1000000000, lfsr := if s.gy.fiSeed = 0 then 1 else s.gy.fiSeed } ∧ t.out = s.out) ∧
    (∀ c, c ≠ .K → c ≠ .S → c ≠ .O → exec (.gyFiWrite c v) s = .next s)) ∧
  (∀ s : State, (0 < s.gy.duration → Answers .gyFiSecond s fun t => t.gy.duration + 1 = s.gy.duration ∧ (s.gy.duration = 1 → t.gy.fi = 0)) ∧
    (s.gy.duration = 0 → exec .gyFiSecond s = .next s))

/-- In an open session: UPD_BEGIN opens an upload when its checks pass and answers the failing one otherwise; UPD_DATA at the right offset is programmed and counted, a wrong offset changes nothing, excess data and a failing flash abandon the upload; UPD_END of a short upload abandons it, of a whole one commits STAGED, and answers 0x0A04 where the header does not read back; UPD_DISCARD abandons the open upload of the kind; UPD_ACTIVATE answers and schedules the restart, or is refused while READY is 0; UPD_FLOOR is refused for an image that has not reached READY since the last cold reset and beyond the running SVN, and else loses no fuse and answers the counter; UPD_STATUS answers 400 bytes. ACTIVATE by Keeper at READY begins a warm reset with cause 4. In ROM recovery the four REC requests act likewise, and a verified image ends recovery at CO3; outside it they change nothing. (R454, R701, R702, R703, R704, R705, R707, R708, R709, R710) -/
def Obligations.FirmwareUpdateAndRecovery : Prop :=
  (∀ (s : State) (id : BitVec 32) (b : List Byte), s.stewardRuns = true → (s.gy.session id).isSome = true → s.CanReply (.session id true) →
    let e : GyEnd := .session id true
    let k := leNat (sub b 0 1)
    (beginForm b = true → s.bnd.ready = true →
      (uploadCheck s b false = none → Answers (.updBegin id b) s fun t => s.Replied t e 0x20 0 [] ∧
        t.gy.upload = some { kind := BitVec.ofNat 2 k, bytes := leNat (sub b 4 4), sdigest := sub b 8 48, session := some id } ∧ t.fl = s.fl) ∧
      (∀ st, uploadCheck s b false = some st → Answers (.updBegin id b) s fun t => s.Replied t e 0x20 st [] ∧ t.gy.upload = s.gy.upload)) ∧
    (∀ u, s.gy.upload = some u → u.session = some id →
      let a := (stageRegion u.kind.toNat).1 + u.received
      let n := b.length - 8
      (9 ≤ b.length → n ≤ 131064 → ∀ flash,
        (leNat (sub b 0 8) ≠ u.received → Answers (.updData id b flash) s fun t => s.Replied t e 0x21 0x0F14 [] ∧ t.gy.upload = some u ∧ t.fl = s.fl) ∧
        (leNat (sub b 0 8) = u.received → u.bytes < u.received + n → Answers (.updData id b flash) s fun t => s.Replied t e 0x21 St.lengthLong [] ∧ t.gy.upload = none ∧ t.fl = s.fl) ∧
        (leNat (sub b 0 8) = u.received → u.received + n ≤ u.bytes → s.flashTakes false a n = true →
          (flash = true → Answers (.updData id b flash) s fun t => s.Replied t e 0x21 0 (leBytes 8 (BitVec.ofNat 64 (u.received + n))) ∧
            t.gy.upload = some { u with received := u.received + n }) ∧
          (flash = false → Answers (.updData id b flash) s fun t => s.Replied t e 0x21 0x0F18 [] ∧ t.gy.upload = none))) ∧
      (b = [] → (u.received < u.bytes → ∀ torn, Answers (.updEnd id { bytes := b, torn := torn }) s fun t => s.Replied t e 0x22 St.lengthShort [] ∧ t.gy.upload = none ∧ t.fl = s.fl) ∧
        (∀ torn, uploadDone s u (stageRegion u.kind.toNat).1 = none → s.bnd.pwrWarn = false →
          let c := s.commitHeader u.kind.toNat { s.fl.hdrKind u.kind.toNat with state := 1, bytes := u.bytes, sdigest := u.sdigest } torn
          Answers (.updEnd id { bytes := b, torn := torn }) s fun t => s.Replied t e 0x22 (if c.2 then 0 else 0x0A04) [] ∧ t.gy.upload = none ∧ t.fl = c.1.fl)) ∧
      (b.length = 1 → k = u.kind.toNat → k ≤ 2 → Answers (.updDiscard id b) s fun t => s.Replied t e 0x23 0 [] ∧ t.gy.upload = none ∧ t.fl = s.fl)) ∧
    (b = [] → s.gy.upload = none →
      (s.bnd.ready = true → Answers (.updActivate id b) s fun t => s.Replied t e 0x24 0 (leBytes 8 s.bnd.timebase) ∧ t.gy.activateAt = some s.bnd.timebase ∧ t.gy.activateBy = id) ∧
      (s.bnd.ready = false → Answers (.updActivate id b) s fun t => s.Replied t e 0x24 0x0F17 [] ∧ t.gy.activateAt = s.gy.activateAt)) ∧
    (b.length = 4 → sub b 1 1 = [0] → k ≤ 2 → ∀ burns,
      let v := leNat (sub b 2 2)
      let refused := (k, s.skn.runDigest k) ∉ s.bnd.readied ∨ (s.skn.runSvn k).toNat < v ∨ 256 < v
      (refused → Answers (.updFloor id b burns) s fun t => s.Replied t e 0x25 0x0A07 (leBytes 2 (BitVec.ofNat 16 (s.otp.counter k))) ∧ t.otp = s.otp) ∧
      (¬ refused → Answers (.updFloor id b burns) s fun t => s.otp.keeps t.otp ∧ ∃ st, s.Replied t e 0x25 st (leBytes 2 (BitVec.ofNat 16 (t.otp.counter k))) ∧
        (floorPrograms k (s.otp.counter k) v = [] → st = 0))) ∧
    (b = [] → Answers (.updStatus id b) s fun t => ∃ body, s.Replied t e 0x26 0 body ∧ body.length = 400 ∧ body.take 384 = [0, 1, 2].flatMap s.kindStatus)) ∧
  (∀ s : State, (s.bnd.ready = true → s.bnd.recovery = false → s.bnd.porN = true → s.bnd.everReady = true → Answers (.activate .K) s fun t =>
      t.bnd.lastReset = 4 ∧ t.bnd.coStage = 1 ∧ t.bnd.warmRunning = true ∧ t.bnd.ready = false ∧ t.gy.sessions = []) ∧
    (s.bnd.ready = false ∨ s.bnd.recovery = true → exec (.activate .K) s = .next s) ∧ ∀ c, c ≠ .K → exec (.activate c) s = .next s) ∧
  (∀ (s : State) (b : List Byte) (flash : Bool), s.bnd.recovery = false → ∀ i ∈ [Instr.recStatus b, .recBegin b, .recData b flash, .recEnd b], exec i s = .next s) ∧
  (∀ (s : State) (b : List Byte), s.bnd.recovery = true → s.CanReply .recovery →
    (b = [] → Answers (.recStatus b) s fun t => ∃ body, s.Replied t .recovery 0x30 0 body ∧ body.length = 432) ∧
    (beginForm b = true → uploadCheck s b true = none → Answers (.recBegin b) s fun t => s.Replied t .recovery 0x31 0 [] ∧
      t.gy.upload = some { kind := BitVec.ofNat 2 (leNat (sub b 0 1)), bytes := leNat (sub b 4 4), sdigest := sub b 8 48, session := none } ∧ t.fl = s.fl) ∧
    (∀ u, s.gy.upload = some u → u.session = none →
      let n := b.length - 8
      (9 ≤ b.length → n ≤ 131064 → leNat (sub b 0 8) = u.received → u.received + n ≤ u.bytes →
        s.flashTakes true ((imageRegion u.kind.toNat).1 + u.received) n = true → Answers (.recData b true) s fun t =>
          s.Replied t .recovery 0x32 0 (leBytes 8 (BitVec.ofNat 64 (u.received + n))) ∧ t.gy.upload = some { u with received := u.received + n }) ∧
      (b = [] → uploadDone s u (imageRegion u.kind.toNat).1 = none → s.verifies u.kind.toNat (s.fl.image (imageRegion u.kind.toNat)) (imageRegion u.kind.toNat).2 = true →
        s.bnd.pwrWarn = false → Answers (.recEnd b) s fun t => t.bnd.recovery = false ∧ t.bnd.coStage = 3 ∧ t.co.failedStarts = 0 ∧ t.gy.upload = none) ∧
      (b = [] → u.received < u.bytes → Answers (.recEnd b) s fun t => s.Replied t .recovery 0x33 St.lengthShort [] ∧ t.gy.upload = none ∧ t.bnd = s.bnd)))

/-- Whatever command stands in front of the queue, a next state of the step has every bit of the OTP array set that was set before, at MARGIN_HIGH, NORMAL and MARGIN_LOW; and where before every bit that reads 1 at a stricter reference also reads 1 at the laxer ones, it does so afterwards. That a burn keeps this order is the model's reading (log entry 19). (R367, R379, R392) -/
def Obligations.NoStepLosesAFuse : Prop :=
  ∀ s t : State, step s = .next t → s.otp.keeps t.otp ∧ (s.otp.margins → t.otp.margins)
end

