-- ==== Sys2Proof/Laws/Sparse.lean ====
section
/-! SUPPORT. Laws of sparse storage: a read after a write, and the canonical form. -/
namespace Sys2Proof.Machine

variable {α : Type}

@[simp] theorem SMap.get_nil (d : α) (k : Nat) : SMap.get d [] k = d := rfl

theorem SMap.get_put (d : α) (m : SMap α) (k j : Nat) (v : α) : SMap.get d (SMap.put m k v) j = if j = k then v else SMap.get d m j := by
  induction m with
  | nil => simp [SMap.put, SMap.get]
  | cons e m ih =>
    obtain ⟨i, u⟩ := e
    simp only [SMap.put]
    split
    · simp only [SMap.get]
    · split
      · subst_vars; simp only [SMap.get]; split <;> rfl
      · simp only [SMap.get, ih]
        by_cases h : j = i <;> by_cases h' : j = k <;> simp_all

theorem SMap.get_del (d : α) (m : SMap α) (k j : Nat) : SMap.get d (SMap.del m k) j = if j = k then d else SMap.get d m j := by
  induction m with
  | nil => simp [SMap.del, SMap.get]
  | cons e m ih =>
    obtain ⟨i, u⟩ := e
    simp only [SMap.del, List.filter] at ih ⊢
    by_cases hi : i = k
    · simp only [hi, ne_eq, not_true_eq_false, decide_false, ih, SMap.get]; split <;> rfl
    · simp only [ne_eq, hi, not_false_eq_true, decide_true, SMap.get, ih]
      by_cases h : j = i
      · have : j ≠ k := by omega
        simp_all
      · simp [h]

variable [DecidableEq α]

/-- A read after a write. -/
theorem SMap.get_set (d : α) (m : SMap α) (k j : Nat) (v : α) : SMap.get d (SMap.set d m k v) j = if j = k then v else SMap.get d m j := by
  unfold SMap.set
  split
  · rw [SMap.get_del]; simp_all
  · exact SMap.get_put d m k j v

/-- A read gives the value just written. -/
@[simp] theorem SMap.get_set_self (d : α) (m : SMap α) (k : Nat) (v : α) : SMap.get d (SMap.set d m k v) k = v := by simp [SMap.get_set]

/-- A write leaves every other key alone. -/
theorem SMap.get_set_ne (d : α) (m : SMap α) {k j : Nat} (v : α) (h : j ≠ k) : SMap.get d (SMap.set d m k v) j = SMap.get d m j := by
  simp [SMap.get_set, h]

theorem SMap.wfFrom_filter (d : α) (p : Nat × α → Bool) (m : SMap α) (lo : Option Nat) (h : SMap.wfFrom d lo m = true) :
    SMap.wfFrom d lo (m.filter p) = true := by
  induction m generalizing lo with
  | nil => rfl
  | cons e m ih =>
    obtain ⟨i, u⟩ := e
    simp only [SMap.wfFrom, Bool.and_eq_true] at h
    obtain ⟨⟨hl, hu⟩, hm⟩ := h
    rw [List.filter_cons]
    split
    · simp only [SMap.wfFrom, Bool.and_eq_true]; exact ⟨⟨hl, hu⟩, ih _ hm⟩
    · apply ih
      cases m with
      | nil => rfl
      | cons f m =>
        obtain ⟨j, w⟩ := f
        simp only [SMap.wfFrom, Bool.and_eq_true, decide_eq_true_eq] at hm ⊢
        refine ⟨⟨?_, hm.1.2⟩, hm.2⟩
        cases lo with
        | none => rfl
        | some l => simp only [decide_eq_true_eq] at hl ⊢; omega

theorem SMap.wfFrom_put (d : α) (m : SMap α) (k : Nat) (v : α) (lo : Option Nat) (hv : v ≠ d)
    (hk : match lo with | none => True | some l => l < k) (h : SMap.wfFrom d lo m = true) : SMap.wfFrom d lo (SMap.put m k v) = true := by
  induction m generalizing lo with
  | nil => cases lo <;> simp_all [SMap.put, SMap.wfFrom]
  | cons e m ih =>
    obtain ⟨i, u⟩ := e
    simp only [SMap.wfFrom, Bool.and_eq_true, decide_eq_true_eq] at h
    obtain ⟨⟨hl, hu⟩, hm⟩ := h
    simp only [SMap.put]
    split
    · rename_i hki
      simp only [SMap.wfFrom, Bool.and_eq_true, decide_eq_true_eq]
      refine ⟨⟨?_, hv⟩, ⟨hki, hu⟩, hm⟩
      cases lo <;> simp_all
    · split
      · subst_vars
        simp only [SMap.wfFrom, Bool.and_eq_true, decide_eq_true_eq]
        exact ⟨⟨hl, hv⟩, hm⟩
      · simp only [SMap.wfFrom, Bool.and_eq_true, decide_eq_true_eq]
        exact ⟨⟨hl, hu⟩, ih (some i) (by simp only; omega) hm⟩

/-- A write keeps the canonical form. -/
theorem SMap.wf_set (d : α) (m : SMap α) (k : Nat) (v : α) (h : SMap.wf d m = true) : SMap.wf d (SMap.set d m k v) = true := by
  unfold SMap.set
  split
  · exact SMap.wfFrom_filter d _ m none h
  · rename_i hv
    exact SMap.wfFrom_put d m k v none hv trivial h

/-- Writing bytes keeps the canonical form. -/
theorem Mem.wf_write (d : Byte) (bs : List Byte) (m : Mem) (a : Nat) (h : Memory.wf d m = true) : Memory.wf d (Mem.write d m a bs) = true := by
  induction bs generalizing m a with
  | nil => exact h
  | cons b bs ih => exact ih _ _ (SMap.wf_set d m a b h)

/-- A byte outside a write reads as before. -/
theorem Mem.get_write_out (d : Byte) (bs : List Byte) (m : Mem) (a i : Nat) (h : i < a ∨ a + bs.length ≤ i) :
    SMap.get d (Mem.write d m a bs) i = SMap.get d m i := by
  induction bs generalizing m a with
  | nil => rfl
  | cons b bs ih =>
    simp only [Mem.write, List.length_cons] at h ⊢
    rw [ih _ (a + 1) (by omega), SMap.get_set_ne d m b (by omega)]

/-- A byte inside a write reads as written. -/
theorem Mem.get_write_in (d : Byte) (bs : List Byte) (m : Mem) (a i : Nat) (h : i < bs.length) :
    SMap.get d (Mem.write d m a bs) (a + i) = bs[i] := by
  induction bs generalizing m a i with
  | nil => simp at h
  | cons b bs ih =>
    cases i with
    | zero => simp only [Mem.write, Nat.add_zero]; rw [Mem.get_write_out d bs _ (a + 1) a (by omega)]; simp
    | succ i =>
      simp only [Mem.write, List.length_cons, List.getElem_cons_succ] at h ⊢
      rw [show a + (i + 1) = a + 1 + i by omega]; exact ih _ _ _ (by omega)

end Sys2Proof.Machine
end

