-- ==== Sys2Proof/Laws/Egress.lean ====
section
/-! SUPPORT. What the Geyser egress can change (R682, R684): the lanes and the queues of own frames, and nothing else of the port. -/
namespace Sys2Proof.Machine

theorem Gy.lane_setLane (g : Gy) (l k : Nat) (x : GyLane) : (g.setLane l x).lane k = if k = l then x else g.lane k := by
  simp [Gy.setLane, Gy.lane, SMap.get_set]
@[simp] theorem Gy.lane_setLane_self (g : Gy) (l : Nat) (x : GyLane) : (g.setLane l x).lane l = x := by simp [Gy.lane_setLane]
@[simp] theorem Gy.ownOf_setLane (g : Gy) (l k : Nat) (x : GyLane) : (g.setLane l x).ownOf k = g.ownOf k := rfl
@[simp] theorem Gy.lane_originate (g : Gy) (cls l : Nat) (e : GyEntry) : (g.originate cls e).lane l = g.lane l := rfl

/-- `h` is `g` but for its egress. -/
def Gy.EgressOf (g h : Gy) : Prop := ∃ l q, h = { g with lanes := l, ownQ := q }

theorem Gy.EgressOf.refl (g : Gy) : g.EgressOf g := ⟨g.lanes, g.ownQ, rfl⟩
theorem Gy.EgressOf.trans {g h k : Gy} (a : g.EgressOf h) (b : h.EgressOf k) : g.EgressOf k := by
  obtain ⟨_, _, rfl⟩ := a
  obtain ⟨l, q, rfl⟩ := b
  exact ⟨l, q, rfl⟩
theorem Gy.EgressOf.setLane (g : Gy) (l : Nat) (x : GyLane) : g.EgressOf (g.setLane l x) := ⟨_, g.ownQ, rfl⟩
theorem Gy.EgressOf.forward (g : Gy) (l cls : Nat) (e : GyEntry) : g.EgressOf (g.forward l cls e) := .setLane ..
theorem Gy.EgressOf.originate (g : Gy) (cls : Nat) (e : GyEntry) : g.EgressOf (g.originate cls e) := ⟨g.lanes, _, rfl⟩

theorem Gy.EgressOf.groupHead {g h : Gy} {l k : Nat} {e : GyEntry} (hh : g.groupHead l k = some (e, h)) : g.EgressOf h := by
  simp only [Gy.groupHead] at hh
  (repeat' split at hh) <;> cases hh <;> exact ⟨_, _, rfl⟩

theorem Gy.EgressOf.begins (g : Gy) (l : Nat) (e : GyEntry) : g.EgressOf (g.begins l e) := .setLane ..

theorem Gy.EgressOf.round {n l : Nat} {g h : Gy} {e : GyEntry} (hh : g.round n l = some (e, h)) : g.EgressOf h := by
  induction n generalizing g with
  | zero => cases hh
  | succ n ih =>
    simp only [Gy.round] at hh
    split at hh
    · exact .trans (.setLane ..) (ih hh)
    · next hg =>
      (repeat' split at hh) <;> first | exact .trans (.setLane ..) (ih hh) | (cases hh; exact .trans (.groupHead hg) (.setLane ..))

theorem Gy.EgressOf.laneNext {g h : Gy} {l : Nat} {e : GyEntry} (hh : g.laneNext l = some (e, h)) : g.EgressOf h := by
  simp only [Gy.laneNext] at hh
  split at hh
  · cases hh
  · split at hh
    · cases hh; exact .trans (.setLane ..) (.begins ..)
    · obtain ⟨⟨e', g'⟩, hr, hh⟩ := Option.map_eq_some_iff.mp hh
      cases hh
      exact .trans (.round hr) (.begins ..)

/-- Sending what the lanes have room for changes the egress alone. -/
theorem Gy.EgressOf.pump (n : Nat) (g : Gy) (sent : List (Nat × GyEntry)) : g.EgressOf (g.pump n sent).2 := by
  induction n generalizing g sent with
  | zero => exact .refl g
  | succ n ih =>
    simp only [Gy.pump]
    split
    · next h => exact .trans (.laneNext h) (ih ..)
    · split
      · next h => exact .trans (.laneNext h) (ih ..)
      · exact .refl g

end Sys2Proof.Machine
end

