-- ==== Sys2Proof/Laws/State.lean ====
section
/-! SUPPORT. What each update of one part of the state leaves alone: one lemma per field and update, so that no proof unfolds a record. -/
namespace Sys2Proof.Machine

@[simp] theorem State.setAtt_pending (s : State) (x : Att) : (s.setAtt x).pending = s.pending := rfl
@[simp] theorem State.setAtt_out (s : State) (x : Att) : (s.setAtt x).out = s.out := rfl
@[simp] theorem State.setAtt_freeCount (s : State) (x : Att) : (s.setAtt x).freeCount = s.freeCount := rfl
@[simp] theorem State.setAtt_own (s : State) (x : Att) : (s.setAtt x).own = s.own := rfl
@[simp] theorem State.setAtt_bnd (s : State) (x : Att) : (s.setAtt x).bnd = s.bnd := rfl
@[simp] theorem State.setAtt_cmd (s : State) (x : Att) : (s.setAtt x).cmd = s.cmd := rfl
@[simp] theorem State.setAtt_parts (s : State) (x : Att) : (s.setAtt x).parts = s.parts := rfl
@[simp] theorem State.setAtt_vent (s : State) (x : Att) : (s.setAtt x).vent = s.vent := rfl
@[simp] theorem State.setAtt_snt (s : State) (x : Att) : (s.setAtt x).snt = s.snt := rfl
@[simp] theorem State.setAtt_fum (s : State) (x : Att) : (s.setAtt x).fum = s.fum := rfl
@[simp] theorem State.setAtt_guard (s : State) (x : Att) : (s.setAtt x).guard = s.guard := rfl
@[simp] theorem State.setAtt_skn (s : State) (x : Att) : (s.setAtt x).skn = s.skn := rfl
@[simp] theorem State.setAtt_otp (s : State) (x : Att) : (s.setAtt x).otp = s.otp := rfl
@[simp] theorem State.setAtt_lc (s : State) (x : Att) : (s.setAtt x).lc = s.lc := rfl
@[simp] theorem State.setAtt_host (s : State) (x : Att) : (s.setAtt x).host = s.host := rfl
@[simp] theorem State.setAtt_wg (s : State) (x : Att) : (s.setAtt x).wg = s.wg := rfl
@[simp] theorem State.setAtt_fl (s : State) (x : Att) : (s.setAtt x).fl = s.fl := rfl
@[simp] theorem State.setAtt_att (s : State) (x : Att) : (s.setAtt x).att = x := rfl
@[simp] theorem State.setAtt_dig (s : State) (x : Att) : (s.setAtt x).dig = s.dig := rfl
@[simp] theorem State.setAtt_pke (s : State) (x : Att) : (s.setAtt x).pke = s.pke := rfl
@[simp] theorem State.setAtt_lnk (s : State) (x : Att) : (s.setAtt x).lnk = s.lnk := rfl
@[simp] theorem State.setAtt_co (s : State) (x : Att) : (s.setAtt x).co = s.co := rfl
@[simp] theorem State.setAtt_re (s : State) (x : Att) : (s.setAtt x).re = s.re := rfl
@[simp] theorem State.setAtt_gov (s : State) (x : Att) : (s.setAtt x).gov = s.gov := rfl
@[simp] theorem State.setAtt_gy (s : State) (x : Att) : (s.setAtt x).gy = s.gy := rfl

@[simp] theorem State.setCo_pending (s : State) (x : Co) : (s.setCo x).pending = s.pending := rfl
@[simp] theorem State.setCo_out (s : State) (x : Co) : (s.setCo x).out = s.out := rfl
@[simp] theorem State.setCo_freeCount (s : State) (x : Co) : (s.setCo x).freeCount = s.freeCount := rfl
@[simp] theorem State.setCo_own (s : State) (x : Co) : (s.setCo x).own = s.own := rfl
@[simp] theorem State.setCo_bnd (s : State) (x : Co) : (s.setCo x).bnd = s.bnd := rfl
@[simp] theorem State.setCo_cmd (s : State) (x : Co) : (s.setCo x).cmd = s.cmd := rfl
@[simp] theorem State.setCo_parts (s : State) (x : Co) : (s.setCo x).parts = s.parts := rfl
@[simp] theorem State.setCo_vent (s : State) (x : Co) : (s.setCo x).vent = s.vent := rfl
@[simp] theorem State.setCo_snt (s : State) (x : Co) : (s.setCo x).snt = s.snt := rfl
@[simp] theorem State.setCo_fum (s : State) (x : Co) : (s.setCo x).fum = s.fum := rfl
@[simp] theorem State.setCo_guard (s : State) (x : Co) : (s.setCo x).guard = s.guard := rfl
@[simp] theorem State.setCo_skn (s : State) (x : Co) : (s.setCo x).skn = s.skn := rfl
@[simp] theorem State.setCo_otp (s : State) (x : Co) : (s.setCo x).otp = s.otp := rfl
@[simp] theorem State.setCo_lc (s : State) (x : Co) : (s.setCo x).lc = s.lc := rfl
@[simp] theorem State.setCo_host (s : State) (x : Co) : (s.setCo x).host = s.host := rfl
@[simp] theorem State.setCo_wg (s : State) (x : Co) : (s.setCo x).wg = s.wg := rfl
@[simp] theorem State.setCo_fl (s : State) (x : Co) : (s.setCo x).fl = s.fl := rfl
@[simp] theorem State.setCo_att (s : State) (x : Co) : (s.setCo x).att = s.att := rfl
@[simp] theorem State.setCo_dig (s : State) (x : Co) : (s.setCo x).dig = s.dig := rfl
@[simp] theorem State.setCo_pke (s : State) (x : Co) : (s.setCo x).pke = s.pke := rfl
@[simp] theorem State.setCo_lnk (s : State) (x : Co) : (s.setCo x).lnk = s.lnk := rfl
@[simp] theorem State.setCo_co (s : State) (x : Co) : (s.setCo x).co = x := rfl
@[simp] theorem State.setCo_re (s : State) (x : Co) : (s.setCo x).re = s.re := rfl
@[simp] theorem State.setCo_gov (s : State) (x : Co) : (s.setCo x).gov = s.gov := rfl
@[simp] theorem State.setCo_gy (s : State) (x : Co) : (s.setCo x).gy = s.gy := rfl

@[simp] theorem State.setBnd_pending (s : State) (x : Bnd) : (s.setBnd x).pending = s.pending := rfl
@[simp] theorem State.setBnd_out (s : State) (x : Bnd) : (s.setBnd x).out = s.out := rfl
@[simp] theorem State.setBnd_freeCount (s : State) (x : Bnd) : (s.setBnd x).freeCount = s.freeCount := rfl
@[simp] theorem State.setBnd_own (s : State) (x : Bnd) : (s.setBnd x).own = s.own := rfl
@[simp] theorem State.setBnd_bnd (s : State) (x : Bnd) : (s.setBnd x).bnd = x := rfl
@[simp] theorem State.setBnd_cmd (s : State) (x : Bnd) : (s.setBnd x).cmd = s.cmd := rfl
@[simp] theorem State.setBnd_parts (s : State) (x : Bnd) : (s.setBnd x).parts = s.parts := rfl
@[simp] theorem State.setBnd_vent (s : State) (x : Bnd) : (s.setBnd x).vent = s.vent := rfl
@[simp] theorem State.setBnd_snt (s : State) (x : Bnd) : (s.setBnd x).snt = s.snt := rfl
@[simp] theorem State.setBnd_fum (s : State) (x : Bnd) : (s.setBnd x).fum = s.fum := rfl
@[simp] theorem State.setBnd_guard (s : State) (x : Bnd) : (s.setBnd x).guard = s.guard := rfl
@[simp] theorem State.setBnd_skn (s : State) (x : Bnd) : (s.setBnd x).skn = s.skn := rfl
@[simp] theorem State.setBnd_otp (s : State) (x : Bnd) : (s.setBnd x).otp = s.otp := rfl
@[simp] theorem State.setBnd_lc (s : State) (x : Bnd) : (s.setBnd x).lc = s.lc := rfl
@[simp] theorem State.setBnd_host (s : State) (x : Bnd) : (s.setBnd x).host = s.host := rfl
@[simp] theorem State.setBnd_wg (s : State) (x : Bnd) : (s.setBnd x).wg = s.wg := rfl
@[simp] theorem State.setBnd_fl (s : State) (x : Bnd) : (s.setBnd x).fl = s.fl := rfl
@[simp] theorem State.setBnd_att (s : State) (x : Bnd) : (s.setBnd x).att = s.att := rfl
@[simp] theorem State.setBnd_dig (s : State) (x : Bnd) : (s.setBnd x).dig = s.dig := rfl
@[simp] theorem State.setBnd_pke (s : State) (x : Bnd) : (s.setBnd x).pke = s.pke := rfl
@[simp] theorem State.setBnd_lnk (s : State) (x : Bnd) : (s.setBnd x).lnk = s.lnk := rfl
@[simp] theorem State.setBnd_co (s : State) (x : Bnd) : (s.setBnd x).co = s.co := rfl
@[simp] theorem State.setBnd_re (s : State) (x : Bnd) : (s.setBnd x).re = s.re := rfl
@[simp] theorem State.setBnd_gov (s : State) (x : Bnd) : (s.setBnd x).gov = s.gov := rfl
@[simp] theorem State.setBnd_gy (s : State) (x : Bnd) : (s.setBnd x).gy = s.gy := rfl

@[simp] theorem State.setFl_pending (s : State) (x : Flash) : (s.setFl x).pending = s.pending := rfl
@[simp] theorem State.setFl_out (s : State) (x : Flash) : (s.setFl x).out = s.out := rfl
@[simp] theorem State.setFl_freeCount (s : State) (x : Flash) : (s.setFl x).freeCount = s.freeCount := rfl
@[simp] theorem State.setFl_own (s : State) (x : Flash) : (s.setFl x).own = s.own := rfl
@[simp] theorem State.setFl_bnd (s : State) (x : Flash) : (s.setFl x).bnd = s.bnd := rfl
@[simp] theorem State.setFl_cmd (s : State) (x : Flash) : (s.setFl x).cmd = s.cmd := rfl
@[simp] theorem State.setFl_parts (s : State) (x : Flash) : (s.setFl x).parts = s.parts := rfl
@[simp] theorem State.setFl_vent (s : State) (x : Flash) : (s.setFl x).vent = s.vent := rfl
@[simp] theorem State.setFl_snt (s : State) (x : Flash) : (s.setFl x).snt = s.snt := rfl
@[simp] theorem State.setFl_fum (s : State) (x : Flash) : (s.setFl x).fum = s.fum := rfl
@[simp] theorem State.setFl_guard (s : State) (x : Flash) : (s.setFl x).guard = s.guard := rfl
@[simp] theorem State.setFl_skn (s : State) (x : Flash) : (s.setFl x).skn = s.skn := rfl
@[simp] theorem State.setFl_otp (s : State) (x : Flash) : (s.setFl x).otp = s.otp := rfl
@[simp] theorem State.setFl_lc (s : State) (x : Flash) : (s.setFl x).lc = s.lc := rfl
@[simp] theorem State.setFl_host (s : State) (x : Flash) : (s.setFl x).host = s.host := rfl
@[simp] theorem State.setFl_wg (s : State) (x : Flash) : (s.setFl x).wg = s.wg := rfl
@[simp] theorem State.setFl_fl (s : State) (x : Flash) : (s.setFl x).fl = x := rfl
@[simp] theorem State.setFl_att (s : State) (x : Flash) : (s.setFl x).att = s.att := rfl
@[simp] theorem State.setFl_dig (s : State) (x : Flash) : (s.setFl x).dig = s.dig := rfl
@[simp] theorem State.setFl_pke (s : State) (x : Flash) : (s.setFl x).pke = s.pke := rfl
@[simp] theorem State.setFl_lnk (s : State) (x : Flash) : (s.setFl x).lnk = s.lnk := rfl
@[simp] theorem State.setFl_co (s : State) (x : Flash) : (s.setFl x).co = s.co := rfl
@[simp] theorem State.setFl_re (s : State) (x : Flash) : (s.setFl x).re = s.re := rfl
@[simp] theorem State.setFl_gov (s : State) (x : Flash) : (s.setFl x).gov = s.gov := rfl
@[simp] theorem State.setFl_gy (s : State) (x : Flash) : (s.setFl x).gy = s.gy := rfl

@[simp] theorem State.setFum_pending (s : State) (x : Fum) : (s.setFum x).pending = s.pending := rfl
@[simp] theorem State.setFum_out (s : State) (x : Fum) : (s.setFum x).out = s.out := rfl
@[simp] theorem State.setFum_freeCount (s : State) (x : Fum) : (s.setFum x).freeCount = s.freeCount := rfl
@[simp] theorem State.setFum_own (s : State) (x : Fum) : (s.setFum x).own = s.own := rfl
@[simp] theorem State.setFum_bnd (s : State) (x : Fum) : (s.setFum x).bnd = s.bnd := rfl
@[simp] theorem State.setFum_cmd (s : State) (x : Fum) : (s.setFum x).cmd = s.cmd := rfl
@[simp] theorem State.setFum_parts (s : State) (x : Fum) : (s.setFum x).parts = s.parts := rfl
@[simp] theorem State.setFum_vent (s : State) (x : Fum) : (s.setFum x).vent = s.vent := rfl
@[simp] theorem State.setFum_snt (s : State) (x : Fum) : (s.setFum x).snt = s.snt := rfl
@[simp] theorem State.setFum_fum (s : State) (x : Fum) : (s.setFum x).fum = x := rfl
@[simp] theorem State.setFum_guard (s : State) (x : Fum) : (s.setFum x).guard = s.guard := rfl
@[simp] theorem State.setFum_skn (s : State) (x : Fum) : (s.setFum x).skn = s.skn := rfl
@[simp] theorem State.setFum_otp (s : State) (x : Fum) : (s.setFum x).otp = s.otp := rfl
@[simp] theorem State.setFum_lc (s : State) (x : Fum) : (s.setFum x).lc = s.lc := rfl
@[simp] theorem State.setFum_host (s : State) (x : Fum) : (s.setFum x).host = s.host := rfl
@[simp] theorem State.setFum_wg (s : State) (x : Fum) : (s.setFum x).wg = s.wg := rfl
@[simp] theorem State.setFum_fl (s : State) (x : Fum) : (s.setFum x).fl = s.fl := rfl
@[simp] theorem State.setFum_att (s : State) (x : Fum) : (s.setFum x).att = s.att := rfl
@[simp] theorem State.setFum_dig (s : State) (x : Fum) : (s.setFum x).dig = s.dig := rfl
@[simp] theorem State.setFum_pke (s : State) (x : Fum) : (s.setFum x).pke = s.pke := rfl
@[simp] theorem State.setFum_lnk (s : State) (x : Fum) : (s.setFum x).lnk = s.lnk := rfl
@[simp] theorem State.setFum_co (s : State) (x : Fum) : (s.setFum x).co = s.co := rfl
@[simp] theorem State.setFum_re (s : State) (x : Fum) : (s.setFum x).re = s.re := rfl
@[simp] theorem State.setFum_gov (s : State) (x : Fum) : (s.setFum x).gov = s.gov := rfl
@[simp] theorem State.setFum_gy (s : State) (x : Fum) : (s.setFum x).gy = s.gy := rfl

@[simp] theorem State.setGy_pending (s : State) (x : Gy) : (s.setGy x).pending = s.pending := rfl
@[simp] theorem State.setGy_out (s : State) (x : Gy) : (s.setGy x).out = s.out := rfl
@[simp] theorem State.setGy_freeCount (s : State) (x : Gy) : (s.setGy x).freeCount = s.freeCount := rfl
@[simp] theorem State.setGy_own (s : State) (x : Gy) : (s.setGy x).own = s.own := rfl
@[simp] theorem State.setGy_bnd (s : State) (x : Gy) : (s.setGy x).bnd = s.bnd := rfl
@[simp] theorem State.setGy_cmd (s : State) (x : Gy) : (s.setGy x).cmd = s.cmd := rfl
@[simp] theorem State.setGy_parts (s : State) (x : Gy) : (s.setGy x).parts = s.parts := rfl
@[simp] theorem State.setGy_vent (s : State) (x : Gy) : (s.setGy x).vent = s.vent := rfl
@[simp] theorem State.setGy_snt (s : State) (x : Gy) : (s.setGy x).snt = s.snt := rfl
@[simp] theorem State.setGy_fum (s : State) (x : Gy) : (s.setGy x).fum = s.fum := rfl
@[simp] theorem State.setGy_guard (s : State) (x : Gy) : (s.setGy x).guard = s.guard := rfl
@[simp] theorem State.setGy_skn (s : State) (x : Gy) : (s.setGy x).skn = s.skn := rfl
@[simp] theorem State.setGy_otp (s : State) (x : Gy) : (s.setGy x).otp = s.otp := rfl
@[simp] theorem State.setGy_lc (s : State) (x : Gy) : (s.setGy x).lc = s.lc := rfl
@[simp] theorem State.setGy_host (s : State) (x : Gy) : (s.setGy x).host = s.host := rfl
@[simp] theorem State.setGy_wg (s : State) (x : Gy) : (s.setGy x).wg = s.wg := rfl
@[simp] theorem State.setGy_fl (s : State) (x : Gy) : (s.setGy x).fl = s.fl := rfl
@[simp] theorem State.setGy_att (s : State) (x : Gy) : (s.setGy x).att = s.att := rfl
@[simp] theorem State.setGy_dig (s : State) (x : Gy) : (s.setGy x).dig = s.dig := rfl
@[simp] theorem State.setGy_pke (s : State) (x : Gy) : (s.setGy x).pke = s.pke := rfl
@[simp] theorem State.setGy_lnk (s : State) (x : Gy) : (s.setGy x).lnk = s.lnk := rfl
@[simp] theorem State.setGy_co (s : State) (x : Gy) : (s.setGy x).co = s.co := rfl
@[simp] theorem State.setGy_re (s : State) (x : Gy) : (s.setGy x).re = s.re := rfl
@[simp] theorem State.setGy_gov (s : State) (x : Gy) : (s.setGy x).gov = s.gov := rfl
@[simp] theorem State.setGy_gy (s : State) (x : Gy) : (s.setGy x).gy = x := rfl

@[simp] theorem State.setGov_pending (s : State) (x : Gov) : (s.setGov x).pending = s.pending := rfl
@[simp] theorem State.setGov_out (s : State) (x : Gov) : (s.setGov x).out = s.out := rfl
@[simp] theorem State.setGov_freeCount (s : State) (x : Gov) : (s.setGov x).freeCount = s.freeCount := rfl
@[simp] theorem State.setGov_own (s : State) (x : Gov) : (s.setGov x).own = s.own := rfl
@[simp] theorem State.setGov_bnd (s : State) (x : Gov) : (s.setGov x).bnd = s.bnd := rfl
@[simp] theorem State.setGov_cmd (s : State) (x : Gov) : (s.setGov x).cmd = s.cmd := rfl
@[simp] theorem State.setGov_parts (s : State) (x : Gov) : (s.setGov x).parts = s.parts := rfl
@[simp] theorem State.setGov_vent (s : State) (x : Gov) : (s.setGov x).vent = s.vent := rfl
@[simp] theorem State.setGov_snt (s : State) (x : Gov) : (s.setGov x).snt = s.snt := rfl
@[simp] theorem State.setGov_fum (s : State) (x : Gov) : (s.setGov x).fum = s.fum := rfl
@[simp] theorem State.setGov_guard (s : State) (x : Gov) : (s.setGov x).guard = s.guard := rfl
@[simp] theorem State.setGov_skn (s : State) (x : Gov) : (s.setGov x).skn = s.skn := rfl
@[simp] theorem State.setGov_otp (s : State) (x : Gov) : (s.setGov x).otp = s.otp := rfl
@[simp] theorem State.setGov_lc (s : State) (x : Gov) : (s.setGov x).lc = s.lc := rfl
@[simp] theorem State.setGov_host (s : State) (x : Gov) : (s.setGov x).host = s.host := rfl
@[simp] theorem State.setGov_wg (s : State) (x : Gov) : (s.setGov x).wg = s.wg := rfl
@[simp] theorem State.setGov_fl (s : State) (x : Gov) : (s.setGov x).fl = s.fl := rfl
@[simp] theorem State.setGov_att (s : State) (x : Gov) : (s.setGov x).att = s.att := rfl
@[simp] theorem State.setGov_dig (s : State) (x : Gov) : (s.setGov x).dig = s.dig := rfl
@[simp] theorem State.setGov_pke (s : State) (x : Gov) : (s.setGov x).pke = s.pke := rfl
@[simp] theorem State.setGov_lnk (s : State) (x : Gov) : (s.setGov x).lnk = s.lnk := rfl
@[simp] theorem State.setGov_co (s : State) (x : Gov) : (s.setGov x).co = s.co := rfl
@[simp] theorem State.setGov_re (s : State) (x : Gov) : (s.setGov x).re = s.re := rfl
@[simp] theorem State.setGov_gov (s : State) (x : Gov) : (s.setGov x).gov = x := rfl
@[simp] theorem State.setGov_gy (s : State) (x : Gov) : (s.setGov x).gy = s.gy := rfl

@[simp] theorem State.setHost_pending (s : State) (x : HostUnit) : (s.setHost x).pending = s.pending := rfl
@[simp] theorem State.setHost_out (s : State) (x : HostUnit) : (s.setHost x).out = s.out := rfl
@[simp] theorem State.setHost_freeCount (s : State) (x : HostUnit) : (s.setHost x).freeCount = s.freeCount := rfl
@[simp] theorem State.setHost_own (s : State) (x : HostUnit) : (s.setHost x).own = s.own := rfl
@[simp] theorem State.setHost_bnd (s : State) (x : HostUnit) : (s.setHost x).bnd = s.bnd := rfl
@[simp] theorem State.setHost_cmd (s : State) (x : HostUnit) : (s.setHost x).cmd = s.cmd := rfl
@[simp] theorem State.setHost_parts (s : State) (x : HostUnit) : (s.setHost x).parts = s.parts := rfl
@[simp] theorem State.setHost_vent (s : State) (x : HostUnit) : (s.setHost x).vent = s.vent := rfl
@[simp] theorem State.setHost_snt (s : State) (x : HostUnit) : (s.setHost x).snt = s.snt := rfl
@[simp] theorem State.setHost_fum (s : State) (x : HostUnit) : (s.setHost x).fum = s.fum := rfl
@[simp] theorem State.setHost_guard (s : State) (x : HostUnit) : (s.setHost x).guard = s.guard := rfl
@[simp] theorem State.setHost_skn (s : State) (x : HostUnit) : (s.setHost x).skn = s.skn := rfl
@[simp] theorem State.setHost_otp (s : State) (x : HostUnit) : (s.setHost x).otp = s.otp := rfl
@[simp] theorem State.setHost_lc (s : State) (x : HostUnit) : (s.setHost x).lc = s.lc := rfl
@[simp] theorem State.setHost_host (s : State) (x : HostUnit) : (s.setHost x).host = x := rfl
@[simp] theorem State.setHost_wg (s : State) (x : HostUnit) : (s.setHost x).wg = s.wg := rfl
@[simp] theorem State.setHost_fl (s : State) (x : HostUnit) : (s.setHost x).fl = s.fl := rfl
@[simp] theorem State.setHost_att (s : State) (x : HostUnit) : (s.setHost x).att = s.att := rfl
@[simp] theorem State.setHost_dig (s : State) (x : HostUnit) : (s.setHost x).dig = s.dig := rfl
@[simp] theorem State.setHost_pke (s : State) (x : HostUnit) : (s.setHost x).pke = s.pke := rfl
@[simp] theorem State.setHost_lnk (s : State) (x : HostUnit) : (s.setHost x).lnk = s.lnk := rfl
@[simp] theorem State.setHost_co (s : State) (x : HostUnit) : (s.setHost x).co = s.co := rfl
@[simp] theorem State.setHost_re (s : State) (x : HostUnit) : (s.setHost x).re = s.re := rfl
@[simp] theorem State.setHost_gov (s : State) (x : HostUnit) : (s.setHost x).gov = s.gov := rfl
@[simp] theorem State.setHost_gy (s : State) (x : HostUnit) : (s.setHost x).gy = s.gy := rfl

@[simp] theorem State.setLc_pending (s : State) (x : Lc) : (s.setLc x).pending = s.pending := rfl
@[simp] theorem State.setLc_out (s : State) (x : Lc) : (s.setLc x).out = s.out := rfl
@[simp] theorem State.setLc_freeCount (s : State) (x : Lc) : (s.setLc x).freeCount = s.freeCount := rfl
@[simp] theorem State.setLc_own (s : State) (x : Lc) : (s.setLc x).own = s.own := rfl
@[simp] theorem State.setLc_bnd (s : State) (x : Lc) : (s.setLc x).bnd = s.bnd := rfl
@[simp] theorem State.setLc_cmd (s : State) (x : Lc) : (s.setLc x).cmd = s.cmd := rfl
@[simp] theorem State.setLc_parts (s : State) (x : Lc) : (s.setLc x).parts = s.parts := rfl
@[simp] theorem State.setLc_vent (s : State) (x : Lc) : (s.setLc x).vent = s.vent := rfl
@[simp] theorem State.setLc_snt (s : State) (x : Lc) : (s.setLc x).snt = s.snt := rfl
@[simp] theorem State.setLc_fum (s : State) (x : Lc) : (s.setLc x).fum = s.fum := rfl
@[simp] theorem State.setLc_guard (s : State) (x : Lc) : (s.setLc x).guard = s.guard := rfl
@[simp] theorem State.setLc_skn (s : State) (x : Lc) : (s.setLc x).skn = s.skn := rfl
@[simp] theorem State.setLc_otp (s : State) (x : Lc) : (s.setLc x).otp = s.otp := rfl
@[simp] theorem State.setLc_lc (s : State) (x : Lc) : (s.setLc x).lc = x := rfl
@[simp] theorem State.setLc_host (s : State) (x : Lc) : (s.setLc x).host = s.host := rfl
@[simp] theorem State.setLc_wg (s : State) (x : Lc) : (s.setLc x).wg = s.wg := rfl
@[simp] theorem State.setLc_fl (s : State) (x : Lc) : (s.setLc x).fl = s.fl := rfl
@[simp] theorem State.setLc_att (s : State) (x : Lc) : (s.setLc x).att = s.att := rfl
@[simp] theorem State.setLc_dig (s : State) (x : Lc) : (s.setLc x).dig = s.dig := rfl
@[simp] theorem State.setLc_pke (s : State) (x : Lc) : (s.setLc x).pke = s.pke := rfl
@[simp] theorem State.setLc_lnk (s : State) (x : Lc) : (s.setLc x).lnk = s.lnk := rfl
@[simp] theorem State.setLc_co (s : State) (x : Lc) : (s.setLc x).co = s.co := rfl
@[simp] theorem State.setLc_re (s : State) (x : Lc) : (s.setLc x).re = s.re := rfl
@[simp] theorem State.setLc_gov (s : State) (x : Lc) : (s.setLc x).gov = s.gov := rfl
@[simp] theorem State.setLc_gy (s : State) (x : Lc) : (s.setLc x).gy = s.gy := rfl

@[simp] theorem State.setPke_pending (s : State) (x : Pke) : (s.setPke x).pending = s.pending := rfl
@[simp] theorem State.setPke_out (s : State) (x : Pke) : (s.setPke x).out = s.out := rfl
@[simp] theorem State.setPke_freeCount (s : State) (x : Pke) : (s.setPke x).freeCount = s.freeCount := rfl
@[simp] theorem State.setPke_own (s : State) (x : Pke) : (s.setPke x).own = s.own := rfl
@[simp] theorem State.setPke_bnd (s : State) (x : Pke) : (s.setPke x).bnd = s.bnd := rfl
@[simp] theorem State.setPke_cmd (s : State) (x : Pke) : (s.setPke x).cmd = s.cmd := rfl
@[simp] theorem State.setPke_parts (s : State) (x : Pke) : (s.setPke x).parts = s.parts := rfl
@[simp] theorem State.setPke_vent (s : State) (x : Pke) : (s.setPke x).vent = s.vent := rfl
@[simp] theorem State.setPke_snt (s : State) (x : Pke) : (s.setPke x).snt = s.snt := rfl
@[simp] theorem State.setPke_fum (s : State) (x : Pke) : (s.setPke x).fum = s.fum := rfl
@[simp] theorem State.setPke_guard (s : State) (x : Pke) : (s.setPke x).guard = s.guard := rfl
@[simp] theorem State.setPke_skn (s : State) (x : Pke) : (s.setPke x).skn = s.skn := rfl
@[simp] theorem State.setPke_otp (s : State) (x : Pke) : (s.setPke x).otp = s.otp := rfl
@[simp] theorem State.setPke_lc (s : State) (x : Pke) : (s.setPke x).lc = s.lc := rfl
@[simp] theorem State.setPke_host (s : State) (x : Pke) : (s.setPke x).host = s.host := rfl
@[simp] theorem State.setPke_wg (s : State) (x : Pke) : (s.setPke x).wg = s.wg := rfl
@[simp] theorem State.setPke_fl (s : State) (x : Pke) : (s.setPke x).fl = s.fl := rfl
@[simp] theorem State.setPke_att (s : State) (x : Pke) : (s.setPke x).att = s.att := rfl
@[simp] theorem State.setPke_dig (s : State) (x : Pke) : (s.setPke x).dig = s.dig := rfl
@[simp] theorem State.setPke_pke (s : State) (x : Pke) : (s.setPke x).pke = x := rfl
@[simp] theorem State.setPke_lnk (s : State) (x : Pke) : (s.setPke x).lnk = s.lnk := rfl
@[simp] theorem State.setPke_co (s : State) (x : Pke) : (s.setPke x).co = s.co := rfl
@[simp] theorem State.setPke_re (s : State) (x : Pke) : (s.setPke x).re = s.re := rfl
@[simp] theorem State.setPke_gov (s : State) (x : Pke) : (s.setPke x).gov = s.gov := rfl
@[simp] theorem State.setPke_gy (s : State) (x : Pke) : (s.setPke x).gy = s.gy := rfl

@[simp] theorem State.setRe_pending (s : State) (x : RowEngine) : (s.setRe x).pending = s.pending := rfl
@[simp] theorem State.setRe_out (s : State) (x : RowEngine) : (s.setRe x).out = s.out := rfl
@[simp] theorem State.setRe_freeCount (s : State) (x : RowEngine) : (s.setRe x).freeCount = s.freeCount := rfl
@[simp] theorem State.setRe_own (s : State) (x : RowEngine) : (s.setRe x).own = s.own := rfl
@[simp] theorem State.setRe_bnd (s : State) (x : RowEngine) : (s.setRe x).bnd = s.bnd := rfl
@[simp] theorem State.setRe_cmd (s : State) (x : RowEngine) : (s.setRe x).cmd = s.cmd := rfl
@[simp] theorem State.setRe_parts (s : State) (x : RowEngine) : (s.setRe x).parts = s.parts := rfl
@[simp] theorem State.setRe_vent (s : State) (x : RowEngine) : (s.setRe x).vent = s.vent := rfl
@[simp] theorem State.setRe_snt (s : State) (x : RowEngine) : (s.setRe x).snt = s.snt := rfl
@[simp] theorem State.setRe_fum (s : State) (x : RowEngine) : (s.setRe x).fum = s.fum := rfl
@[simp] theorem State.setRe_guard (s : State) (x : RowEngine) : (s.setRe x).guard = s.guard := rfl
@[simp] theorem State.setRe_skn (s : State) (x : RowEngine) : (s.setRe x).skn = s.skn := rfl
@[simp] theorem State.setRe_otp (s : State) (x : RowEngine) : (s.setRe x).otp = s.otp := rfl
@[simp] theorem State.setRe_lc (s : State) (x : RowEngine) : (s.setRe x).lc = s.lc := rfl
@[simp] theorem State.setRe_host (s : State) (x : RowEngine) : (s.setRe x).host = s.host := rfl
@[simp] theorem State.setRe_wg (s : State) (x : RowEngine) : (s.setRe x).wg = s.wg := rfl
@[simp] theorem State.setRe_fl (s : State) (x : RowEngine) : (s.setRe x).fl = s.fl := rfl
@[simp] theorem State.setRe_att (s : State) (x : RowEngine) : (s.setRe x).att = s.att := rfl
@[simp] theorem State.setRe_dig (s : State) (x : RowEngine) : (s.setRe x).dig = s.dig := rfl
@[simp] theorem State.setRe_pke (s : State) (x : RowEngine) : (s.setRe x).pke = s.pke := rfl
@[simp] theorem State.setRe_lnk (s : State) (x : RowEngine) : (s.setRe x).lnk = s.lnk := rfl
@[simp] theorem State.setRe_co (s : State) (x : RowEngine) : (s.setRe x).co = s.co := rfl
@[simp] theorem State.setRe_re (s : State) (x : RowEngine) : (s.setRe x).re = x := rfl
@[simp] theorem State.setRe_gov (s : State) (x : RowEngine) : (s.setRe x).gov = s.gov := rfl
@[simp] theorem State.setRe_gy (s : State) (x : RowEngine) : (s.setRe x).gy = s.gy := rfl

@[simp] theorem State.setSkn_pending (s : State) (x : Skein) : (s.setSkn x).pending = s.pending := rfl
@[simp] theorem State.setSkn_out (s : State) (x : Skein) : (s.setSkn x).out = s.out := rfl
@[simp] theorem State.setSkn_freeCount (s : State) (x : Skein) : (s.setSkn x).freeCount = s.freeCount := rfl
@[simp] theorem State.setSkn_own (s : State) (x : Skein) : (s.setSkn x).own = s.own := rfl
@[simp] theorem State.setSkn_bnd (s : State) (x : Skein) : (s.setSkn x).bnd = s.bnd := rfl
@[simp] theorem State.setSkn_cmd (s : State) (x : Skein) : (s.setSkn x).cmd = s.cmd := rfl
@[simp] theorem State.setSkn_parts (s : State) (x : Skein) : (s.setSkn x).parts = s.parts := rfl
@[simp] theorem State.setSkn_vent (s : State) (x : Skein) : (s.setSkn x).vent = s.vent := rfl
@[simp] theorem State.setSkn_snt (s : State) (x : Skein) : (s.setSkn x).snt = s.snt := rfl
@[simp] theorem State.setSkn_fum (s : State) (x : Skein) : (s.setSkn x).fum = s.fum := rfl
@[simp] theorem State.setSkn_guard (s : State) (x : Skein) : (s.setSkn x).guard = s.guard := rfl
@[simp] theorem State.setSkn_skn (s : State) (x : Skein) : (s.setSkn x).skn = x := rfl
@[simp] theorem State.setSkn_otp (s : State) (x : Skein) : (s.setSkn x).otp = s.otp := rfl
@[simp] theorem State.setSkn_lc (s : State) (x : Skein) : (s.setSkn x).lc = s.lc := rfl
@[simp] theorem State.setSkn_host (s : State) (x : Skein) : (s.setSkn x).host = s.host := rfl
@[simp] theorem State.setSkn_wg (s : State) (x : Skein) : (s.setSkn x).wg = s.wg := rfl
@[simp] theorem State.setSkn_fl (s : State) (x : Skein) : (s.setSkn x).fl = s.fl := rfl
@[simp] theorem State.setSkn_att (s : State) (x : Skein) : (s.setSkn x).att = s.att := rfl
@[simp] theorem State.setSkn_dig (s : State) (x : Skein) : (s.setSkn x).dig = s.dig := rfl
@[simp] theorem State.setSkn_pke (s : State) (x : Skein) : (s.setSkn x).pke = s.pke := rfl
@[simp] theorem State.setSkn_lnk (s : State) (x : Skein) : (s.setSkn x).lnk = s.lnk := rfl
@[simp] theorem State.setSkn_co (s : State) (x : Skein) : (s.setSkn x).co = s.co := rfl
@[simp] theorem State.setSkn_re (s : State) (x : Skein) : (s.setSkn x).re = s.re := rfl
@[simp] theorem State.setSkn_gov (s : State) (x : Skein) : (s.setSkn x).gov = s.gov := rfl
@[simp] theorem State.setSkn_gy (s : State) (x : Skein) : (s.setSkn x).gy = s.gy := rfl

@[simp] theorem State.setVent_pending (s : State) (x : Vent) : (s.setVent x).pending = s.pending := rfl
@[simp] theorem State.setVent_out (s : State) (x : Vent) : (s.setVent x).out = s.out := rfl
@[simp] theorem State.setVent_freeCount (s : State) (x : Vent) : (s.setVent x).freeCount = s.freeCount := rfl
@[simp] theorem State.setVent_own (s : State) (x : Vent) : (s.setVent x).own = s.own := rfl
@[simp] theorem State.setVent_bnd (s : State) (x : Vent) : (s.setVent x).bnd = s.bnd := rfl
@[simp] theorem State.setVent_cmd (s : State) (x : Vent) : (s.setVent x).cmd = s.cmd := rfl
@[simp] theorem State.setVent_parts (s : State) (x : Vent) : (s.setVent x).parts = s.parts := rfl
@[simp] theorem State.setVent_vent (s : State) (x : Vent) : (s.setVent x).vent = x := rfl
@[simp] theorem State.setVent_snt (s : State) (x : Vent) : (s.setVent x).snt = s.snt := rfl
@[simp] theorem State.setVent_fum (s : State) (x : Vent) : (s.setVent x).fum = s.fum := rfl
@[simp] theorem State.setVent_guard (s : State) (x : Vent) : (s.setVent x).guard = s.guard := rfl
@[simp] theorem State.setVent_skn (s : State) (x : Vent) : (s.setVent x).skn = s.skn := rfl
@[simp] theorem State.setVent_otp (s : State) (x : Vent) : (s.setVent x).otp = s.otp := rfl
@[simp] theorem State.setVent_lc (s : State) (x : Vent) : (s.setVent x).lc = s.lc := rfl
@[simp] theorem State.setVent_host (s : State) (x : Vent) : (s.setVent x).host = s.host := rfl
@[simp] theorem State.setVent_wg (s : State) (x : Vent) : (s.setVent x).wg = s.wg := rfl
@[simp] theorem State.setVent_fl (s : State) (x : Vent) : (s.setVent x).fl = s.fl := rfl
@[simp] theorem State.setVent_att (s : State) (x : Vent) : (s.setVent x).att = s.att := rfl
@[simp] theorem State.setVent_dig (s : State) (x : Vent) : (s.setVent x).dig = s.dig := rfl
@[simp] theorem State.setVent_pke (s : State) (x : Vent) : (s.setVent x).pke = s.pke := rfl
@[simp] theorem State.setVent_lnk (s : State) (x : Vent) : (s.setVent x).lnk = s.lnk := rfl
@[simp] theorem State.setVent_co (s : State) (x : Vent) : (s.setVent x).co = s.co := rfl
@[simp] theorem State.setVent_re (s : State) (x : Vent) : (s.setVent x).re = s.re := rfl
@[simp] theorem State.setVent_gov (s : State) (x : Vent) : (s.setVent x).gov = s.gov := rfl
@[simp] theorem State.setVent_gy (s : State) (x : Vent) : (s.setVent x).gy = s.gy := rfl

@[simp] theorem State.drawn_pending (s : State) (n : Nat) : (s.drawn n).pending = s.pending := rfl
@[simp] theorem State.drawn_out (s : State) (n : Nat) : (s.drawn n).out = s.out := rfl
@[simp] theorem State.drawn_freeCount (s : State) (n : Nat) : (s.drawn n).freeCount = s.freeCount + n := rfl
@[simp] theorem State.drawn_own (s : State) (n : Nat) : (s.drawn n).own = s.own := rfl
@[simp] theorem State.drawn_bnd (s : State) (n : Nat) : (s.drawn n).bnd = s.bnd := rfl
@[simp] theorem State.drawn_cmd (s : State) (n : Nat) : (s.drawn n).cmd = s.cmd := rfl
@[simp] theorem State.drawn_parts (s : State) (n : Nat) : (s.drawn n).parts = s.parts := rfl
@[simp] theorem State.drawn_vent (s : State) (n : Nat) : (s.drawn n).vent = s.vent := rfl
@[simp] theorem State.drawn_snt (s : State) (n : Nat) : (s.drawn n).snt = s.snt := rfl
@[simp] theorem State.drawn_fum (s : State) (n : Nat) : (s.drawn n).fum = s.fum := rfl
@[simp] theorem State.drawn_guard (s : State) (n : Nat) : (s.drawn n).guard = s.guard := rfl
@[simp] theorem State.drawn_skn (s : State) (n : Nat) : (s.drawn n).skn = s.skn := rfl
@[simp] theorem State.drawn_otp (s : State) (n : Nat) : (s.drawn n).otp = s.otp := rfl
@[simp] theorem State.drawn_lc (s : State) (n : Nat) : (s.drawn n).lc = s.lc := rfl
@[simp] theorem State.drawn_host (s : State) (n : Nat) : (s.drawn n).host = s.host := rfl
@[simp] theorem State.drawn_wg (s : State) (n : Nat) : (s.drawn n).wg = s.wg := rfl
@[simp] theorem State.drawn_fl (s : State) (n : Nat) : (s.drawn n).fl = s.fl := rfl
@[simp] theorem State.drawn_att (s : State) (n : Nat) : (s.drawn n).att = s.att := rfl
@[simp] theorem State.drawn_dig (s : State) (n : Nat) : (s.drawn n).dig = s.dig := rfl
@[simp] theorem State.drawn_pke (s : State) (n : Nat) : (s.drawn n).pke = s.pke := rfl
@[simp] theorem State.drawn_lnk (s : State) (n : Nat) : (s.drawn n).lnk = s.lnk := rfl
@[simp] theorem State.drawn_co (s : State) (n : Nat) : (s.drawn n).co = s.co := rfl
@[simp] theorem State.drawn_re (s : State) (n : Nat) : (s.drawn n).re = s.re := rfl
@[simp] theorem State.drawn_gov (s : State) (n : Nat) : (s.drawn n).gov = s.gov := rfl
@[simp] theorem State.drawn_gy (s : State) (n : Nat) : (s.drawn n).gy = s.gy := rfl

@[simp] theorem State.emit_pending (s : State) (o : Output) : (s.emit o).pending = s.pending := rfl
@[simp] theorem State.emit_out (s : State) (o : Output) : (s.emit o).out = s.out ++ [o] := rfl
@[simp] theorem State.emit_freeCount (s : State) (o : Output) : (s.emit o).freeCount = s.freeCount := rfl
@[simp] theorem State.emit_own (s : State) (o : Output) : (s.emit o).own = s.own := rfl
@[simp] theorem State.emit_bnd (s : State) (o : Output) : (s.emit o).bnd = s.bnd := rfl
@[simp] theorem State.emit_cmd (s : State) (o : Output) : (s.emit o).cmd = s.cmd := rfl
@[simp] theorem State.emit_parts (s : State) (o : Output) : (s.emit o).parts = s.parts := rfl
@[simp] theorem State.emit_vent (s : State) (o : Output) : (s.emit o).vent = s.vent := rfl
@[simp] theorem State.emit_snt (s : State) (o : Output) : (s.emit o).snt = s.snt := rfl
@[simp] theorem State.emit_fum (s : State) (o : Output) : (s.emit o).fum = s.fum := rfl
@[simp] theorem State.emit_guard (s : State) (o : Output) : (s.emit o).guard = s.guard := rfl
@[simp] theorem State.emit_skn (s : State) (o : Output) : (s.emit o).skn = s.skn := rfl
@[simp] theorem State.emit_otp (s : State) (o : Output) : (s.emit o).otp = s.otp := rfl
@[simp] theorem State.emit_lc (s : State) (o : Output) : (s.emit o).lc = s.lc := rfl
@[simp] theorem State.emit_host (s : State) (o : Output) : (s.emit o).host = s.host := rfl
@[simp] theorem State.emit_wg (s : State) (o : Output) : (s.emit o).wg = s.wg := rfl
@[simp] theorem State.emit_fl (s : State) (o : Output) : (s.emit o).fl = s.fl := rfl
@[simp] theorem State.emit_att (s : State) (o : Output) : (s.emit o).att = s.att := rfl
@[simp] theorem State.emit_dig (s : State) (o : Output) : (s.emit o).dig = s.dig := rfl
@[simp] theorem State.emit_pke (s : State) (o : Output) : (s.emit o).pke = s.pke := rfl
@[simp] theorem State.emit_lnk (s : State) (o : Output) : (s.emit o).lnk = s.lnk := rfl
@[simp] theorem State.emit_co (s : State) (o : Output) : (s.emit o).co = s.co := rfl
@[simp] theorem State.emit_re (s : State) (o : Output) : (s.emit o).re = s.re := rfl
@[simp] theorem State.emit_gov (s : State) (o : Output) : (s.emit o).gov = s.gov := rfl
@[simp] theorem State.emit_gy (s : State) (o : Output) : (s.emit o).gy = s.gy := rfl

@[simp] theorem State.setPart_pending (s : State) (d : Nat) (p : Part) : (s.setPart d p).pending = s.pending := rfl
@[simp] theorem State.setPart_out (s : State) (d : Nat) (p : Part) : (s.setPart d p).out = s.out := rfl
@[simp] theorem State.setPart_freeCount (s : State) (d : Nat) (p : Part) : (s.setPart d p).freeCount = s.freeCount := rfl
@[simp] theorem State.setPart_own (s : State) (d : Nat) (p : Part) : (s.setPart d p).own = s.own := rfl
@[simp] theorem State.setPart_bnd (s : State) (d : Nat) (p : Part) : (s.setPart d p).bnd = s.bnd := rfl
@[simp] theorem State.setPart_cmd (s : State) (d : Nat) (p : Part) : (s.setPart d p).cmd = s.cmd := rfl
@[simp] theorem State.setPart_parts (s : State) (d : Nat) (p : Part) : (s.setPart d p).parts = SMap.set {} s.parts d p := rfl
@[simp] theorem State.setPart_vent (s : State) (d : Nat) (p : Part) : (s.setPart d p).vent = s.vent := rfl
@[simp] theorem State.setPart_snt (s : State) (d : Nat) (p : Part) : (s.setPart d p).snt = s.snt := rfl
@[simp] theorem State.setPart_fum (s : State) (d : Nat) (p : Part) : (s.setPart d p).fum = s.fum := rfl
@[simp] theorem State.setPart_guard (s : State) (d : Nat) (p : Part) : (s.setPart d p).guard = s.guard := rfl
@[simp] theorem State.setPart_skn (s : State) (d : Nat) (p : Part) : (s.setPart d p).skn = s.skn := rfl
@[simp] theorem State.setPart_otp (s : State) (d : Nat) (p : Part) : (s.setPart d p).otp = s.otp := rfl
@[simp] theorem State.setPart_lc (s : State) (d : Nat) (p : Part) : (s.setPart d p).lc = s.lc := rfl
@[simp] theorem State.setPart_host (s : State) (d : Nat) (p : Part) : (s.setPart d p).host = s.host := rfl
@[simp] theorem State.setPart_wg (s : State) (d : Nat) (p : Part) : (s.setPart d p).wg = s.wg := rfl
@[simp] theorem State.setPart_fl (s : State) (d : Nat) (p : Part) : (s.setPart d p).fl = s.fl := rfl
@[simp] theorem State.setPart_att (s : State) (d : Nat) (p : Part) : (s.setPart d p).att = s.att := rfl
@[simp] theorem State.setPart_dig (s : State) (d : Nat) (p : Part) : (s.setPart d p).dig = s.dig := rfl
@[simp] theorem State.setPart_pke (s : State) (d : Nat) (p : Part) : (s.setPart d p).pke = s.pke := rfl
@[simp] theorem State.setPart_lnk (s : State) (d : Nat) (p : Part) : (s.setPart d p).lnk = s.lnk := rfl
@[simp] theorem State.setPart_co (s : State) (d : Nat) (p : Part) : (s.setPart d p).co = s.co := rfl
@[simp] theorem State.setPart_re (s : State) (d : Nat) (p : Part) : (s.setPart d p).re = s.re := rfl
@[simp] theorem State.setPart_gov (s : State) (d : Nat) (p : Part) : (s.setPart d p).gov = s.gov := rfl
@[simp] theorem State.setPart_gy (s : State) (d : Nat) (p : Part) : (s.setPart d p).gy = s.gy := rfl

end Sys2Proof.Machine
end

