-- ==== Sys2Proof/Laws/Ops.lean ====
section
/-! SUPPORT. What the shared operations change: the log, the counters, completions, requests. Each touches the fields named here and no other. -/
namespace Sys2Proof.Machine

@[simp] theorem State.logEntry_pending (s : State) (e : SntEntry) : (s.logEntry e).pending = s.pending := by unfold State.logEntry; split <;> rfl
@[simp] theorem State.logEntry_out (s : State) (e : SntEntry) : (s.logEntry e).out = s.out := by unfold State.logEntry; split <;> rfl
@[simp] theorem State.logEntry_own (s : State) (e : SntEntry) : (s.logEntry e).own = s.own := by unfold State.logEntry; split <;> rfl
@[simp] theorem State.logEntry_bnd (s : State) (e : SntEntry) : (s.logEntry e).bnd = s.bnd := by unfold State.logEntry; split <;> rfl
@[simp] theorem State.logEntry_cmd (s : State) (e : SntEntry) : (s.logEntry e).cmd = s.cmd := by unfold State.logEntry; split <;> rfl
@[simp] theorem State.logEntry_parts (s : State) (e : SntEntry) : (s.logEntry e).parts = s.parts := by unfold State.logEntry; split <;> rfl
@[simp] theorem State.logEntry_vent (s : State) (e : SntEntry) : (s.logEntry e).vent = s.vent := by unfold State.logEntry; split <;> rfl
@[simp] theorem State.logEntry_fum (s : State) (e : SntEntry) : (s.logEntry e).fum = s.fum := by unfold State.logEntry; split <;> rfl
@[simp] theorem State.logEntry_guard (s : State) (e : SntEntry) : (s.logEntry e).guard = s.guard := by unfold State.logEntry; split <;> rfl
@[simp] theorem State.logEntry_skn (s : State) (e : SntEntry) : (s.logEntry e).skn = s.skn := by unfold State.logEntry; split <;> rfl
@[simp] theorem State.logEntry_otp (s : State) (e : SntEntry) : (s.logEntry e).otp = s.otp := by unfold State.logEntry; split <;> rfl
@[simp] theorem State.logEntry_lc (s : State) (e : SntEntry) : (s.logEntry e).lc = s.lc := by unfold State.logEntry; split <;> rfl
@[simp] theorem State.logEntry_host (s : State) (e : SntEntry) : (s.logEntry e).host = s.host := by unfold State.logEntry; split <;> rfl
@[simp] theorem State.logEntry_wg (s : State) (e : SntEntry) : (s.logEntry e).wg = s.wg := by unfold State.logEntry; split <;> rfl
@[simp] theorem State.logEntry_fl (s : State) (e : SntEntry) : (s.logEntry e).fl = s.fl := by unfold State.logEntry; split <;> rfl
@[simp] theorem State.logEntry_att (s : State) (e : SntEntry) : (s.logEntry e).att = s.att := by unfold State.logEntry; split <;> rfl
@[simp] theorem State.logEntry_dig (s : State) (e : SntEntry) : (s.logEntry e).dig = s.dig := by unfold State.logEntry; split <;> rfl
@[simp] theorem State.logEntry_pke (s : State) (e : SntEntry) : (s.logEntry e).pke = s.pke := by unfold State.logEntry; split <;> rfl
@[simp] theorem State.logEntry_lnk (s : State) (e : SntEntry) : (s.logEntry e).lnk = s.lnk := by unfold State.logEntry; split <;> rfl
@[simp] theorem State.logEntry_co (s : State) (e : SntEntry) : (s.logEntry e).co = s.co := by unfold State.logEntry; split <;> rfl
@[simp] theorem State.logEntry_re (s : State) (e : SntEntry) : (s.logEntry e).re = s.re := by unfold State.logEntry; split <;> rfl
@[simp] theorem State.logEntry_gov (s : State) (e : SntEntry) : (s.logEntry e).gov = s.gov := by unfold State.logEntry; split <;> rfl
@[simp] theorem State.logEntry_gy (s : State) (e : SntEntry) : (s.logEntry e).gy = s.gy := by unfold State.logEntry; split <;> rfl

@[simp] theorem State.log_pending (s : State) (c : BitVec 32) (u : UnitId) (d : BitVec 8) (p q : Option W64) (f : BitVec 8) : (s.log c u d p q f).pending = s.pending := by simp [State.log]
@[simp] theorem State.log_out (s : State) (c : BitVec 32) (u : UnitId) (d : BitVec 8) (p q : Option W64) (f : BitVec 8) : (s.log c u d p q f).out = s.out := by simp [State.log]
@[simp] theorem State.log_own (s : State) (c : BitVec 32) (u : UnitId) (d : BitVec 8) (p q : Option W64) (f : BitVec 8) : (s.log c u d p q f).own = s.own := by simp [State.log]
@[simp] theorem State.log_bnd (s : State) (c : BitVec 32) (u : UnitId) (d : BitVec 8) (p q : Option W64) (f : BitVec 8) : (s.log c u d p q f).bnd = s.bnd := by simp [State.log]
@[simp] theorem State.log_cmd (s : State) (c : BitVec 32) (u : UnitId) (d : BitVec 8) (p q : Option W64) (f : BitVec 8) : (s.log c u d p q f).cmd = s.cmd := by simp [State.log]
@[simp] theorem State.log_parts (s : State) (c : BitVec 32) (u : UnitId) (d : BitVec 8) (p q : Option W64) (f : BitVec 8) : (s.log c u d p q f).parts = s.parts := by simp [State.log]
@[simp] theorem State.log_vent (s : State) (c : BitVec 32) (u : UnitId) (d : BitVec 8) (p q : Option W64) (f : BitVec 8) : (s.log c u d p q f).vent = s.vent := by simp [State.log]
@[simp] theorem State.log_fum (s : State) (c : BitVec 32) (u : UnitId) (d : BitVec 8) (p q : Option W64) (f : BitVec 8) : (s.log c u d p q f).fum = s.fum := by simp [State.log]
@[simp] theorem State.log_guard (s : State) (c : BitVec 32) (u : UnitId) (d : BitVec 8) (p q : Option W64) (f : BitVec 8) : (s.log c u d p q f).guard = s.guard := by simp [State.log]
@[simp] theorem State.log_skn (s : State) (c : BitVec 32) (u : UnitId) (d : BitVec 8) (p q : Option W64) (f : BitVec 8) : (s.log c u d p q f).skn = s.skn := by simp [State.log]
@[simp] theorem State.log_otp (s : State) (c : BitVec 32) (u : UnitId) (d : BitVec 8) (p q : Option W64) (f : BitVec 8) : (s.log c u d p q f).otp = s.otp := by simp [State.log]
@[simp] theorem State.log_lc (s : State) (c : BitVec 32) (u : UnitId) (d : BitVec 8) (p q : Option W64) (f : BitVec 8) : (s.log c u d p q f).lc = s.lc := by simp [State.log]
@[simp] theorem State.log_host (s : State) (c : BitVec 32) (u : UnitId) (d : BitVec 8) (p q : Option W64) (f : BitVec 8) : (s.log c u d p q f).host = s.host := by simp [State.log]
@[simp] theorem State.log_wg (s : State) (c : BitVec 32) (u : UnitId) (d : BitVec 8) (p q : Option W64) (f : BitVec 8) : (s.log c u d p q f).wg = s.wg := by simp [State.log]
@[simp] theorem State.log_fl (s : State) (c : BitVec 32) (u : UnitId) (d : BitVec 8) (p q : Option W64) (f : BitVec 8) : (s.log c u d p q f).fl = s.fl := by simp [State.log]
@[simp] theorem State.log_att (s : State) (c : BitVec 32) (u : UnitId) (d : BitVec 8) (p q : Option W64) (f : BitVec 8) : (s.log c u d p q f).att = s.att := by simp [State.log]
@[simp] theorem State.log_dig (s : State) (c : BitVec 32) (u : UnitId) (d : BitVec 8) (p q : Option W64) (f : BitVec 8) : (s.log c u d p q f).dig = s.dig := by simp [State.log]
@[simp] theorem State.log_pke (s : State) (c : BitVec 32) (u : UnitId) (d : BitVec 8) (p q : Option W64) (f : BitVec 8) : (s.log c u d p q f).pke = s.pke := by simp [State.log]
@[simp] theorem State.log_lnk (s : State) (c : BitVec 32) (u : UnitId) (d : BitVec 8) (p q : Option W64) (f : BitVec 8) : (s.log c u d p q f).lnk = s.lnk := by simp [State.log]
@[simp] theorem State.log_co (s : State) (c : BitVec 32) (u : UnitId) (d : BitVec 8) (p q : Option W64) (f : BitVec 8) : (s.log c u d p q f).co = s.co := by simp [State.log]
@[simp] theorem State.log_re (s : State) (c : BitVec 32) (u : UnitId) (d : BitVec 8) (p q : Option W64) (f : BitVec 8) : (s.log c u d p q f).re = s.re := by simp [State.log]
@[simp] theorem State.log_gov (s : State) (c : BitVec 32) (u : UnitId) (d : BitVec 8) (p q : Option W64) (f : BitVec 8) : (s.log c u d p q f).gov = s.gov := by simp [State.log]
@[simp] theorem State.log_gy (s : State) (c : BitVec 32) (u : UnitId) (d : BitVec 8) (p q : Option W64) (f : BitVec 8) : (s.log c u d p q f).gy = s.gy := by simp [State.log]

@[simp] theorem State.bump_pending (s : State) (i n : Nat) : (s.bump i n).pending = s.pending := by unfold State.bump; first | rfl | (split <;> rfl)
@[simp] theorem State.bump_out (s : State) (i n : Nat) : (s.bump i n).out = s.out := by unfold State.bump; first | rfl | (split <;> rfl)
@[simp] theorem State.bump_freeCount (s : State) (i n : Nat) : (s.bump i n).freeCount = s.freeCount := by unfold State.bump; first | rfl | (split <;> rfl)
@[simp] theorem State.bump_own (s : State) (i n : Nat) : (s.bump i n).own = s.own := by unfold State.bump; first | rfl | (split <;> rfl)
@[simp] theorem State.bump_bnd (s : State) (i n : Nat) : (s.bump i n).bnd = s.bnd := by unfold State.bump; first | rfl | (split <;> rfl)
@[simp] theorem State.bump_cmd (s : State) (i n : Nat) : (s.bump i n).cmd = s.cmd := by unfold State.bump; first | rfl | (split <;> rfl)
@[simp] theorem State.bump_parts (s : State) (i n : Nat) : (s.bump i n).parts = s.parts := by unfold State.bump; first | rfl | (split <;> rfl)
@[simp] theorem State.bump_vent (s : State) (i n : Nat) : (s.bump i n).vent = s.vent := by unfold State.bump; first | rfl | (split <;> rfl)
@[simp] theorem State.bump_snt (s : State) (i n : Nat) : (s.bump i n).snt = s.snt := by unfold State.bump; first | rfl | (split <;> rfl)
@[simp] theorem State.bump_guard (s : State) (i n : Nat) : (s.bump i n).guard = s.guard := by unfold State.bump; first | rfl | (split <;> rfl)
@[simp] theorem State.bump_skn (s : State) (i n : Nat) : (s.bump i n).skn = s.skn := by unfold State.bump; first | rfl | (split <;> rfl)
@[simp] theorem State.bump_otp (s : State) (i n : Nat) : (s.bump i n).otp = s.otp := by unfold State.bump; first | rfl | (split <;> rfl)
@[simp] theorem State.bump_lc (s : State) (i n : Nat) : (s.bump i n).lc = s.lc := by unfold State.bump; first | rfl | (split <;> rfl)
@[simp] theorem State.bump_host (s : State) (i n : Nat) : (s.bump i n).host = s.host := by unfold State.bump; first | rfl | (split <;> rfl)
@[simp] theorem State.bump_wg (s : State) (i n : Nat) : (s.bump i n).wg = s.wg := by unfold State.bump; first | rfl | (split <;> rfl)
@[simp] theorem State.bump_fl (s : State) (i n : Nat) : (s.bump i n).fl = s.fl := by unfold State.bump; first | rfl | (split <;> rfl)
@[simp] theorem State.bump_att (s : State) (i n : Nat) : (s.bump i n).att = s.att := by unfold State.bump; first | rfl | (split <;> rfl)
@[simp] theorem State.bump_dig (s : State) (i n : Nat) : (s.bump i n).dig = s.dig := by unfold State.bump; first | rfl | (split <;> rfl)
@[simp] theorem State.bump_pke (s : State) (i n : Nat) : (s.bump i n).pke = s.pke := by unfold State.bump; first | rfl | (split <;> rfl)
@[simp] theorem State.bump_lnk (s : State) (i n : Nat) : (s.bump i n).lnk = s.lnk := by unfold State.bump; first | rfl | (split <;> rfl)
@[simp] theorem State.bump_co (s : State) (i n : Nat) : (s.bump i n).co = s.co := by unfold State.bump; first | rfl | (split <;> rfl)
@[simp] theorem State.bump_re (s : State) (i n : Nat) : (s.bump i n).re = s.re := by unfold State.bump; first | rfl | (split <;> rfl)
@[simp] theorem State.bump_gov (s : State) (i n : Nat) : (s.bump i n).gov = s.gov := by unfold State.bump; first | rfl | (split <;> rfl)
@[simp] theorem State.bump_gy (s : State) (i n : Nat) : (s.bump i n).gy = s.gy := by unfold State.bump; first | rfl | (split <;> rfl)

@[simp] theorem State.pcount_pending (s : State) (d k n : Nat) : (s.pcount d k n).pending = s.pending := by unfold State.pcount; split <;> simp
@[simp] theorem State.pcount_out (s : State) (d k n : Nat) : (s.pcount d k n).out = s.out := by unfold State.pcount; split <;> simp
@[simp] theorem State.pcount_freeCount (s : State) (d k n : Nat) : (s.pcount d k n).freeCount = s.freeCount := by unfold State.pcount; split <;> simp
@[simp] theorem State.pcount_own (s : State) (d k n : Nat) : (s.pcount d k n).own = s.own := by unfold State.pcount; split <;> simp
@[simp] theorem State.pcount_bnd (s : State) (d k n : Nat) : (s.pcount d k n).bnd = s.bnd := by unfold State.pcount; split <;> simp
@[simp] theorem State.pcount_cmd (s : State) (d k n : Nat) : (s.pcount d k n).cmd = s.cmd := by unfold State.pcount; split <;> simp
@[simp] theorem State.pcount_parts (s : State) (d k n : Nat) : (s.pcount d k n).parts = s.parts := by unfold State.pcount; split <;> simp
@[simp] theorem State.pcount_vent (s : State) (d k n : Nat) : (s.pcount d k n).vent = s.vent := by unfold State.pcount; split <;> simp
@[simp] theorem State.pcount_snt (s : State) (d k n : Nat) : (s.pcount d k n).snt = s.snt := by unfold State.pcount; split <;> simp
@[simp] theorem State.pcount_guard (s : State) (d k n : Nat) : (s.pcount d k n).guard = s.guard := by unfold State.pcount; split <;> simp
@[simp] theorem State.pcount_skn (s : State) (d k n : Nat) : (s.pcount d k n).skn = s.skn := by unfold State.pcount; split <;> simp
@[simp] theorem State.pcount_otp (s : State) (d k n : Nat) : (s.pcount d k n).otp = s.otp := by unfold State.pcount; split <;> simp
@[simp] theorem State.pcount_lc (s : State) (d k n : Nat) : (s.pcount d k n).lc = s.lc := by unfold State.pcount; split <;> simp
@[simp] theorem State.pcount_host (s : State) (d k n : Nat) : (s.pcount d k n).host = s.host := by unfold State.pcount; split <;> simp
@[simp] theorem State.pcount_wg (s : State) (d k n : Nat) : (s.pcount d k n).wg = s.wg := by unfold State.pcount; split <;> simp
@[simp] theorem State.pcount_fl (s : State) (d k n : Nat) : (s.pcount d k n).fl = s.fl := by unfold State.pcount; split <;> simp
@[simp] theorem State.pcount_att (s : State) (d k n : Nat) : (s.pcount d k n).att = s.att := by unfold State.pcount; split <;> simp
@[simp] theorem State.pcount_dig (s : State) (d k n : Nat) : (s.pcount d k n).dig = s.dig := by unfold State.pcount; split <;> simp
@[simp] theorem State.pcount_pke (s : State) (d k n : Nat) : (s.pcount d k n).pke = s.pke := by unfold State.pcount; split <;> simp
@[simp] theorem State.pcount_lnk (s : State) (d k n : Nat) : (s.pcount d k n).lnk = s.lnk := by unfold State.pcount; split <;> simp
@[simp] theorem State.pcount_co (s : State) (d k n : Nat) : (s.pcount d k n).co = s.co := by unfold State.pcount; split <;> simp
@[simp] theorem State.pcount_re (s : State) (d k n : Nat) : (s.pcount d k n).re = s.re := by unfold State.pcount; split <;> simp
@[simp] theorem State.pcount_gov (s : State) (d k n : Nat) : (s.pcount d k n).gov = s.gov := by unfold State.pcount; split <;> simp
@[simp] theorem State.pcount_gy (s : State) (d k n : Nat) : (s.pcount d k n).gy = s.gy := by unfold State.pcount; split <;> simp

@[simp] theorem State.sample_pending (s : State) (r : BitVec 512) : (s.sample r).pending = s.pending := by unfold State.sample; simp only []; (repeat' split) <;> simp
@[simp] theorem State.sample_out (s : State) (r : BitVec 512) : (s.sample r).out = s.out := by unfold State.sample; simp only []; (repeat' split) <;> simp
@[simp] theorem State.sample_own (s : State) (r : BitVec 512) : (s.sample r).own = s.own := by unfold State.sample; simp only []; (repeat' split) <;> simp
@[simp] theorem State.sample_bnd (s : State) (r : BitVec 512) : (s.sample r).bnd = s.bnd := by unfold State.sample; simp only []; (repeat' split) <;> simp
@[simp] theorem State.sample_cmd (s : State) (r : BitVec 512) : (s.sample r).cmd = s.cmd := by unfold State.sample; simp only []; (repeat' split) <;> simp
@[simp] theorem State.sample_parts (s : State) (r : BitVec 512) : (s.sample r).parts = s.parts := by unfold State.sample; simp only []; (repeat' split) <;> simp
@[simp] theorem State.sample_vent (s : State) (r : BitVec 512) : (s.sample r).vent = s.vent := by unfold State.sample; simp only []; (repeat' split) <;> simp
@[simp] theorem State.sample_guard (s : State) (r : BitVec 512) : (s.sample r).guard = s.guard := by unfold State.sample; simp only []; (repeat' split) <;> simp
@[simp] theorem State.sample_skn (s : State) (r : BitVec 512) : (s.sample r).skn = s.skn := by unfold State.sample; simp only []; (repeat' split) <;> simp
@[simp] theorem State.sample_otp (s : State) (r : BitVec 512) : (s.sample r).otp = s.otp := by unfold State.sample; simp only []; (repeat' split) <;> simp
@[simp] theorem State.sample_lc (s : State) (r : BitVec 512) : (s.sample r).lc = s.lc := by unfold State.sample; simp only []; (repeat' split) <;> simp
@[simp] theorem State.sample_host (s : State) (r : BitVec 512) : (s.sample r).host = s.host := by unfold State.sample; simp only []; (repeat' split) <;> simp
@[simp] theorem State.sample_wg (s : State) (r : BitVec 512) : (s.sample r).wg = s.wg := by unfold State.sample; simp only []; (repeat' split) <;> simp
@[simp] theorem State.sample_fl (s : State) (r : BitVec 512) : (s.sample r).fl = s.fl := by unfold State.sample; simp only []; (repeat' split) <;> simp
@[simp] theorem State.sample_att (s : State) (r : BitVec 512) : (s.sample r).att = s.att := by unfold State.sample; simp only []; (repeat' split) <;> simp
@[simp] theorem State.sample_dig (s : State) (r : BitVec 512) : (s.sample r).dig = s.dig := by unfold State.sample; simp only []; (repeat' split) <;> simp
@[simp] theorem State.sample_pke (s : State) (r : BitVec 512) : (s.sample r).pke = s.pke := by unfold State.sample; simp only []; (repeat' split) <;> simp
@[simp] theorem State.sample_lnk (s : State) (r : BitVec 512) : (s.sample r).lnk = s.lnk := by unfold State.sample; simp only []; (repeat' split) <;> simp
@[simp] theorem State.sample_co (s : State) (r : BitVec 512) : (s.sample r).co = s.co := by unfold State.sample; simp only []; (repeat' split) <;> simp
@[simp] theorem State.sample_re (s : State) (r : BitVec 512) : (s.sample r).re = s.re := by unfold State.sample; simp only []; (repeat' split) <;> simp
@[simp] theorem State.sample_gov (s : State) (r : BitVec 512) : (s.sample r).gov = s.gov := by unfold State.sample; simp only []; (repeat' split) <;> simp
@[simp] theorem State.sample_gy (s : State) (r : BitVec 512) : (s.sample r).gy = s.gy := by unfold State.sample; simp only []; (repeat' split) <;> simp

@[simp] theorem State.defect_pending (s : State) (u : UnitId) (st : BitVec 8) (n : Option Nat) : (s.defect u st n).pending = s.pending := by rfl
@[simp] theorem State.defect_out (s : State) (u : UnitId) (st : BitVec 8) (n : Option Nat) : (s.defect u st n).out = s.out := by rfl
@[simp] theorem State.defect_own (s : State) (u : UnitId) (st : BitVec 8) (n : Option Nat) : (s.defect u st n).own = s.own := by rfl
@[simp] theorem State.defect_bnd (s : State) (u : UnitId) (st : BitVec 8) (n : Option Nat) : (s.defect u st n).bnd = s.bnd := by rfl
@[simp] theorem State.defect_cmd (s : State) (u : UnitId) (st : BitVec 8) (n : Option Nat) : (s.defect u st n).cmd = s.cmd := by rfl
@[simp] theorem State.defect_parts (s : State) (u : UnitId) (st : BitVec 8) (n : Option Nat) : (s.defect u st n).parts = s.parts := by rfl
@[simp] theorem State.defect_snt (s : State) (u : UnitId) (st : BitVec 8) (n : Option Nat) : (s.defect u st n).snt = s.snt := by rfl
@[simp] theorem State.defect_fum (s : State) (u : UnitId) (st : BitVec 8) (n : Option Nat) : (s.defect u st n).fum = s.fum := by rfl
@[simp] theorem State.defect_guard (s : State) (u : UnitId) (st : BitVec 8) (n : Option Nat) : (s.defect u st n).guard = s.guard := by rfl
@[simp] theorem State.defect_skn (s : State) (u : UnitId) (st : BitVec 8) (n : Option Nat) : (s.defect u st n).skn = s.skn := by rfl
@[simp] theorem State.defect_otp (s : State) (u : UnitId) (st : BitVec 8) (n : Option Nat) : (s.defect u st n).otp = s.otp := by rfl
@[simp] theorem State.defect_lc (s : State) (u : UnitId) (st : BitVec 8) (n : Option Nat) : (s.defect u st n).lc = s.lc := by rfl
@[simp] theorem State.defect_host (s : State) (u : UnitId) (st : BitVec 8) (n : Option Nat) : (s.defect u st n).host = s.host := by rfl
@[simp] theorem State.defect_wg (s : State) (u : UnitId) (st : BitVec 8) (n : Option Nat) : (s.defect u st n).wg = s.wg := by rfl
@[simp] theorem State.defect_att (s : State) (u : UnitId) (st : BitVec 8) (n : Option Nat) : (s.defect u st n).att = s.att := by rfl
@[simp] theorem State.defect_dig (s : State) (u : UnitId) (st : BitVec 8) (n : Option Nat) : (s.defect u st n).dig = s.dig := by rfl
@[simp] theorem State.defect_pke (s : State) (u : UnitId) (st : BitVec 8) (n : Option Nat) : (s.defect u st n).pke = s.pke := by rfl
@[simp] theorem State.defect_lnk (s : State) (u : UnitId) (st : BitVec 8) (n : Option Nat) : (s.defect u st n).lnk = s.lnk := by rfl
@[simp] theorem State.defect_co (s : State) (u : UnitId) (st : BitVec 8) (n : Option Nat) : (s.defect u st n).co = s.co := by rfl
@[simp] theorem State.defect_re (s : State) (u : UnitId) (st : BitVec 8) (n : Option Nat) : (s.defect u st n).re = s.re := by rfl
@[simp] theorem State.defect_gov (s : State) (u : UnitId) (st : BitVec 8) (n : Option Nat) : (s.defect u st n).gov = s.gov := by rfl
@[simp] theorem State.defect_gy (s : State) (u : UnitId) (st : BitVec 8) (n : Option Nat) : (s.defect u st n).gy = s.gy := by rfl

@[simp] theorem State.ventFrom_pending (s : State) (r : BitVec 6) (c : BitVec 8) (p : UnitId) (k : BitVec 16) (d : Dom) (x : W64) : (s.ventFrom r c p k d x).pending = s.pending := by unfold State.ventFrom; simp only []; split <;> simp
@[simp] theorem State.ventFrom_out (s : State) (r : BitVec 6) (c : BitVec 8) (p : UnitId) (k : BitVec 16) (d : Dom) (x : W64) : (s.ventFrom r c p k d x).out = s.out := by unfold State.ventFrom; simp only []; split <;> simp
@[simp] theorem State.ventFrom_own (s : State) (r : BitVec 6) (c : BitVec 8) (p : UnitId) (k : BitVec 16) (d : Dom) (x : W64) : (s.ventFrom r c p k d x).own = s.own := by unfold State.ventFrom; simp only []; split <;> simp
@[simp] theorem State.ventFrom_bnd (s : State) (r : BitVec 6) (c : BitVec 8) (p : UnitId) (k : BitVec 16) (d : Dom) (x : W64) : (s.ventFrom r c p k d x).bnd = s.bnd := by unfold State.ventFrom; simp only []; split <;> simp
@[simp] theorem State.ventFrom_cmd (s : State) (r : BitVec 6) (c : BitVec 8) (p : UnitId) (k : BitVec 16) (d : Dom) (x : W64) : (s.ventFrom r c p k d x).cmd = s.cmd := by unfold State.ventFrom; simp only []; split <;> simp
@[simp] theorem State.ventFrom_parts (s : State) (r : BitVec 6) (c : BitVec 8) (p : UnitId) (k : BitVec 16) (d : Dom) (x : W64) : (s.ventFrom r c p k d x).parts = s.parts := by unfold State.ventFrom; simp only []; split <;> simp
@[simp] theorem State.ventFrom_fum (s : State) (r : BitVec 6) (c : BitVec 8) (p : UnitId) (k : BitVec 16) (d : Dom) (x : W64) : (s.ventFrom r c p k d x).fum = s.fum := by unfold State.ventFrom; simp only []; split <;> simp
@[simp] theorem State.ventFrom_guard (s : State) (r : BitVec 6) (c : BitVec 8) (p : UnitId) (k : BitVec 16) (d : Dom) (x : W64) : (s.ventFrom r c p k d x).guard = s.guard := by unfold State.ventFrom; simp only []; split <;> simp
@[simp] theorem State.ventFrom_skn (s : State) (r : BitVec 6) (c : BitVec 8) (p : UnitId) (k : BitVec 16) (d : Dom) (x : W64) : (s.ventFrom r c p k d x).skn = s.skn := by unfold State.ventFrom; simp only []; split <;> simp
@[simp] theorem State.ventFrom_otp (s : State) (r : BitVec 6) (c : BitVec 8) (p : UnitId) (k : BitVec 16) (d : Dom) (x : W64) : (s.ventFrom r c p k d x).otp = s.otp := by unfold State.ventFrom; simp only []; split <;> simp
@[simp] theorem State.ventFrom_lc (s : State) (r : BitVec 6) (c : BitVec 8) (p : UnitId) (k : BitVec 16) (d : Dom) (x : W64) : (s.ventFrom r c p k d x).lc = s.lc := by unfold State.ventFrom; simp only []; split <;> simp
@[simp] theorem State.ventFrom_host (s : State) (r : BitVec 6) (c : BitVec 8) (p : UnitId) (k : BitVec 16) (d : Dom) (x : W64) : (s.ventFrom r c p k d x).host = s.host := by unfold State.ventFrom; simp only []; split <;> simp
@[simp] theorem State.ventFrom_wg (s : State) (r : BitVec 6) (c : BitVec 8) (p : UnitId) (k : BitVec 16) (d : Dom) (x : W64) : (s.ventFrom r c p k d x).wg = s.wg := by unfold State.ventFrom; simp only []; split <;> simp
@[simp] theorem State.ventFrom_fl (s : State) (r : BitVec 6) (c : BitVec 8) (p : UnitId) (k : BitVec 16) (d : Dom) (x : W64) : (s.ventFrom r c p k d x).fl = s.fl := by unfold State.ventFrom; simp only []; split <;> simp
@[simp] theorem State.ventFrom_att (s : State) (r : BitVec 6) (c : BitVec 8) (p : UnitId) (k : BitVec 16) (d : Dom) (x : W64) : (s.ventFrom r c p k d x).att = s.att := by unfold State.ventFrom; simp only []; split <;> simp
@[simp] theorem State.ventFrom_dig (s : State) (r : BitVec 6) (c : BitVec 8) (p : UnitId) (k : BitVec 16) (d : Dom) (x : W64) : (s.ventFrom r c p k d x).dig = s.dig := by unfold State.ventFrom; simp only []; split <;> simp
@[simp] theorem State.ventFrom_pke (s : State) (r : BitVec 6) (c : BitVec 8) (p : UnitId) (k : BitVec 16) (d : Dom) (x : W64) : (s.ventFrom r c p k d x).pke = s.pke := by unfold State.ventFrom; simp only []; split <;> simp
@[simp] theorem State.ventFrom_lnk (s : State) (r : BitVec 6) (c : BitVec 8) (p : UnitId) (k : BitVec 16) (d : Dom) (x : W64) : (s.ventFrom r c p k d x).lnk = s.lnk := by unfold State.ventFrom; simp only []; split <;> simp
@[simp] theorem State.ventFrom_co (s : State) (r : BitVec 6) (c : BitVec 8) (p : UnitId) (k : BitVec 16) (d : Dom) (x : W64) : (s.ventFrom r c p k d x).co = s.co := by unfold State.ventFrom; simp only []; split <;> simp
@[simp] theorem State.ventFrom_re (s : State) (r : BitVec 6) (c : BitVec 8) (p : UnitId) (k : BitVec 16) (d : Dom) (x : W64) : (s.ventFrom r c p k d x).re = s.re := by unfold State.ventFrom; simp only []; split <;> simp
@[simp] theorem State.ventFrom_gov (s : State) (r : BitVec 6) (c : BitVec 8) (p : UnitId) (k : BitVec 16) (d : Dom) (x : W64) : (s.ventFrom r c p k d x).gov = s.gov := by unfold State.ventFrom; simp only []; split <;> simp
@[simp] theorem State.ventFrom_gy (s : State) (r : BitVec 6) (c : BitVec 8) (p : UnitId) (k : BitVec 16) (d : Dom) (x : W64) : (s.ventFrom r c p k d x).gy = s.gy := by unfold State.ventFrom; simp only []; split <;> simp

@[simp] theorem State.report_pending (s : State) (c : BitVec 8) (p : UnitId) (k : BitVec 16) (d : Dom) (x : W64) : (s.report c p k d x).pending = s.pending := by simp [State.report]
@[simp] theorem State.report_out (s : State) (c : BitVec 8) (p : UnitId) (k : BitVec 16) (d : Dom) (x : W64) : (s.report c p k d x).out = s.out := by simp [State.report]
@[simp] theorem State.report_own (s : State) (c : BitVec 8) (p : UnitId) (k : BitVec 16) (d : Dom) (x : W64) : (s.report c p k d x).own = s.own := by simp [State.report]
@[simp] theorem State.report_bnd (s : State) (c : BitVec 8) (p : UnitId) (k : BitVec 16) (d : Dom) (x : W64) : (s.report c p k d x).bnd = s.bnd := by simp [State.report]
@[simp] theorem State.report_cmd (s : State) (c : BitVec 8) (p : UnitId) (k : BitVec 16) (d : Dom) (x : W64) : (s.report c p k d x).cmd = s.cmd := by simp [State.report]
@[simp] theorem State.report_parts (s : State) (c : BitVec 8) (p : UnitId) (k : BitVec 16) (d : Dom) (x : W64) : (s.report c p k d x).parts = s.parts := by simp [State.report]
@[simp] theorem State.report_fum (s : State) (c : BitVec 8) (p : UnitId) (k : BitVec 16) (d : Dom) (x : W64) : (s.report c p k d x).fum = s.fum := by simp [State.report]
@[simp] theorem State.report_guard (s : State) (c : BitVec 8) (p : UnitId) (k : BitVec 16) (d : Dom) (x : W64) : (s.report c p k d x).guard = s.guard := by simp [State.report]
@[simp] theorem State.report_skn (s : State) (c : BitVec 8) (p : UnitId) (k : BitVec 16) (d : Dom) (x : W64) : (s.report c p k d x).skn = s.skn := by simp [State.report]
@[simp] theorem State.report_otp (s : State) (c : BitVec 8) (p : UnitId) (k : BitVec 16) (d : Dom) (x : W64) : (s.report c p k d x).otp = s.otp := by simp [State.report]
@[simp] theorem State.report_lc (s : State) (c : BitVec 8) (p : UnitId) (k : BitVec 16) (d : Dom) (x : W64) : (s.report c p k d x).lc = s.lc := by simp [State.report]
@[simp] theorem State.report_host (s : State) (c : BitVec 8) (p : UnitId) (k : BitVec 16) (d : Dom) (x : W64) : (s.report c p k d x).host = s.host := by simp [State.report]
@[simp] theorem State.report_wg (s : State) (c : BitVec 8) (p : UnitId) (k : BitVec 16) (d : Dom) (x : W64) : (s.report c p k d x).wg = s.wg := by simp [State.report]
@[simp] theorem State.report_fl (s : State) (c : BitVec 8) (p : UnitId) (k : BitVec 16) (d : Dom) (x : W64) : (s.report c p k d x).fl = s.fl := by simp [State.report]
@[simp] theorem State.report_att (s : State) (c : BitVec 8) (p : UnitId) (k : BitVec 16) (d : Dom) (x : W64) : (s.report c p k d x).att = s.att := by simp [State.report]
@[simp] theorem State.report_dig (s : State) (c : BitVec 8) (p : UnitId) (k : BitVec 16) (d : Dom) (x : W64) : (s.report c p k d x).dig = s.dig := by simp [State.report]
@[simp] theorem State.report_pke (s : State) (c : BitVec 8) (p : UnitId) (k : BitVec 16) (d : Dom) (x : W64) : (s.report c p k d x).pke = s.pke := by simp [State.report]
@[simp] theorem State.report_lnk (s : State) (c : BitVec 8) (p : UnitId) (k : BitVec 16) (d : Dom) (x : W64) : (s.report c p k d x).lnk = s.lnk := by simp [State.report]
@[simp] theorem State.report_co (s : State) (c : BitVec 8) (p : UnitId) (k : BitVec 16) (d : Dom) (x : W64) : (s.report c p k d x).co = s.co := by simp [State.report]
@[simp] theorem State.report_re (s : State) (c : BitVec 8) (p : UnitId) (k : BitVec 16) (d : Dom) (x : W64) : (s.report c p k d x).re = s.re := by simp [State.report]
@[simp] theorem State.report_gov (s : State) (c : BitVec 8) (p : UnitId) (k : BitVec 16) (d : Dom) (x : W64) : (s.report c p k d x).gov = s.gov := by simp [State.report]
@[simp] theorem State.report_gy (s : State) (c : BitVec 8) (p : UnitId) (k : BitVec 16) (d : Dom) (x : W64) : (s.report c p k d x).gy = s.gy := by simp [State.report]

@[simp] theorem State.countComplete_pending (s : State) (q : Nat) (d : Desc) (t : W64) (n : BitVec 32) (st : Status) (b : Bool) (w : Nat) : (s.countComplete q d t n st b w).pending = s.pending := by unfold State.countComplete; simp only []; (repeat' split) <;> simp
@[simp] theorem State.countComplete_out (s : State) (q : Nat) (d : Desc) (t : W64) (n : BitVec 32) (st : Status) (b : Bool) (w : Nat) : (s.countComplete q d t n st b w).out = s.out := by unfold State.countComplete; simp only []; (repeat' split) <;> simp
@[simp] theorem State.countComplete_own (s : State) (q : Nat) (d : Desc) (t : W64) (n : BitVec 32) (st : Status) (b : Bool) (w : Nat) : (s.countComplete q d t n st b w).own = s.own := by unfold State.countComplete; simp only []; (repeat' split) <;> simp
@[simp] theorem State.countComplete_bnd (s : State) (q : Nat) (d : Desc) (t : W64) (n : BitVec 32) (st : Status) (b : Bool) (w : Nat) : (s.countComplete q d t n st b w).bnd = s.bnd := by unfold State.countComplete; simp only []; (repeat' split) <;> simp
@[simp] theorem State.countComplete_cmd (s : State) (q : Nat) (d : Desc) (t : W64) (n : BitVec 32) (st : Status) (b : Bool) (w : Nat) : (s.countComplete q d t n st b w).cmd = s.cmd := by unfold State.countComplete; simp only []; (repeat' split) <;> simp
@[simp] theorem State.countComplete_parts (s : State) (q : Nat) (d : Desc) (t : W64) (n : BitVec 32) (st : Status) (b : Bool) (w : Nat) : (s.countComplete q d t n st b w).parts = s.parts := by unfold State.countComplete; simp only []; (repeat' split) <;> simp
@[simp] theorem State.countComplete_vent (s : State) (q : Nat) (d : Desc) (t : W64) (n : BitVec 32) (st : Status) (b : Bool) (w : Nat) : (s.countComplete q d t n st b w).vent = s.vent := by unfold State.countComplete; simp only []; (repeat' split) <;> simp
@[simp] theorem State.countComplete_guard (s : State) (q : Nat) (d : Desc) (t : W64) (n : BitVec 32) (st : Status) (b : Bool) (w : Nat) : (s.countComplete q d t n st b w).guard = s.guard := by unfold State.countComplete; simp only []; (repeat' split) <;> simp
@[simp] theorem State.countComplete_skn (s : State) (q : Nat) (d : Desc) (t : W64) (n : BitVec 32) (st : Status) (b : Bool) (w : Nat) : (s.countComplete q d t n st b w).skn = s.skn := by unfold State.countComplete; simp only []; (repeat' split) <;> simp
@[simp] theorem State.countComplete_otp (s : State) (q : Nat) (d : Desc) (t : W64) (n : BitVec 32) (st : Status) (b : Bool) (w : Nat) : (s.countComplete q d t n st b w).otp = s.otp := by unfold State.countComplete; simp only []; (repeat' split) <;> simp
@[simp] theorem State.countComplete_lc (s : State) (q : Nat) (d : Desc) (t : W64) (n : BitVec 32) (st : Status) (b : Bool) (w : Nat) : (s.countComplete q d t n st b w).lc = s.lc := by unfold State.countComplete; simp only []; (repeat' split) <;> simp
@[simp] theorem State.countComplete_host (s : State) (q : Nat) (d : Desc) (t : W64) (n : BitVec 32) (st : Status) (b : Bool) (w : Nat) : (s.countComplete q d t n st b w).host = s.host := by unfold State.countComplete; simp only []; (repeat' split) <;> simp
@[simp] theorem State.countComplete_wg (s : State) (q : Nat) (d : Desc) (t : W64) (n : BitVec 32) (st : Status) (b : Bool) (w : Nat) : (s.countComplete q d t n st b w).wg = s.wg := by unfold State.countComplete; simp only []; (repeat' split) <;> simp
@[simp] theorem State.countComplete_fl (s : State) (q : Nat) (d : Desc) (t : W64) (n : BitVec 32) (st : Status) (b : Bool) (w : Nat) : (s.countComplete q d t n st b w).fl = s.fl := by unfold State.countComplete; simp only []; (repeat' split) <;> simp
@[simp] theorem State.countComplete_att (s : State) (q : Nat) (d : Desc) (t : W64) (n : BitVec 32) (st : Status) (b : Bool) (w : Nat) : (s.countComplete q d t n st b w).att = s.att := by unfold State.countComplete; simp only []; (repeat' split) <;> simp
@[simp] theorem State.countComplete_dig (s : State) (q : Nat) (d : Desc) (t : W64) (n : BitVec 32) (st : Status) (b : Bool) (w : Nat) : (s.countComplete q d t n st b w).dig = s.dig := by unfold State.countComplete; simp only []; (repeat' split) <;> simp
@[simp] theorem State.countComplete_pke (s : State) (q : Nat) (d : Desc) (t : W64) (n : BitVec 32) (st : Status) (b : Bool) (w : Nat) : (s.countComplete q d t n st b w).pke = s.pke := by unfold State.countComplete; simp only []; (repeat' split) <;> simp
@[simp] theorem State.countComplete_lnk (s : State) (q : Nat) (d : Desc) (t : W64) (n : BitVec 32) (st : Status) (b : Bool) (w : Nat) : (s.countComplete q d t n st b w).lnk = s.lnk := by unfold State.countComplete; simp only []; (repeat' split) <;> simp
@[simp] theorem State.countComplete_co (s : State) (q : Nat) (d : Desc) (t : W64) (n : BitVec 32) (st : Status) (b : Bool) (w : Nat) : (s.countComplete q d t n st b w).co = s.co := by unfold State.countComplete; simp only []; (repeat' split) <;> simp
@[simp] theorem State.countComplete_re (s : State) (q : Nat) (d : Desc) (t : W64) (n : BitVec 32) (st : Status) (b : Bool) (w : Nat) : (s.countComplete q d t n st b w).re = s.re := by unfold State.countComplete; simp only []; (repeat' split) <;> simp
@[simp] theorem State.countComplete_gov (s : State) (q : Nat) (d : Desc) (t : W64) (n : BitVec 32) (st : Status) (b : Bool) (w : Nat) : (s.countComplete q d t n st b w).gov = s.gov := by unfold State.countComplete; simp only []; (repeat' split) <;> simp
@[simp] theorem State.countComplete_gy (s : State) (q : Nat) (d : Desc) (t : W64) (n : BitVec 32) (st : Status) (b : Bool) (w : Nat) : (s.countComplete q d t n st b w).gy = s.gy := by unfold State.countComplete; simp only []; (repeat' split) <;> simp

@[simp] theorem State.complete_pending (s : State) (f : Flight) (st : Status) (r : Option W64) : (s.complete f st r).pending = s.pending := by simp [State.complete]
@[simp] theorem State.complete_out (s : State) (f : Flight) (st : Status) (r : Option W64) : (s.complete f st r).out = s.out := by simp [State.complete]
@[simp] theorem State.complete_own (s : State) (f : Flight) (st : Status) (r : Option W64) : (s.complete f st r).own = s.own := by simp [State.complete]
@[simp] theorem State.complete_bnd (s : State) (f : Flight) (st : Status) (r : Option W64) : (s.complete f st r).bnd = s.bnd := by simp [State.complete]
@[simp] theorem State.complete_parts (s : State) (f : Flight) (st : Status) (r : Option W64) : (s.complete f st r).parts = s.parts := by simp [State.complete]
@[simp] theorem State.complete_vent (s : State) (f : Flight) (st : Status) (r : Option W64) : (s.complete f st r).vent = s.vent := by simp [State.complete]
@[simp] theorem State.complete_guard (s : State) (f : Flight) (st : Status) (r : Option W64) : (s.complete f st r).guard = s.guard := by simp [State.complete]
@[simp] theorem State.complete_skn (s : State) (f : Flight) (st : Status) (r : Option W64) : (s.complete f st r).skn = s.skn := by simp [State.complete]
@[simp] theorem State.complete_otp (s : State) (f : Flight) (st : Status) (r : Option W64) : (s.complete f st r).otp = s.otp := by simp [State.complete]
@[simp] theorem State.complete_lc (s : State) (f : Flight) (st : Status) (r : Option W64) : (s.complete f st r).lc = s.lc := by simp [State.complete]
@[simp] theorem State.complete_host (s : State) (f : Flight) (st : Status) (r : Option W64) : (s.complete f st r).host = s.host := by simp [State.complete]
@[simp] theorem State.complete_wg (s : State) (f : Flight) (st : Status) (r : Option W64) : (s.complete f st r).wg = s.wg := by simp [State.complete]
@[simp] theorem State.complete_fl (s : State) (f : Flight) (st : Status) (r : Option W64) : (s.complete f st r).fl = s.fl := by simp [State.complete]
@[simp] theorem State.complete_att (s : State) (f : Flight) (st : Status) (r : Option W64) : (s.complete f st r).att = s.att := by simp [State.complete]
@[simp] theorem State.complete_dig (s : State) (f : Flight) (st : Status) (r : Option W64) : (s.complete f st r).dig = s.dig := by simp [State.complete]
@[simp] theorem State.complete_pke (s : State) (f : Flight) (st : Status) (r : Option W64) : (s.complete f st r).pke = s.pke := by simp [State.complete]
@[simp] theorem State.complete_lnk (s : State) (f : Flight) (st : Status) (r : Option W64) : (s.complete f st r).lnk = s.lnk := by simp [State.complete]
@[simp] theorem State.complete_co (s : State) (f : Flight) (st : Status) (r : Option W64) : (s.complete f st r).co = s.co := by simp [State.complete]
@[simp] theorem State.complete_re (s : State) (f : Flight) (st : Status) (r : Option W64) : (s.complete f st r).re = s.re := by simp [State.complete]
@[simp] theorem State.complete_gov (s : State) (f : Flight) (st : Status) (r : Option W64) : (s.complete f st r).gov = s.gov := by simp [State.complete]
@[simp] theorem State.complete_gy (s : State) (f : Flight) (st : Status) (r : Option W64) : (s.complete f st r).gy = s.gy := by simp [State.complete]

@[simp] theorem State.defect_vent (s : State) (u : UnitId) (st : BitVec 8) (n : Option Nat) :
    (s.defect u st n).vent = s.vent.setUnit u { s.vent.unitRec u with fresh := 0 } := rfl

@[simp] theorem State.worked_att (s : State) (p : UnitId → Bool) : (s.worked p).att = s.att := by rfl
@[simp] theorem State.worked_bnd (s : State) (p : UnitId → Bool) : (s.worked p).bnd = s.bnd := by rfl
@[simp] theorem State.worked_cmd (s : State) (p : UnitId → Bool) : (s.worked p).cmd = s.cmd := by rfl
@[simp] theorem State.worked_co (s : State) (p : UnitId → Bool) : (s.worked p).co = s.co := by rfl
@[simp] theorem State.worked_dig (s : State) (p : UnitId → Bool) : (s.worked p).dig = s.dig := by rfl
@[simp] theorem State.worked_fl (s : State) (p : UnitId → Bool) : (s.worked p).fl = s.fl := by rfl
@[simp] theorem State.worked_freeCount (s : State) (p : UnitId → Bool) : (s.worked p).freeCount = s.freeCount := by rfl
@[simp] theorem State.worked_fum (s : State) (p : UnitId → Bool) : (s.worked p).fum = s.fum := by rfl
@[simp] theorem State.worked_gov (s : State) (p : UnitId → Bool) : (s.worked p).gov = s.gov := by rfl
@[simp] theorem State.worked_guard (s : State) (p : UnitId → Bool) : (s.worked p).guard = s.guard := by rfl
@[simp] theorem State.worked_gy (s : State) (p : UnitId → Bool) : (s.worked p).gy = s.gy := by rfl
@[simp] theorem State.worked_host (s : State) (p : UnitId → Bool) : (s.worked p).host = s.host := by rfl
@[simp] theorem State.worked_lc (s : State) (p : UnitId → Bool) : (s.worked p).lc = s.lc := by rfl
@[simp] theorem State.worked_lnk (s : State) (p : UnitId → Bool) : (s.worked p).lnk = s.lnk := by rfl
@[simp] theorem State.worked_otp (s : State) (p : UnitId → Bool) : (s.worked p).otp = s.otp := by rfl
@[simp] theorem State.worked_out (s : State) (p : UnitId → Bool) : (s.worked p).out = s.out := by rfl
@[simp] theorem State.worked_own (s : State) (p : UnitId → Bool) : (s.worked p).own = s.own := by rfl
@[simp] theorem State.worked_parts (s : State) (p : UnitId → Bool) : (s.worked p).parts = s.parts := by rfl
@[simp] theorem State.worked_pending (s : State) (p : UnitId → Bool) : (s.worked p).pending = s.pending := by rfl
@[simp] theorem State.worked_pke (s : State) (p : UnitId → Bool) : (s.worked p).pke = s.pke := by rfl
@[simp] theorem State.worked_re (s : State) (p : UnitId → Bool) : (s.worked p).re = s.re := by rfl
@[simp] theorem State.worked_skn (s : State) (p : UnitId → Bool) : (s.worked p).skn = s.skn := by rfl
@[simp] theorem State.worked_snt (s : State) (p : UnitId → Bool) : (s.worked p).snt = s.snt := by rfl
@[simp] theorem State.worked_wg (s : State) (p : UnitId → Bool) : (s.worked p).wg = s.wg := by rfl

@[simp] theorem State.at_pending (s : State) (t : Nat) : (s.at t).pending = s.pending := by rfl
@[simp] theorem State.at_out (s : State) (t : Nat) : (s.at t).out = s.out := by rfl
@[simp] theorem State.at_freeCount (s : State) (t : Nat) : (s.at t).freeCount = s.freeCount := by rfl
@[simp] theorem State.at_own (s : State) (t : Nat) : (s.at t).own = s.own := by rfl
@[simp] theorem State.at_cmd (s : State) (t : Nat) : (s.at t).cmd = s.cmd := by rfl
@[simp] theorem State.at_parts (s : State) (t : Nat) : (s.at t).parts = s.parts := by rfl
@[simp] theorem State.at_vent (s : State) (t : Nat) : (s.at t).vent = s.vent := by rfl
@[simp] theorem State.at_snt (s : State) (t : Nat) : (s.at t).snt = s.snt := by rfl
@[simp] theorem State.at_fum (s : State) (t : Nat) : (s.at t).fum = s.fum := by rfl
@[simp] theorem State.at_guard (s : State) (t : Nat) : (s.at t).guard = s.guard := by rfl
@[simp] theorem State.at_skn (s : State) (t : Nat) : (s.at t).skn = s.skn := by rfl
@[simp] theorem State.at_otp (s : State) (t : Nat) : (s.at t).otp = s.otp := by rfl
@[simp] theorem State.at_lc (s : State) (t : Nat) : (s.at t).lc = s.lc := by rfl
@[simp] theorem State.at_host (s : State) (t : Nat) : (s.at t).host = s.host := by rfl
@[simp] theorem State.at_wg (s : State) (t : Nat) : (s.at t).wg = s.wg := by rfl
@[simp] theorem State.at_fl (s : State) (t : Nat) : (s.at t).fl = s.fl := by rfl
@[simp] theorem State.at_att (s : State) (t : Nat) : (s.at t).att = s.att := by rfl
@[simp] theorem State.at_dig (s : State) (t : Nat) : (s.at t).dig = s.dig := by rfl
@[simp] theorem State.at_pke (s : State) (t : Nat) : (s.at t).pke = s.pke := by rfl
@[simp] theorem State.at_lnk (s : State) (t : Nat) : (s.at t).lnk = s.lnk := by rfl
@[simp] theorem State.at_co (s : State) (t : Nat) :
    (s.at t).co = { s.co with wdogSkip := if s.wdogPaused then s.co.wdogSkip + (t - s.now) else s.co.wdogSkip } := by rfl
@[simp] theorem State.at_re (s : State) (t : Nat) : (s.at t).re = s.re := by rfl
@[simp] theorem State.at_gov (s : State) (t : Nat) : (s.at t).gov = s.gov := by rfl
@[simp] theorem State.at_gy (s : State) (t : Nat) : (s.at t).gy = s.gy := by rfl

@[simp] theorem State.hostIrq_pending (s : State) (i : Nat) : (s.hostIrq i).pending = s.pending := by rfl
@[simp] theorem State.hostIrq_out (s : State) (i : Nat) : (s.hostIrq i).out = s.out := by rfl
@[simp] theorem State.hostIrq_freeCount (s : State) (i : Nat) : (s.hostIrq i).freeCount = s.freeCount := by rfl
@[simp] theorem State.hostIrq_own (s : State) (i : Nat) : (s.hostIrq i).own = s.own := by rfl
@[simp] theorem State.hostIrq_bnd (s : State) (i : Nat) : (s.hostIrq i).bnd = s.bnd := by rfl
@[simp] theorem State.hostIrq_cmd (s : State) (i : Nat) : (s.hostIrq i).cmd = s.cmd := by rfl
@[simp] theorem State.hostIrq_parts (s : State) (i : Nat) : (s.hostIrq i).parts = s.parts := by rfl
@[simp] theorem State.hostIrq_vent (s : State) (i : Nat) : (s.hostIrq i).vent = s.vent := by rfl
@[simp] theorem State.hostIrq_snt (s : State) (i : Nat) : (s.hostIrq i).snt = s.snt := by rfl
@[simp] theorem State.hostIrq_fum (s : State) (i : Nat) : (s.hostIrq i).fum = s.fum := by rfl
@[simp] theorem State.hostIrq_guard (s : State) (i : Nat) : (s.hostIrq i).guard = s.guard := by rfl
@[simp] theorem State.hostIrq_skn (s : State) (i : Nat) : (s.hostIrq i).skn = s.skn := by rfl
@[simp] theorem State.hostIrq_otp (s : State) (i : Nat) : (s.hostIrq i).otp = s.otp := by rfl
@[simp] theorem State.hostIrq_lc (s : State) (i : Nat) : (s.hostIrq i).lc = s.lc := by rfl
@[simp] theorem State.hostIrq_wg (s : State) (i : Nat) : (s.hostIrq i).wg = s.wg := by rfl
@[simp] theorem State.hostIrq_fl (s : State) (i : Nat) : (s.hostIrq i).fl = s.fl := by rfl
@[simp] theorem State.hostIrq_att (s : State) (i : Nat) : (s.hostIrq i).att = s.att := by rfl
@[simp] theorem State.hostIrq_dig (s : State) (i : Nat) : (s.hostIrq i).dig = s.dig := by rfl
@[simp] theorem State.hostIrq_pke (s : State) (i : Nat) : (s.hostIrq i).pke = s.pke := by rfl
@[simp] theorem State.hostIrq_lnk (s : State) (i : Nat) : (s.hostIrq i).lnk = s.lnk := by rfl
@[simp] theorem State.hostIrq_co (s : State) (i : Nat) : (s.hostIrq i).co = s.co := by rfl
@[simp] theorem State.hostIrq_re (s : State) (i : Nat) : (s.hostIrq i).re = s.re := by rfl
@[simp] theorem State.hostIrq_gov (s : State) (i : Nat) : (s.hostIrq i).gov = s.gov := by rfl
@[simp] theorem State.hostIrq_gy (s : State) (i : Nat) : (s.hostIrq i).gy = s.gy := by rfl

@[simp] theorem State.engineWork_pending (s : State) (t : Tag) (n : Nat) : (s.engineWork t n).pending = s.pending := by rfl
@[simp] theorem State.engineWork_out (s : State) (t : Tag) (n : Nat) : (s.engineWork t n).out = s.out := by rfl
@[simp] theorem State.engineWork_freeCount (s : State) (t : Tag) (n : Nat) : (s.engineWork t n).freeCount = s.freeCount := by rfl
@[simp] theorem State.engineWork_own (s : State) (t : Tag) (n : Nat) : (s.engineWork t n).own = s.own := by rfl
@[simp] theorem State.engineWork_bnd (s : State) (t : Tag) (n : Nat) : (s.engineWork t n).bnd = s.bnd := by rfl
@[simp] theorem State.engineWork_parts (s : State) (t : Tag) (n : Nat) : (s.engineWork t n).parts = s.parts := by rfl
@[simp] theorem State.engineWork_vent (s : State) (t : Tag) (n : Nat) : (s.engineWork t n).vent = s.vent := by rfl
@[simp] theorem State.engineWork_snt (s : State) (t : Tag) (n : Nat) : (s.engineWork t n).snt = s.snt := by rfl
@[simp] theorem State.engineWork_fum (s : State) (t : Tag) (n : Nat) : (s.engineWork t n).fum = s.fum := by rfl
@[simp] theorem State.engineWork_guard (s : State) (t : Tag) (n : Nat) : (s.engineWork t n).guard = s.guard := by rfl
@[simp] theorem State.engineWork_skn (s : State) (t : Tag) (n : Nat) : (s.engineWork t n).skn = s.skn := by rfl
@[simp] theorem State.engineWork_otp (s : State) (t : Tag) (n : Nat) : (s.engineWork t n).otp = s.otp := by rfl
@[simp] theorem State.engineWork_lc (s : State) (t : Tag) (n : Nat) : (s.engineWork t n).lc = s.lc := by rfl
@[simp] theorem State.engineWork_host (s : State) (t : Tag) (n : Nat) : (s.engineWork t n).host = s.host := by rfl
@[simp] theorem State.engineWork_wg (s : State) (t : Tag) (n : Nat) : (s.engineWork t n).wg = s.wg := by rfl
@[simp] theorem State.engineWork_fl (s : State) (t : Tag) (n : Nat) : (s.engineWork t n).fl = s.fl := by rfl
@[simp] theorem State.engineWork_att (s : State) (t : Tag) (n : Nat) : (s.engineWork t n).att = s.att := by rfl
@[simp] theorem State.engineWork_dig (s : State) (t : Tag) (n : Nat) : (s.engineWork t n).dig = s.dig := by rfl
@[simp] theorem State.engineWork_pke (s : State) (t : Tag) (n : Nat) : (s.engineWork t n).pke = s.pke := by rfl
@[simp] theorem State.engineWork_lnk (s : State) (t : Tag) (n : Nat) : (s.engineWork t n).lnk = s.lnk := by rfl
@[simp] theorem State.engineWork_co (s : State) (t : Tag) (n : Nat) : (s.engineWork t n).co = s.co := by rfl
@[simp] theorem State.engineWork_re (s : State) (t : Tag) (n : Nat) : (s.engineWork t n).re = s.re := by rfl
@[simp] theorem State.engineWork_gov (s : State) (t : Tag) (n : Nat) : (s.engineWork t n).gov = s.gov := by rfl
@[simp] theorem State.engineWork_gy (s : State) (t : Tag) (n : Nat) : (s.engineWork t n).gy = s.gy := by rfl

@[simp] theorem State.pkeRan_pending (s : State) (l : List Nat) (n : Nat) : (s.pkeRan l n).pending = s.pending := by rfl
@[simp] theorem State.pkeRan_out (s : State) (l : List Nat) (n : Nat) : (s.pkeRan l n).out = s.out := by rfl
@[simp] theorem State.pkeRan_freeCount (s : State) (l : List Nat) (n : Nat) : (s.pkeRan l n).freeCount = s.freeCount := by rfl
@[simp] theorem State.pkeRan_own (s : State) (l : List Nat) (n : Nat) : (s.pkeRan l n).own = s.own := by rfl
@[simp] theorem State.pkeRan_bnd (s : State) (l : List Nat) (n : Nat) : (s.pkeRan l n).bnd = s.bnd := by rfl
@[simp] theorem State.pkeRan_cmd (s : State) (l : List Nat) (n : Nat) : (s.pkeRan l n).cmd = s.cmd := by rfl
@[simp] theorem State.pkeRan_parts (s : State) (l : List Nat) (n : Nat) : (s.pkeRan l n).parts = s.parts := by rfl
@[simp] theorem State.pkeRan_vent (s : State) (l : List Nat) (n : Nat) : (s.pkeRan l n).vent = s.vent := by rfl
@[simp] theorem State.pkeRan_snt (s : State) (l : List Nat) (n : Nat) : (s.pkeRan l n).snt = s.snt := by rfl
@[simp] theorem State.pkeRan_fum (s : State) (l : List Nat) (n : Nat) : (s.pkeRan l n).fum = s.fum := by rfl
@[simp] theorem State.pkeRan_guard (s : State) (l : List Nat) (n : Nat) : (s.pkeRan l n).guard = s.guard := by rfl
@[simp] theorem State.pkeRan_skn (s : State) (l : List Nat) (n : Nat) : (s.pkeRan l n).skn = s.skn := by rfl
@[simp] theorem State.pkeRan_otp (s : State) (l : List Nat) (n : Nat) : (s.pkeRan l n).otp = s.otp := by rfl
@[simp] theorem State.pkeRan_lc (s : State) (l : List Nat) (n : Nat) : (s.pkeRan l n).lc = s.lc := by rfl
@[simp] theorem State.pkeRan_host (s : State) (l : List Nat) (n : Nat) : (s.pkeRan l n).host = s.host := by rfl
@[simp] theorem State.pkeRan_wg (s : State) (l : List Nat) (n : Nat) : (s.pkeRan l n).wg = s.wg := by rfl
@[simp] theorem State.pkeRan_fl (s : State) (l : List Nat) (n : Nat) : (s.pkeRan l n).fl = s.fl := by rfl
@[simp] theorem State.pkeRan_att (s : State) (l : List Nat) (n : Nat) : (s.pkeRan l n).att = s.att := by rfl
@[simp] theorem State.pkeRan_dig (s : State) (l : List Nat) (n : Nat) : (s.pkeRan l n).dig = s.dig := by rfl
@[simp] theorem State.pkeRan_lnk (s : State) (l : List Nat) (n : Nat) : (s.pkeRan l n).lnk = s.lnk := by rfl
@[simp] theorem State.pkeRan_co (s : State) (l : List Nat) (n : Nat) : (s.pkeRan l n).co = s.co := by rfl
@[simp] theorem State.pkeRan_re (s : State) (l : List Nat) (n : Nat) : (s.pkeRan l n).re = s.re := by rfl
@[simp] theorem State.pkeRan_gov (s : State) (l : List Nat) (n : Nat) : (s.pkeRan l n).gov = s.gov := by rfl
@[simp] theorem State.pkeRan_gy (s : State) (l : List Nat) (n : Nat) : (s.pkeRan l n).gy = s.gy := by rfl

/-- Operations that ran change the counter and the sets with valid constants, nothing else of the engine. -/
@[simp] theorem State.pkeRan_holders (s : State) (l : List Nat) (n : Nat) : (s.pkeRan l n).pke.holders = s.pke.holders := by rfl
@[simp] theorem State.pkeRan_run (s : State) (l : List Nat) (n : Nat) : (s.pkeRan l n).pke.run = s.pke.run := by rfl
/-- An engine's work changes the count of the command's record alone: the tags in flight stay. -/
theorem State.engineWork_tags (s : State) (t : Tag) (n : Nat) : (s.engineWork t n).cmd.flights.map (·.tag) = s.cmd.flights.map (·.tag) := by
  simp only [State.engineWork, List.map_map]; congr 1; funext g; simp only [Function.comp]; split <;> rfl

end Sys2Proof.Machine
end

