-- ==== Sys2Proof/Laws/PageRecords.lean ====
section
/-! SUPPORT. Page records in Caldera: the 512-bit layout, reading what was written, and the record area's bounds (R125, R126, R128). -/
namespace Sys2Proof.Machine

theorem getLsbD_app {n m : Nat} (x : BitVec n) (y : BitVec m) (k : Nat) : (x ++ y).getLsbD k = if k < m then y.getLsbD k else x.getLsbD (k - m) := by
  rw [BitVec.getLsbD_append]
theorem ite_else {α : Type} {c : Prop} [Decidable c] {a b d : α} (h : b = d) : (if c then a else b) = if c then a else d := by rw [h]
/-- Each bit of a record's 512 (R128). -/
theorem PageRec.getLsbD_bits (r : PageRec) (k : Nat) : r.bits.getLsbD k =
    (if k < 48 then r.major.getLsbD k else if k - 48 < 64 then r.zmap.getLsbD (k - 48) else if k - 48 - 64 < 384 then r.minor.getLsbD (k - 48 - 64) else
     if k - 48 - 64 - 384 < 6 then r.pid.getLsbD (k - 48 - 64 - 384) else if k - 48 - 64 - 384 - 6 < 6 then r.kgen.getLsbD (k - 48 - 64 - 384 - 6) else
     if k - 48 - 64 - 384 - 6 - 6 < 1 then (BitVec.ofBool r.isSealed).getLsbD (k - 48 - 64 - 384 - 6 - 6) else
     if k - 48 - 64 - 384 - 6 - 6 - 1 < 1 then (BitVec.ofBool r.weight).getLsbD (k - 48 - 64 - 384 - 6 - 6 - 1) else
     if k - 48 - 64 - 384 - 6 - 6 - 1 - 1 < 1 then (BitVec.ofBool r.dumpArmed).getLsbD (k - 48 - 64 - 384 - 6 - 6 - 1 - 1) else
       (BitVec.ofBool r.quarantine).getLsbD (k - 48 - 64 - 384 - 6 - 6 - 1 - 1 - 1)) := by
  unfold PageRec.bits
  iterate 8 refine (getLsbD_app _ _ _).trans (ite_else ?_)
  rfl
/-- The layout of R128 loses nothing. -/
@[simp] theorem PageRec.ofBits_bits (r : PageRec) : PageRec.ofBits r.bits = r := by
  obtain ⟨a, b, c, d, e, f, g, h, i⟩ := r
  simp only [PageRec.ofBits, PageRec.mk.injEq]
  refine ⟨?_, ?_, ?_, ?_, ?_, ?_, ?_, ?_, ?_⟩
  · apply BitVec.eq_of_getLsbD_eq; intro k hk
    simp only [BitVec.getLsbD_extractLsb', Nat.zero_add, hk, decide_true, Bool.true_and, PageRec.getLsbD_bits, if_true]
  · apply BitVec.eq_of_getLsbD_eq; intro k hk
    have h1 : ¬ 48 + k < 48 := by omega
    simp only [BitVec.getLsbD_extractLsb', Nat.add_sub_cancel_left, hk, h1, decide_true, Bool.true_and, PageRec.getLsbD_bits, if_true, if_false]
  · apply BitVec.eq_of_getLsbD_eq; intro k hk
    have h1 : ¬ 112 + k < 48 := by omega
    have h2 : ¬ 112 + k - 48 < 64 := by omega
    have h3 : 112 + k - 48 - 64 = k := by omega
    simp only [BitVec.getLsbD_extractLsb', decide_true, Bool.true_and, PageRec.getLsbD_bits, if_true, if_false, hk, h1, h2, h3]
  · apply BitVec.eq_of_getLsbD_eq; intro k hk
    have h1 : ¬ 496 + k < 48 := by omega
    have h2 : ¬ 496 + k - 48 < 64 := by omega
    have h3 : ¬ 496 + k - 48 - 64 < 384 := by omega
    have h4 : 496 + k - 48 - 64 - 384 = k := by omega
    simp only [BitVec.getLsbD_extractLsb', decide_true, Bool.true_and, PageRec.getLsbD_bits, if_true, if_false, hk, h1, h2, h3, h4]
  · apply BitVec.eq_of_getLsbD_eq; intro k hk
    have h1 : ¬ 502 + k < 48 := by omega
    have h2 : ¬ 502 + k - 48 < 64 := by omega
    have h3 : ¬ 502 + k - 48 - 64 < 384 := by omega
    have h4 : ¬ 502 + k - 48 - 64 - 384 < 6 := by omega
    have h5 : 502 + k - 48 - 64 - 384 - 6 = k := by omega
    simp only [BitVec.getLsbD_extractLsb', decide_true, Bool.true_and, PageRec.getLsbD_bits, if_true, if_false, hk, h1, h2, h3, h4, h5]
  all_goals rw [PageRec.getLsbD_bits]; simp

theorem Guard.recordIndex_inj (g : Guard) {p q : Nat} (hp : g.inWindow p = true) (hq : g.inWindow q = true)
    (h : g.recordOffset p / 64 = g.recordOffset q / 64) : p = q := by
  simp only [Guard.inWindow, Bool.and_eq_true, decide_eq_true_eq] at hp hq
  simp only [Guard.recordOffset, Nat.mul_div_cancel _ (by decide : 0 < 64)] at h
  omega

@[simp] theorem Guard.putRecord_inWindow (g : Guard) (p q : Nat) (r : PageRec) : (g.putRecord p r).inWindow q = g.inWindow q := by
  unfold Guard.putRecord; split <;> rfl

@[simp] theorem Guard.putRecord_slices (g : Guard) (p : Nat) (r : PageRec) : (g.putRecord p r).slices = g.slices := by
  unfold Guard.putRecord; split <;> rfl

@[simp] theorem Guard.putRecord_keys (g : Guard) (p : Nat) (r : PageRec) : (g.putRecord p r).keys = g.keys := by
  unfold Guard.putRecord; split <;> rfl

/-- A record of the window reads as it was written, and every other page's record is untouched (R125). -/
theorem Guard.record_putRecord (g : Guard) (p q : Nat) (r : PageRec) (hp : g.inWindow p = true) :
    (g.putRecord p r).record q = if q = p then r else g.record q := by
  unfold Guard.putRecord Guard.record
  simp only [hp, if_true]
  have hw : ∀ m, Guard.inWindow { g with records := m } q = g.inWindow q := fun _ => rfl
  have ho : ∀ m, Guard.recordOffset { g with records := m } q = g.recordOffset q := fun _ => rfl
  simp only [hw, ho]
  by_cases hq : g.inWindow q = true
  · simp only [hq, if_true, SMap.get_set]
    by_cases e : q = p
    · subst e; rw [if_pos rfl, if_pos rfl, PageRec.ofBits_bits]
    · rw [if_neg e, if_neg fun h => e (g.recordIndex_inj hq hp h)]
  · have : q ≠ p := by rintro rfl; exact hq hp
    simp [hq, this]

/-- With the window inside the coverage, every record lies in the record area (R4, R126). -/
theorem Guard.recordOffset_lt (g : Guard) (p : Nat) (hs : g.size.toNat ≤ Config.coverageGiB) (hp : g.inWindow p = true) :
    g.recordOffset p + 64 ≤ recordAreaEnd := by
  simp only [Guard.inWindow, Bool.and_eq_true, decide_eq_true_eq] at hp
  have hc : Config.coverageGiB = 192 := rfl
  have ha : recordAreaEnd = 3221225472 := rfl
  simp only [Guard.recordOffset]
  omega

end Sys2Proof.Machine
end

