-- ==== Sys2Proof/Laws/PerInstr.lean ====
section
/-! SUPPORT. One lemma per command: the opcode table gives no row any bits, so no word spells the command. -/
namespace Sys2Proof.Laws.Spelling

/-- No word of any length spells the command. -/
def Statement (i : Instr) : Prop := ∀ nbits w, decodeTableWord nbits w ≠ some i

/-- The one reason for all of them. -/
theorem of_table (i : Instr) : Statement i := by simp [Statement, decodeTableWord]

theorem alwaysOnPowerUp : Statement .alwaysOnPowerUp := of_table _
theorem blockPowerLoss : Statement .blockPowerLoss := of_table _
theorem porNFall : Statement .porNFall := of_table _
theorem porNRise (pkgSlot : BitVec 8) (avsEn : BitVec 4) : Statement (.porNRise pkgSlot avsEn) := of_table _
theorem warmReset : Statement .warmReset := of_table _
theorem rowTick (cycles : BitVec 11) : Statement (.rowTick cycles) := of_table _
theorem thermTripFall : Statement .thermTripFall := of_table _
theorem thermClampRelease : Statement .thermClampRelease := of_table _
theorem pwrWarnFall : Statement .pwrWarnFall := of_table _
theorem memtrnDoneFall (slice : BitVec 6) : Statement (.memtrnDoneFall slice) := of_table _
theorem memtrnDoneRise (slice : BitVec 6) : Statement (.memtrnDoneRise slice) := of_table _
theorem suspendHoldTimeout (slice : BitVec 6) : Statement (.suspendHoldTimeout slice) := of_table _
theorem sitePresentFall (site : BitVec 5) : Statement (.sitePresentFall site) := of_table _
theorem snoop (port : BitVec 7) (addr : Addr) : Statement (.snoop port addr) := of_table _
theorem readLine (slice : BitVec 6) (h : NocHdr) : Statement (.readLine slice h) := of_table _
theorem writeLine (slice : BitVec 6) (h : NocHdr) (data : Line) : Statement (.writeLine slice h data) := of_table _
theorem writeMasked (slice : BitVec 6) (h : NocHdr) (data : Line) (mask : BitVec 64) : Statement (.writeMasked slice h data mask) := of_table _
theorem zeroQuery (slice : BitVec 6) (h : NocHdr) : Statement (.zeroQuery slice h) := of_table _
theorem regRead (h : NocHdr) (size : BitVec 7) : Statement (.regRead h size) := of_table _
theorem regWrite (h : NocHdr) (size : BitVec 7) (data : Line) : Statement (.regWrite h size data) := of_table _
theorem recordArrival (slice : BitVec 6) (page : BitVec 40) : Statement (.recordArrival slice page) := of_table _
theorem controllerReadReturn (slice : BitVec 6) (rid : BitVec 8) (data : Line) (side : W64) : Statement (.controllerReadReturn slice rid data side) := of_table _
theorem reKnitCommit (slice : BitVec 6) (page : BitVec 40) : Statement (.reKnitCommit slice page) := of_table _
theorem reKnitHoldTimeout (slice : BitVec 6) (txid : BitVec 12) : Statement (.reKnitHoldTimeout slice txid) := of_table _
theorem nocResponse (txid : BitVec 12) (resp : BitVec 3) (data : Line) (code : Status) : Statement (.nocResponse txid resp data code) := of_table _
theorem grdProtWrite (cls : Cls) (data : W64) : Statement (.grdProtWrite cls data) := of_table _
theorem grdSyncReq (cls : Cls) (data : W64) : Statement (.grdSyncReq cls data) := of_table _
theorem grdSyncDone : Statement .grdSyncDone := of_table _
theorem grdScrubReq (cls : Cls) (data : W64) : Statement (.grdScrubReq cls data) := of_table _
theorem scrubPhysPassEnd : Statement .scrubPhysPassEnd := of_table _
theorem scrubComplete : Statement .scrubComplete := of_table _
theorem claimPassComplete (dom : BitVec 6) : Statement (.claimPassComplete dom) := of_table _
theorem sqSubmit (cls : Cls) (queue : BitVec 7) (bits : BitVec 16) : Statement (.sqSubmit cls queue bits) := of_table _
theorem descriptorDispatch (queue : BitVec 7) : Statement (.descriptorDispatch queue) := of_table _
theorem dbSet (cls : Cls) (mb : BitVec 7) (down : Bool) (bits : BitVec 32) : Statement (.dbSet cls mb down bits) := of_table _
theorem mbBufferWrite (cls : Cls) (mb : BitVec 7) (down : Bool) (off : BitVec 8) (size : BitVec 7) (data : Line) : Statement (.mbBufferWrite cls mb down off size data) := of_table _
theorem send (cls : Cls) (mb : BitVec 7) (down : Bool) (len : BitVec 9) : Statement (.send cls mb down len) := of_table _
theorem done (cls : Cls) (mb : BitVec 7) (down : Bool) : Statement (.done cls mb down) := of_table _
theorem mbLiveTimeout (mb : BitVec 7) (down : Bool) : Statement (.mbLiveTimeout mb down) := of_table _
theorem knotSignal (tag : Tag) : Statement (.knotSignal tag) := of_table _
theorem knotWait (tag : Tag) : Statement (.knotWait tag) := of_table _
theorem knotReset (tag : Tag) : Statement (.knotReset tag) := of_table _
theorem knotProbe (tag : Tag) : Statement (.knotProbe tag) := of_table _
theorem knotRegisterSignal (cls : Cls) (knot : BitVec 17) (data : W64) : Statement (.knotRegisterSignal cls knot data) := of_table _
theorem overflowWaiterMet (knot : BitVec 17) : Statement (.overflowWaiterMet knot) := of_table _
theorem knotStall : Statement .knotStall := of_table _
theorem hangReport : Statement .hangReport := of_table _
theorem keyWrite (tag : Tag) : Statement (.keyWrite tag) := of_table _
theorem keyGenerate (tag : Tag) : Statement (.keyGenerate tag) := of_table _
theorem keyDerive (tag : Tag) : Statement (.keyDerive tag) := of_table _
theorem keyUnwrap (tag : Tag) : Statement (.keyUnwrap tag) := of_table _
theorem keyWrap (tag : Tag) : Statement (.keyWrap tag) := of_table _
theorem keyErase (tag : Tag) : Statement (.keyErase tag) := of_table _
theorem keyEraseFinish (slot : BitVec 8) : Statement (.keyEraseFinish slot) := of_table _
theorem keyLoadIde (tag : Tag) : Statement (.keyLoadIde tag) := of_table _
theorem keyRandom (tag : Tag) : Statement (.keyRandom tag) := of_table _
theorem sknMeasCommit (cls : Cls) : Statement (.sknMeasCommit cls) := of_table _
theorem entropyStartupDone : Statement .entropyStartupDone := of_table _
theorem entropyTestFail (samples : List Bool) : Statement (.entropyTestFail samples) := of_table _
theorem esRestart (cls : Cls) : Statement (.esRestart cls) := of_table _
theorem digOpen (tag : Tag) : Statement (.digOpen tag) := of_table _
theorem digOpenGrant : Statement .digOpenGrant := of_table _
theorem digUpdate (tag : Tag) : Statement (.digUpdate tag) := of_table _
theorem digFinish (tag : Tag) : Statement (.digFinish tag) := of_table _
theorem digCompare (tag : Tag) : Statement (.digCompare tag) := of_table _
theorem digClose (tag : Tag) : Statement (.digClose tag) := of_table _
theorem digestCoreSwitch (core : BitVec 3) : Statement (.digestCoreSwitch core) := of_table _
theorem pkeSign (tag : Tag) : Statement (.pkeSign tag) := of_table _
theorem pkeVerify (tag : Tag) : Statement (.pkeVerify tag) := of_table _
theorem pkePubkey (tag : Tag) : Statement (.pkePubkey tag) := of_table _
theorem pkeKeygen (tag : Tag) : Statement (.pkeKeygen tag) := of_table _
theorem pkeEncaps (tag : Tag) : Statement (.pkeEncaps tag) := of_table _
theorem pkeDecaps (tag : Tag) : Statement (.pkeDecaps tag) := of_table _
theorem pkeEcdh (tag : Tag) : Statement (.pkeEcdh tag) := of_table _
theorem pkeEphClear (tag : Tag) : Statement (.pkeEphClear tag) := of_table _
theorem pkeAbort (tag : Tag) : Statement (.pkeAbort tag) := of_table _
theorem pkeTakeUp : Statement .pkeTakeUp := of_table _
theorem pkeComplete (fault : Bool) : Statement (.pkeComplete fault) := of_table _
theorem pkeClearingEnd : Statement .pkeClearingEnd := of_table _
theorem pkeSlotLenWrite (cls : Cls) (value : BitVec 3) : Statement (.pkeSlotLenWrite cls value) := of_table _
theorem wgOpen (tag : Tag) : Statement (.wgOpen tag) := of_table _
theorem wgLoad (tag : Tag) : Statement (.wgLoad tag) := of_table _
theorem wgContextStart : Statement .wgContextStart := of_table _
theorem wgDestCheck (ctx : BitVec 2) : Statement (.wgDestCheck ctx) := of_table _
theorem wgChunk (ctx : BitVec 2) : Statement (.wgChunk ctx) := of_table _
theorem wgRetryReissue (ctx : BitVec 2) (addr : Addr) : Statement (.wgRetryReissue ctx addr) := of_table _
theorem partClaim (tag : Tag) : Statement (.partClaim tag) := of_table _
theorem partKey (tag : Tag) : Statement (.partKey tag) := of_table _
theorem partStart (tag : Tag) : Statement (.partStart tag) := of_table _
theorem partMigrate (tag : Tag) : Statement (.partMigrate tag) := of_table _
theorem partFreeze (tag : Tag) : Statement (.partFreeze tag) := of_table _
theorem partThaw (tag : Tag) : Statement (.partThaw tag) := of_table _
theorem partReset (tag : Tag) : Statement (.partReset tag) := of_table _
theorem partBindoff (tag : Tag) : Statement (.partBindoff tag) := of_table _
theorem partRelease (tag : Tag) : Statement (.partRelease tag) := of_table _
theorem linkJob (tag : Tag) : Statement (.linkJob tag) := of_table _
theorem linkRekey (tag : Tag) : Statement (.linkRekey tag) := of_table _
theorem linkEnd (tag : Tag) : Statement (.linkEnd tag) := of_table _
theorem linkProbe (tag : Tag) : Statement (.linkProbe tag) := of_table _
theorem linkTxFrame (lane : BitVec 6) (prot : Bool) (job : BitVec 24) (frame : List Byte) : Statement (.linkTxFrame lane prot job frame) := of_table _
theorem linkRxFrame (lane : BitVec 6) (frame : List Byte) : Statement (.linkRxFrame lane frame) := of_table _
theorem reorderFlush (lane : BitVec 6) : Statement (.reorderFlush lane) := of_table _
theorem fiModeWrite (cls : Cls) (mode : Bool) : Statement (.fiModeWrite cls mode) := of_table _
theorem lnkFiWrite (cls : Cls) (lane : BitVec 6) (data : W64) : Statement (.lnkFiWrite cls lane data) := of_table _
theorem dumpArm (tag : Tag) : Statement (.dumpArm tag) := of_table _
theorem dumpPoint (tag : Tag) : Statement (.dumpPoint tag) := of_table _
theorem dumpDisarm (tag : Tag) : Statement (.dumpDisarm tag) := of_table _
theorem dumpRun : Statement .dumpRun := of_table _
theorem telemMark (tag : Tag) : Statement (.telemMark tag) := of_table _
theorem telemRead (tag : Tag) : Statement (.telemRead tag) := of_table _
theorem telemDrain (tag : Tag) : Statement (.telemDrain tag) := of_table _
theorem markerPost (h : NocHdr) (size : BitVec 7) (data : W128) : Statement (.markerPost h size data) := of_table _
theorem siteAddPost (h : NocHdr) (counter : BitVec 2) (size : BitVec 7) (data : W64) : Statement (.siteAddPost h counter size data) := of_table _
theorem pcSamplePost (h : NocHdr) (size : BitVec 7) (data : W64) : Statement (.pcSamplePost h size data) := of_table _
theorem regionCyclesPost (h : NocHdr) (region : BitVec 6) (size : BitVec 7) (data : W64) : Statement (.regionCyclesPost h region size data) := of_table _
theorem intAddPost (h : NocHdr) (counter : BitVec 5) (size : BitVec 7) (data : W64) : Statement (.intAddPost h counter size data) := of_table _
theorem testUnit (tag : Tag) : Statement (.testUnit tag) := of_table _
theorem testProbe (tag : Tag) : Statement (.testProbe tag) := of_table _
theorem testFence (tag : Tag) : Statement (.testFence tag) := of_table _
theorem deferredTestStart (unitId : UnitId) : Statement (.deferredTestStart unitId) := of_table _
theorem selfTestStart : Statement .selfTestStart := of_table _
theorem selfTestEnd (unitId : UnitId) (pass : Bool) : Statement (.selfTestEnd unitId pass) := of_table _
theorem calderaCopyEnd (bank : UnitId) : Statement (.calderaCopyEnd bank) := of_table _
theorem ventReport (h : NocHdr) (size : BitVec 7) (data : W128) : Statement (.ventReport h size data) := of_table _
theorem ventReportExpire (handle : BitVec 16) : Statement (.ventReportExpire handle) := of_table _
theorem sntAppend (cls : Cls) (data : BitVec 256) : Statement (.sntAppend cls data) := of_table _
theorem sntCkptWrite (cls : Cls) (value : BitVec 21) : Statement (.sntCkptWrite cls value) := of_table _
theorem sinterCheckpoint : Statement .sinterCheckpoint := of_table _
theorem wearLedgerCommit (failsA : BitVec 3) (failsB : BitVec 3) : Statement (.wearLedgerCommit failsA failsB) := of_table _
theorem compaction (burn : Burn) : Statement (.compaction burn) := of_table _
theorem flRead (cls : Cls) (chan : Bool) (addr : BitVec 32) (len : BitVec 17) (sram : BitVec 20) : Statement (.flRead cls chan addr len sram) := of_table _
theorem flProgram (cls : Cls) (chan : Bool) (addr : BitVec 32) (len : BitVec 17) (sram : BitVec 20) : Statement (.flProgram cls chan addr len sram) := of_table _
theorem flErase (cls : Cls) (chan : Bool) (addr : BitVec 32) : Statement (.flErase cls chan addr) := of_table _
theorem flOpComplete (ok : Bool) : Statement (.flOpComplete ok) := of_table _
theorem otpRead (cls : Cls) (margin : BitVec 2) (addr : BitVec 11) : Statement (.otpRead cls margin addr) := of_table _
theorem otpProgram (cls : Cls) (addr : BitVec 11) : Statement (.otpProgram cls addr) := of_table _
theorem otpReburn (cls : Cls) (addr : BitVec 11) : Statement (.otpReburn cls addr) := of_table _
theorem otpCheck (cls : Cls) (addr : BitVec 11) : Statement (.otpCheck cls addr) := of_table _
theorem otpOpComplete (burn : Burn) : Statement (.otpOpComplete burn) := of_table _
theorem lcSessionOpen (cls : Cls) : Statement (.lcSessionOpen cls) := of_table _
theorem lcTicketVerified (burn : Burn) : Statement (.lcTicketVerified burn) := of_table _
theorem lcTransGo (cls : Cls) (target : BitVec 4) : Statement (.lcTransGo cls target) := of_table _
theorem lcTransitionPhase (w0 : CopyBurn) (w1 : CopyBurn) (w2 : CopyBurn) (w3 : CopyBurn) : Statement (.lcTransitionPhase w0 w1 w2 w3) := of_table _
theorem lcTransitionEnd : Statement .lcTransitionEnd := of_table _
theorem lcDbgNew (cls : Cls) : Statement (.lcDbgNew cls) := of_table _
theorem lcDbgGrant (cls : Cls) : Statement (.lcDbgGrant cls) := of_table _
theorem lcGrantOpen (burn : Burn) : Statement (.lcGrantOpen burn) := of_table _
theorem lcDbgLock (cls : Cls) : Statement (.lcDbgLock cls) := of_table _
theorem lcGrantExpire : Statement .lcGrantExpire := of_table _
theorem lcChallengeExpire : Statement .lcChallengeExpire := of_table _
theorem castOnStage (flash : FlashStart) (failed : List UnitId) : Statement (.castOnStage flash failed) := of_table _
theorem co8Timeout : Statement .co8Timeout := of_table _
theorem co9Timeout : Statement .co9Timeout := of_table _
theorem castOnWatchdogExpire : Statement .castOnWatchdogExpire := of_table _
theorem coreFault (fetch : Bool) : Statement (.coreFault fetch) := of_table _
theorem runSram (cls : Cls) : Statement (.runSram cls) := of_table _
theorem rootReq (burns : List Burn) : Statement (.rootReq burns) := of_table _
theorem blockReady : Statement .blockReady := of_table _
theorem coWaveGo (cls : Cls) : Statement (.coWaveGo cls) := of_table _
theorem waveBegin : Statement .waveBegin := of_table _
theorem waveRailTimeout : Statement .waveRailTimeout := of_table _
theorem waveSettleOpen : Statement .waveSettleOpen := of_table _
theorem waveSettleDone : Statement .waveSettleDone := of_table _
theorem waveSettleTimeout : Statement .waveSettleTimeout := of_table _
theorem waveResume : Statement .waveResume := of_table _
theorem reRun (cls : Cls) : Statement (.reRun cls) := of_table _
theorem reBankReq (cls : Cls) : Statement (.reBankReq cls) := of_table _
theorem reClear (cls : Cls) : Statement (.reClear cls) := of_table _
theorem reClearDone : Statement .reClearDone := of_table _
theorem reParamCommit (cls : Cls) : Statement (.reParamCommit cls) := of_table _
theorem nop : Statement .nop := of_table _
theorem gAdd (s1 : Bool) (pr : Pred) (rd : BitVec 6) (ra : BitVec 6) (rb : BitVec 6) : Statement (.gAdd s1 pr rd ra rb) := of_table _
theorem gSub (s1 : Bool) (pr : Pred) (rd : BitVec 6) (ra : BitVec 6) (rb : BitVec 6) : Statement (.gSub s1 pr rd ra rb) := of_table _
theorem gAnd (s1 : Bool) (pr : Pred) (rd : BitVec 6) (ra : BitVec 6) (rb : BitVec 6) : Statement (.gAnd s1 pr rd ra rb) := of_table _
theorem gOr (s1 : Bool) (pr : Pred) (rd : BitVec 6) (ra : BitVec 6) (rb : BitVec 6) : Statement (.gOr s1 pr rd ra rb) := of_table _
theorem gXor (s1 : Bool) (pr : Pred) (rd : BitVec 6) (ra : BitVec 6) (rb : BitVec 6) : Statement (.gXor s1 pr rd ra rb) := of_table _
theorem gShl (s1 : Bool) (pr : Pred) (rd : BitVec 6) (ra : BitVec 6) (rb : BitVec 6) : Statement (.gShl s1 pr rd ra rb) := of_table _
theorem gShr (s1 : Bool) (pr : Pred) (rd : BitVec 6) (ra : BitVec 6) (rb : BitVec 6) : Statement (.gShr s1 pr rd ra rb) := of_table _
theorem gSra (s1 : Bool) (pr : Pred) (rd : BitVec 6) (ra : BitVec 6) (rb : BitVec 6) : Statement (.gSra s1 pr rd ra rb) := of_table _
theorem gMin (s1 : Bool) (pr : Pred) (rd : BitVec 6) (ra : BitVec 6) (rb : BitVec 6) : Statement (.gMin s1 pr rd ra rb) := of_table _
theorem gMax (s1 : Bool) (pr : Pred) (rd : BitVec 6) (ra : BitVec 6) (rb : BitVec 6) : Statement (.gMax s1 pr rd ra rb) := of_table _
theorem gMinu (s1 : Bool) (pr : Pred) (rd : BitVec 6) (ra : BitVec 6) (rb : BitVec 6) : Statement (.gMinu s1 pr rd ra rb) := of_table _
theorem gMaxu (s1 : Bool) (pr : Pred) (rd : BitVec 6) (ra : BitVec 6) (rb : BitVec 6) : Statement (.gMaxu s1 pr rd ra rb) := of_table _
theorem gAdds (s1 : Bool) (pr : Pred) (rd : BitVec 6) (ra : BitVec 6) (rb : BitVec 6) : Statement (.gAdds s1 pr rd ra rb) := of_table _
theorem gSubs (s1 : Bool) (pr : Pred) (rd : BitVec 6) (ra : BitVec 6) (rb : BitVec 6) : Statement (.gSubs s1 pr rd ra rb) := of_table _
theorem gAddi (s1 : Bool) (pr : Pred) (rd : BitVec 6) (ra : BitVec 6) (imm : BitVec 8) : Statement (.gAddi s1 pr rd ra imm) := of_table _
theorem gAndi (s1 : Bool) (pr : Pred) (rd : BitVec 6) (ra : BitVec 6) (imm : BitVec 8) : Statement (.gAndi s1 pr rd ra imm) := of_table _
theorem gShli (s1 : Bool) (pr : Pred) (rd : BitVec 6) (ra : BitVec 6) (imm : BitVec 6) : Statement (.gShli s1 pr rd ra imm) := of_table _
theorem gShri (s1 : Bool) (pr : Pred) (rd : BitVec 6) (ra : BitVec 6) (imm : BitVec 6) : Statement (.gShri s1 pr rd ra imm) := of_table _
theorem gSrai (s1 : Bool) (pr : Pred) (rd : BitVec 6) (ra : BitVec 6) (imm : BitVec 6) : Statement (.gSrai s1 pr rd ra imm) := of_table _
theorem gLdi (s1 : Bool) (pr : Pred) (rd : BitVec 6) (imm : BitVec 14) : Statement (.gLdi s1 pr rd imm) := of_table _
theorem gLdih (s1 : Bool) (pr : Pred) (rd : BitVec 6) (imm : BitVec 14) : Statement (.gLdih s1 pr rd imm) := of_table _
theorem gLidx (s1 : Bool) (pr : Pred) (rd : BitVec 6) (level : BitVec 2) : Statement (.gLidx s1 pr rd level) := of_table _
theorem gMul (pr : Pred) (rd : BitVec 6) (ra : BitVec 6) (rb : BitVec 6) : Statement (.gMul pr rd ra rb) := of_table _
theorem gMulh (pr : Pred) (rd : BitVec 6) (ra : BitVec 6) (rb : BitVec 6) : Statement (.gMulh pr rd ra rb) := of_table _
theorem gQmul (pr : Pred) (rd : BitVec 6) (ra : BitVec 6) (rb : BitVec 6) : Statement (.gQmul pr rd ra rb) := of_table _
theorem gQmac (pr : Pred) (rd : BitVec 6) (ra : BitVec 6) (rb : BitVec 6) : Statement (.gQmac pr rd ra rb) := of_table _
theorem gMuli (pr : Pred) (rd : BitVec 6) (ra : BitVec 6) (imm : BitVec 8) : Statement (.gMuli pr rd ra imm) := of_table _
theorem gTmac (pr : Pred) (acc : BitVec 2) (ra : BitVec 6) (rb : BitVec 6) (err : MemErr) : Statement (.gTmac pr acc ra rb err) := of_table _
theorem gTmacz (pr : Pred) (acc : BitVec 2) (ra : BitVec 6) (rb : BitVec 6) (err : MemErr) : Statement (.gTmacz pr acc ra rb err) := of_table _
theorem gTrq (pr : Pred) (acc : BitVec 2) (ra : BitVec 6) (sh : BitVec 5) (relu : Bool) : Statement (.gTrq pr acc ra sh relu) := of_table _
theorem gTst32 (pr : Pred) (acc : BitVec 2) (ra : BitVec 6) : Statement (.gTst32 pr acc ra) := of_table _
theorem gTld32 (pr : Pred) (acc : BitVec 2) (ra : BitVec 6) (err : MemErr) : Statement (.gTld32 pr acc ra err) := of_table _
theorem gLd64 (pr : Pred) (rd : BitVec 6) (ra : BitVec 6) (imm : BitVec 8) (err : MemErr) : Statement (.gLd64 pr rd ra imm err) := of_table _
theorem gLd32s (pr : Pred) (rd : BitVec 6) (ra : BitVec 6) (imm : BitVec 8) (err : MemErr) : Statement (.gLd32s pr rd ra imm err) := of_table _
theorem gLd32u (pr : Pred) (rd : BitVec 6) (ra : BitVec 6) (imm : BitVec 8) (err : MemErr) : Statement (.gLd32u pr rd ra imm err) := of_table _
theorem gLd8s (pr : Pred) (rd : BitVec 6) (ra : BitVec 6) (imm : BitVec 8) (err : MemErr) : Statement (.gLd8s pr rd ra imm err) := of_table _
theorem gSt64 (pr : Pred) (rd : BitVec 6) (ra : BitVec 6) (imm : BitVec 8) : Statement (.gSt64 pr rd ra imm) := of_table _
theorem gSt32 (pr : Pred) (rd : BitVec 6) (ra : BitVec 6) (imm : BitVec 8) : Statement (.gSt32 pr rd ra imm) := of_table _
theorem gSt16 (pr : Pred) (rd : BitVec 6) (ra : BitVec 6) (imm : BitVec 8) : Statement (.gSt16 pr rd ra imm) := of_table _
theorem gSt8 (pr : Pred) (rd : BitVec 6) (ra : BitVec 6) (imm : BitVec 8) : Statement (.gSt8 pr rd ra imm) := of_table _
theorem gLd64Post (pr : Pred) (rd : BitVec 6) (ra : BitVec 6) (imm : BitVec 8) (err : MemErr) : Statement (.gLd64Post pr rd ra imm err) := of_table _
theorem gLd32sPost (pr : Pred) (rd : BitVec 6) (ra : BitVec 6) (imm : BitVec 8) (err : MemErr) : Statement (.gLd32sPost pr rd ra imm err) := of_table _
theorem gLd32uPost (pr : Pred) (rd : BitVec 6) (ra : BitVec 6) (imm : BitVec 8) (err : MemErr) : Statement (.gLd32uPost pr rd ra imm err) := of_table _
theorem gLd8sPost (pr : Pred) (rd : BitVec 6) (ra : BitVec 6) (imm : BitVec 8) (err : MemErr) : Statement (.gLd8sPost pr rd ra imm err) := of_table _
theorem gSt64Post (pr : Pred) (rd : BitVec 6) (ra : BitVec 6) (imm : BitVec 8) : Statement (.gSt64Post pr rd ra imm) := of_table _
theorem gSt32Post (pr : Pred) (rd : BitVec 6) (ra : BitVec 6) (imm : BitVec 8) : Statement (.gSt32Post pr rd ra imm) := of_table _
theorem gSt16Post (pr : Pred) (rd : BitVec 6) (ra : BitVec 6) (imm : BitVec 8) : Statement (.gSt16Post pr rd ra imm) := of_table _
theorem gSt8Post (pr : Pred) (rd : BitVec 6) (ra : BitVec 6) (imm : BitVec 8) : Statement (.gSt8Post pr rd ra imm) := of_table _
theorem gPrb (pr : Pred) (rd : BitVec 6) (index : BitVec 14) : Statement (.gPrb pr rd index) := of_table _
theorem gPrbx (pr : Pred) (rd : BitVec 6) (ra : BitVec 6) (imm : BitVec 8) : Statement (.gPrbx pr rd ra imm) := of_table _
theorem gPst (pr : Pred) (rs : BitVec 6) (index : BitVec 14) : Statement (.gPst pr rs index) := of_table _
theorem gPstx (pr : Pred) (rs : BitVec 6) (ra : BitVec 6) (imm : BitVec 8) : Statement (.gPstx pr rs ra imm) := of_table _
theorem gDbset (pr : Pred) (target : Bool) (bell : BitVec 5) : Statement (.gDbset pr target bell) := of_table _
theorem gDbsetr (pr : Pred) (target : Bool) (ra : BitVec 6) : Statement (.gDbsetr pr target ra) := of_table _
theorem gDbclr (pr : Pred) (target : Bool) (ra : BitVec 6) : Statement (.gDbclr pr target ra) := of_table _
theorem gKsig (pr : Pred) (ra : BitVec 6) (rb : BitVec 6) : Statement (.gKsig pr ra rb) := of_table _
theorem gSlog (pr : Pred) (ra : BitVec 6) (rb : BitVec 6) : Statement (.gSlog pr ra rb) := of_table _
theorem gVack (pr : Pred) (ra : BitVec 6) : Statement (.gVack pr ra) := of_table _
theorem gRailok (pr : Pred) : Statement (.gRailok pr) := of_table _
theorem gPset (pr : Pred) (pd : BitVec 3) (cond : BitVec 3) (ra : BitVec 6) (rb : BitVec 6) : Statement (.gPset pr pd cond ra rb) := of_table _
theorem gPseti (pr : Pred) (pd : BitVec 3) (cond : BitVec 3) (ra : BitVec 6) (imm : BitVec 8) : Statement (.gPseti pr pd cond ra imm) := of_table _
theorem gPlog (pr : Pred) (pd : BitVec 3) (lop : BitVec 2) (pa : BitVec 3) (pb : BitVec 3) : Statement (.gPlog pr pd lop pa pb) := of_table _
theorem gLoop (trip : BitVec 10) (body : BitVec 10) : Statement (.gLoop trip body) := of_table _
theorem gRowEnd : Statement .gRowEnd := of_table _
theorem illegalStitch (word : BitVec 256) (bad : BitVec 8) : Statement (.illegalStitch word bad) := of_table _
theorem sensorReading (slot : BitVec 5) (word : BitVec 20) : Statement (.sensorReading slot word) := of_table _
theorem avsReadback (rail : BitVec 6) (isStatus : Bool) (fault : Bool) (value : BitVec 16) : Statement (.avsReadback rail isStatus fault value) := of_table _
theorem govForceHoldWrite (cls : Cls) (value : Bool) : Statement (.govForceHoldWrite cls value) := of_table _
theorem holdExit : Statement .holdExit := of_table _
theorem govRailWrite (cls : Cls) (rail : BitVec 6) (vmin : BitVec 12) (vmax : BitVec 12) : Statement (.govRailWrite cls rail vmin vmax) := of_table _
theorem loopbackTrained : Statement .loopbackTrained := of_table _
theorem bypassRelease : Statement .bypassRelease := of_table _
theorem ringTrained : Statement .ringTrained := of_table _
theorem ringTrainTimeout : Statement .ringTrainTimeout := of_table _
theorem ringRetry : Statement .ringRetry := of_table _
theorem laneLockLoss (lane : BitVec 1) : Statement (.laneLockLoss lane) := of_table _
theorem geyserFrame (lane : BitVec 1) (frame : List Byte) (bad : Bool) : Statement (.geyserFrame lane frame bad) := of_table _
theorem enum (lane : BitVec 1) (count : BitVec 8) (hops : BitVec 8) : Statement (.enum lane count hops) := of_table _
theorem geyserResendTimeout (session : BitVec 32) (update : Bool) : Statement (.geyserResendTimeout session update) := of_table _
theorem ackOnlySend (session : BitVec 32) (update : Bool) : Statement (.ackOnlySend session update) := of_table _
theorem gyHello (body : List Byte) : Statement (.gyHello body) := of_table _
theorem gyFinish (body : List Byte) : Statement (.gyFinish body) := of_table _
theorem gySessionIdleTimeout (session : BitVec 32) : Statement (.gySessionIdleTimeout session) := of_table _
theorem gyRegRead (session : BitVec 32) (body : List Byte) : Statement (.gyRegRead session body) := of_table _
theorem gyRegWrite (session : BitVec 32) (body : List Byte) : Statement (.gyRegWrite session body) := of_table _
theorem gyCmd (session : BitVec 32) (body : List Byte) : Statement (.gyCmd session body) := of_table _
theorem gyReport (session : BitVec 32) (body : List Byte) : Statement (.gyReport session body) := of_table _
theorem gyLog (session : BitVec 32) (body : List Byte) : Statement (.gyLog session body) := of_table _
theorem gyFiSet (session : BitVec 32) (body : List Byte) : Statement (.gyFiSet session body) := of_table _
theorem gyClose (session : BitVec 32) (body : List Byte) : Statement (.gyClose session body) := of_table _
theorem gyFiWrite (cls : Cls) (data : W64) : Statement (.gyFiWrite cls data) := of_table _
theorem gyFiSecond : Statement .gyFiSecond := of_table _
theorem updBegin (session : BitVec 32) (body : List Byte) : Statement (.updBegin session body) := of_table _
theorem updData (session : BitVec 32) (body : List Byte) (flash : Bool) : Statement (.updData session body flash) := of_table _
theorem updEnd (session : BitVec 32) (body : UpdEndReq) : Statement (.updEnd session body) := of_table _
theorem updDiscard (session : BitVec 32) (body : List Byte) : Statement (.updDiscard session body) := of_table _
theorem updActivate (session : BitVec 32) (body : List Byte) : Statement (.updActivate session body) := of_table _
theorem updFloor (session : BitVec 32) (body : List Byte) (burns : List Burn) : Statement (.updFloor session body burns) := of_table _
theorem updStatus (session : BitVec 32) (body : List Byte) : Statement (.updStatus session body) := of_table _
theorem activate (cls : Cls) : Statement (.activate cls) := of_table _
theorem recStatus (body : List Byte) : Statement (.recStatus body) := of_table _
theorem recBegin (body : List Byte) : Statement (.recBegin body) := of_table _
theorem recData (body : List Byte) (flash : Bool) : Statement (.recData body flash) := of_table _
theorem recEnd (body : List Byte) : Statement (.recEnd body) := of_table _
theorem rptReq (mb : BitVec 7) : Statement (.rptReq mb) := of_table _
theorem keyReq (mb : BitVec 7) : Statement (.keyReq mb) := of_table _
theorem kemHolderExpire (dom : BitVec 6) : Statement (.kemHolderExpire dom) := of_table _
theorem siteAttestation (site : BitVec 5) : Statement (.siteAttestation site) := of_table _
theorem chipletSpdmResponse (site : BitVec 5) (msg : List Byte) : Statement (.chipletSpdmResponse site msg) := of_table _
theorem chipletSpdmTimeout (site : BitVec 5) : Statement (.chipletSpdmTimeout site) := of_table _
theorem attSiteTrust (cls : Cls) (data : W64) : Statement (.attSiteTrust cls data) := of_table _
theorem spdmRequest (msg : List Byte) : Statement (.spdmRequest msg) := of_table _
theorem getMeasurements (nonce : Key256) (index : BitVec 8) : Statement (.getMeasurements nonce index) := of_table _
theorem keyProg (secured : Bool) (stream : BitVec 8) (kset : Bool) (sub : Fin 3) (tx : Bool) (key : Key256) (iv : W64) : Statement (.keyProg secured stream kset sub tx key iv) := of_table _
theorem kSetGo (secured : Bool) (stream : BitVec 8) (kset : Bool) (tx : Bool) : Statement (.kSetGo secured stream kset tx) := of_table _
theorem kSetStop (secured : Bool) (stream : BitVec 8) (kset : Bool) (tx : Bool) : Statement (.kSetStop secured stream kset tx) := of_table _
theorem query (secured : Bool) : Statement (.query secured) := of_table _
theorem containmentEnter (cause : Fin 4) : Statement (.containmentEnter cause) := of_table _
theorem hwContRead (cls : Cls) : Statement (.hwContRead cls) := of_table _
theorem hwContRelease (cls : Cls) (value : BitVec 3) : Statement (.hwContRelease cls value) := of_table _
theorem hwStrOpen (cls : Cls) (stream : BitVec 4) : Statement (.hwStrOpen cls stream) := of_table _
theorem hwStrClose (cls : Cls) (stream : BitVec 4) : Statement (.hwStrClose cls stream) := of_table _
theorem hwStrAbort (cls : Cls) (stream : BitVec 4) : Statement (.hwStrAbort cls stream) := of_table _
theorem streamApertureWrite (stream : BitVec 4) (off : BitVec 18) (dws : List (BitVec 32)) (full : Bool) : Statement (.streamApertureWrite stream off dws full) := of_table _
theorem streamBurstWrite (stream : BitVec 4) (off : BitVec 10) (dws : List (BitVec 32)) (full : Bool) (relaxed : Bool) : Statement (.streamBurstWrite stream off dws full relaxed) := of_table _
theorem streamIdleTimeout (stream : BitVec 4) : Statement (.streamIdleTimeout stream) := of_table _
theorem hwWinWrite (cls : Cls) (win : BitVec 4) (hi : Bool) (data : W64) : Statement (.hwWinWrite cls win hi data) := of_table _
theorem translationAccess (off : BitVec 25) (write : Bool) (bytes : List (Option Byte)) : Statement (.translationAccess off write bytes) := of_table _
theorem registerWrite (cls : Cls) (off : BitVec 26) (size : BitVec 7) (data : Line) (full : Bool) : Statement (.registerWrite cls off size data full) := of_table _
theorem registerRead (cls : Cls) (off : BitVec 26) (size : BitVec 7) : Statement (.registerRead cls off size) := of_table _
theorem sitePresentRise (site : BitVec 5) : Statement (.sitePresentRise site) := of_table _
theorem thermTripRise : Statement .thermTripRise := of_table _
theorem pwrWarnRise : Statement .pwrWarnRise := of_table _
theorem fecLockChange (lane : BitVec 1) (level : FecLevel) : Statement (.fecLockChange lane level) := of_table _
theorem gyChallengeExpire (session : BitVec 32) : Statement (.gyChallengeExpire session) := of_table _
theorem digBlockAbsorbed (core : BitVec 3) (flip : BitVec 2) : Statement (.digBlockAbsorbed core flip) := of_table _

end Sys2Proof.Laws.Spelling
end

