-- ==== Sys2Proof/Laws/Records.lean ====
section
/-! SUPPORT. Completion records: what a completion leaves in the ring, in its queue and among the commands in flight (R96). -/
namespace Sys2Proof.Machine

theorem field_ofNat (w lo n x : Nat) (h : lo + n ≤ w) : field (BitVec.ofNat w x) lo n = BitVec.ofNat n (x / 2 ^ lo) := by
  apply BitVec.eq_of_toNat_eq
  simp only [field, BitVec.extractLsb'_toNat, BitVec.toNat_ofNat, Nat.shiftRight_eq_div_pow]
  have hd : 2 ^ w = 2 ^ lo * 2 ^ (w - lo) := by rw [← Nat.pow_add]; congr 1; omega
  rw [hd, Nat.mod_mul_right_div_self]
  exact Nat.mod_mod_of_dvd _ (Nat.pow_dvd_pow 2 (by omega))

theorem packN_cons (e : Nat × Nat) (l : List (Nat × Nat)) : packN (e :: l) = e.2 * 2 ^ e.1 + packN l := by simp [packN]

theorem packN_dvd (m : Nat) (l : List (Nat × Nat)) (h : ∀ e ∈ l, m ≤ e.1) : 2 ^ m ∣ packN l := by
  induction l with
  | nil => simp [packN]
  | cons e l ih =>
    rw [packN_cons]
    exact Nat.dvd_add (Nat.dvd_trans (Nat.pow_dvd_pow 2 (h e (by simp))) (Nat.dvd_mul_left _ _)) (ih fun x hx => h x (by simp [hx]))

/-- The fields from `base` up to bit `lo` do not reach it: each ends where the next begins or below. -/
def fieldsFit : Nat → List (Nat × Nat × Nat) → Nat → Prop
  | base, [], lo => base ≤ lo
  | base, (a, w, v) :: l, lo => base ≤ a ∧ v < 2 ^ w ∧ fieldsFit (a + w) l lo

theorem packN_lt (l : List (Nat × Nat × Nat)) (base lo acc : Nat) (h : fieldsFit base l lo) (ha : acc < 2 ^ base) :
    acc + packN (l.map fun e => (e.1, e.2.2)) < 2 ^ lo := by
  induction l generalizing base acc with
  | nil => exact Nat.lt_of_lt_of_le (by simpa [packN] using ha) (Nat.pow_le_pow_right (by decide) h)
  | cons e l ih =>
    obtain ⟨a, w, v⟩ := e
    obtain ⟨h1, h2, h3⟩ := h
    rw [List.map_cons, packN_cons, ← Nat.add_assoc]
    apply ih (a + w) _ h3
    have e1 : (v + 1) * 2 ^ a ≤ 2 ^ w * 2 ^ a := Nat.mul_le_mul_right _ h2
    have e2 : acc < 2 ^ a := Nat.lt_of_lt_of_le ha (Nat.pow_le_pow_right (by decide) h1)
    rw [Nat.pow_add, Nat.mul_comm (2 ^ a)]
    rw [Nat.add_mul, Nat.one_mul] at e1
    show acc + v * 2 ^ a < _
    omega

/-- One field of a packed word. -/
theorem packN_field (l : List (Nat × Nat × Nat)) (lo n v : Nat) (r : List (Nat × Nat)) (h : fieldsFit 0 l lo) (hv : v < 2 ^ n)
    (hr : ∀ e ∈ r, lo + n ≤ e.1) : packN (l.map (fun e => (e.1, e.2.2)) ++ (lo, v) :: r) / 2 ^ lo % 2 ^ n = v := by
  have hl := packN_lt l 0 lo 0 h (by simp)
  obtain ⟨k, hk⟩ := packN_dvd (lo + n) r hr
  have hs : packN (l.map (fun e => (e.1, e.2.2)) ++ (lo, v) :: r) = packN (l.map fun e => (e.1, e.2.2)) + (v * 2 ^ lo + packN r) := by
    simp [packN]
  rw [hs, hk, Nat.zero_add] at *
  have : packN (l.map fun e => (e.1, e.2.2)) + (v * 2 ^ lo + 2 ^ (lo + n) * k) = packN (l.map fun e => (e.1, e.2.2)) + 2 ^ lo * (v + 2 ^ n * k) := by
    rw [Nat.mul_add, Nat.mul_comm v, Nat.pow_add, Nat.mul_assoc]
  rw [this, Nat.add_mul_div_left _ _ (Nat.two_pow_pos lo), Nat.div_eq_of_lt hl, Nat.zero_add, Nat.add_mul_mod_self_left, Nat.mod_eq_of_lt hv]

theorem b2n_lt (b : Bool) : b2n b < 2 ^ 1 := by cases b <;> decide

/-- The status of a record. -/
theorem compRecord_status (k : Comp) (p : Bool) (q slot : Nat) (d : Desc) (t : W64) : field (compRecord k p q slot d t) 0 16 = k.status := by
  rw [compRecord, field_ofNat _ _ _ _ (by omega)]
  apply BitVec.eq_of_toNat_eq
  rw [BitVec.toNat_ofNat]
  exact packN_field [] 0 16 _ _ (Nat.le_refl 0) k.status.isLt (by simp)

/-- The RESULT of a record. -/
theorem compRecord_result (k : Comp) (p : Bool) (q slot : Nat) (d : Desc) (t : W64) (hq : q < 256) (hs : slot < 16) :
    field (compRecord k p q slot d t) 128 64 = k.result := by
  rw [compRecord, field_ofNat _ _ _ _ (by omega)]
  apply BitVec.eq_of_toNat_eq
  rw [BitVec.toNat_ofNat]
  exact packN_field [(0, 16, k.status.toNat), (16, 9, k.tag.toNat), (25, 4, slot), (29, 1, b2n k.interim), (30, 1, b2n k.reissued), (31, 1, b2n p),
    (32, 24, (Desc.layer d).toNat), (56, 8, q), (64, 16, (Desc.operator d).toNat), (80, 8, (Desc.opcode d).toNat), (88, 7, (Desc.dom d).toNat), (95, 1, b2n k.notag),
    (96, 32, (Desc.step d).toNat)] 128 64 _ _
    ⟨by decide, k.status.isLt, by decide, k.tag.isLt, by decide, hs, by decide, b2n_lt _, by decide, b2n_lt _, by decide, b2n_lt _, by decide, (Desc.layer d).isLt,
     by decide, hq, by decide, (Desc.operator d).isLt, by decide, (Desc.opcode d).isLt, by decide, (Desc.dom d).isLt, by decide, b2n_lt _, by decide, (Desc.step d).isLt,
     Nat.le_refl 128⟩ k.result.isLt (by simp)

theorem Cmd.queue_drop (c : Cmd) (t : Tag) (q : Nat) : (c.drop t).queue q = c.queue q := rfl

/-- A completed command's tag is free. -/
theorem Cmd.flight_drop (c : Cmd) (t : Tag) : (c.drop t).flight t = none := by
  simp [Cmd.drop, Cmd.flight, List.find?_eq_none]

theorem Cmd.queue_writeRecord (c : Cmd) (time : W64) (q slot : Nat) (d : Desc) (k : Comp) :
    ((c.writeRecord time q slot d k).queue q).tail = (c.queue q).tail + 1 := by
  simp [Cmd.writeRecord, Cmd.setQueue, Cmd.queue]

theorem Cmd.ring_writeRecord (c : Cmd) (time : W64) (q slot : Nat) (d : Desc) (k : Comp) :
    SMap.get 0 (c.writeRecord time q slot d k).ring (32 * q + (c.queue q).tail.toNat % 32) = compRecord k (!(bit (c.queue q).tail 5)) q slot d time := by
  simp [Cmd.writeRecord, Cmd.setQueue]

/-- What a completion does to its queue, its ring entry and its tag. -/
theorem State.complete_spec (s : State) (f : Flight) (st : Status) (r : Option W64) :
    (s.complete f st r).cmd.flight f.tag = none ∧ ((s.complete f st r).cmd.queue f.queue).tail = (s.cmd.queue f.queue).tail + 1 ∧
    field (SMap.get 0 (s.complete f st r).cmd.ring (32 * f.queue + (s.cmd.queue f.queue).tail.toNat % 32)) 0 16 = st ∧
    (∀ v, r = some v → f.queue < 72 → f.slot < 16 →
      field (SMap.get 0 (s.complete f st r).cmd.ring (32 * f.queue + (s.cmd.queue f.queue).tail.toNat % 32)) 128 64 = v) := by
  refine ⟨Cmd.flight_drop _ _, ?_, ?_, ?_⟩
  · simp only [State.complete, Cmd.queue_drop, State.countComplete_cmd, Cmd.queue_writeRecord]
  · have := Cmd.ring_writeRecord s.cmd s.bnd.timebase f.queue f.slot f.desc
    simp only [State.complete, Cmd.drop, State.countComplete_cmd, State.countComplete_bnd, this, compRecord_status]
  · intro v hv h1 h2
    have := Cmd.ring_writeRecord s.cmd s.bnd.timebase f.queue f.slot f.desc
    subst hv
    simp only [State.complete, Cmd.drop, State.countComplete_cmd, State.countComplete_bnd, this]
    rw [compRecord_result _ _ _ _ _ _ (by omega) h2]; rfl

end Sys2Proof.Machine
end

