-- ==== Sys2Proof/Laws/Requests.lean ====
section
/-! SUPPORT. What the block's own requests can change (R38, R39, R97): the list of requests and what has been sent, and nothing else. -/
namespace Sys2Proof.Machine

/-- `t` is `s` but for the block's own requests and what has been sent. -/
def State.PortOf (s t : State) : Prop := ∃ own out, t = { s with own := own, out := out }

theorem State.PortOf.refl (s : State) : s.PortOf s := ⟨s.own, s.out, rfl⟩
theorem State.PortOf.trans {s t u : State} (a : s.PortOf t) (b : t.PortOf u) : s.PortOf u := by
  obtain ⟨_, _, rfl⟩ := a
  obtain ⟨o, x, rfl⟩ := b
  exact ⟨o, x, rfl⟩
theorem State.PortOf.own (s : State) (l : List OwnReq) : s.PortOf { s with own := l } := ⟨l, s.out, rfl⟩
theorem State.PortOf.fold {α : Type} {f : State → α → State} (h : ∀ (s : State) a, s.PortOf (f s a)) (l : List α) (s : State) : s.PortOf (l.foldl f s) := by
  induction l generalizing s with
  | nil => exact .refl s
  | cons a l ih => exact .trans (h s a) (ih _)

/-- Sending what waits for the port changes the requests and what has been sent. -/
theorem State.PortOf.pump (k : Nat) (s : State) : s.PortOf (State.pump k s) := by
  induction k generalizing s with
  | zero => exact .refl s
  | succ k ih =>
    simp only [State.pump]
    (repeat' split) <;> first | exact .refl s | exact .trans ⟨_, _, rfl⟩ (ih _)

theorem State.PortOf.request (s : State) (p : Purpose) (op : BitVec 4) (a : Addr) (dom : Dom) (d : Line) (m : BitVec 64) :
    s.PortOf (s.request p op a dom d m) := .trans (.own s _) (.pump ..)

theorem State.PortOf.requestAll (s : State) (p : Purpose) (op : BitVec 4) (dom : Dom) (l : List (Addr × Line)) : s.PortOf (s.requestAll p op dom l) := by
  induction l generalizing s with
  | nil => exact .refl s
  | cons e l ih => exact .trans (.request ..) (ih _)

theorem State.PortOf.requestSpan (s : State) (p : Purpose) (dom : Dom) (a n : Nat) : s.PortOf (s.requestSpan p dom a n) := .requestAll ..
theorem State.PortOf.plainWrite (s : State) (p : Purpose) (a : Nat) (bs : List Byte) : s.PortOf (s.plainWrite p a bs) :=
  .fold (fun _ _ => .request ..) ..
theorem State.PortOf.plainOut (s : State) (t : Tag) (a : Nat) (bs : List Byte) : s.PortOf (s.plainOut t a bs) :=
  .trans (.fold (fun _ _ => .request ..) ..) (.own ..)
theorem State.PortOf.plainGo (s : State) (t : Tag) : s.PortOf (s.plainGo t) := .trans (.own ..) (.pump ..)
theorem State.PortOf.ownDrop (s : State) (p : Purpose) : s.PortOf (s.ownDrop p) := .own ..
theorem State.PortOf.restoreGo (s : State) : s.PortOf s.restoreGo := .own ..
theorem State.PortOf.ownUndo (s : State) (t : Tag) : s.PortOf (s.ownUndo t) :=
  .trans (.ownDrop ..) (.trans (.ownDrop ..) (.trans (.own ..) (.trans (.restoreGo _) (.pump ..))))

/-- The end of a command's requests, undone or not, changes nothing but requests. -/
theorem State.PortOf.ownEnd (s : State) (t : Tag) (ok : Bool) : s.PortOf (s.ownEnd t ok) := by
  cases ok
  · exact .ownUndo s t
  · exact .trans (.ownDrop ..) (.ownDrop ..)

end Sys2Proof.Machine
end

