-- ==== Sys2Proof/WellFormed.lean ====
section
/-! DEFINITION. Which commands can come: the ranges that the manual gives their operands. The meanings hold outside them too. -/
namespace Sys2Proof

/-- Seams are 1,050 ± 1 core cycles apart, and 1,024.4 of them under the largest stretch, so a row has from 1,024 to 1,051 (R24, R25). -/
def Wf.rowCycles (n : Nat) : Bool := decide (1024 ≤ n ∧ n ≤ 1051)
/-- Queues 0 to 71 (R84). -/
def Wf.queue (n : Nat) : Bool := decide (n < 72)
/-- Mailboxes 0 to 79 (03, Mailboxes). -/
def Wf.mailbox (n : Nat) : Bool := decide (n < 80)
/-- A write into a mailbox buffer stays within its 256 bytes (R108). -/
def Wf.bufferSpan (off n : Nat) : Bool := decide (1 ≤ n ∧ n ≤ 64 ∧ off + n ≤ 256)
/-- A register access moves 1 to 64 bytes. -/
def Wf.accessSize (n : Nat) : Bool := decide (1 ≤ n ∧ n ≤ 64)
/-- A host's may ask for more, and is malformed then (R652). -/
def Wf.classSize (c : Cls) (n : Nat) : Bool := decide (1 ≤ n ∧ (n ≤ 64 ∨ c = .H))
/-- Knots that are configured (R3). -/
def Wf.knot (n : Nat) : Bool := decide (n < Config.knots)
/-- Chiplet sites that are configured (R3). -/
def Wf.site (n : Nat) : Bool := decide (n < Config.sites)
/-- Scale-out lanes that are configured (R3). -/
def Wf.lane (n : Nat) : Bool := decide (n < Config.lanes)
/-- The digest engine has five cores (R307). -/
def Wf.digestCore (n : Nat) : Bool := decide (n < 5)
/-- Reading words come in slots 1 to 24 (R60). -/
def Wf.sensorSlot (n : Nat) : Bool := decide (1 ≤ n ∧ n ≤ 24)
/-- The slice ports and the block port (02, Hub NoC). -/
def Wf.port (n : Nat) : Bool := decide (n ≤ Config.slices)
/-- At most 4 pulses (R392). -/
def Wf.burn (b : Burn) : Bool := decide (b.pulses.toNat ≤ 4)
/-- A frame has a byte (R247, R678). -/
def Wf.frame (n : Nat) : Bool := decide (1 ≤ n)
/-- A flash channel moves 1 to 65,536 bytes (13, FL_LEN). -/
def Wf.flashLength (n : Nat) : Bool := decide (1 ≤ n ∧ n ≤ 65536)
/-- A memory write carries a DW. -/
def Wf.burst (n : Nat) : Bool := decide (1 ≤ n)
/-- A BAR2 access moves a byte. -/
def Wf.accessBytes (n : Nat) : Bool := decide (1 ≤ n)
/-- RESP 6 and 7 are never sent. -/
def Wf.respCode (n : Nat) : Bool := decide (n ≤ 5)

/-- The operands lie in the ranges that the manual gives them. -/
def Instr.wf : Instr → Bool
  | .alwaysOnPowerUp => true
  | .blockPowerLoss => true
  | .porNFall => true
  | .porNRise _ _ => true
  | .warmReset => true
  | .rowTick cycles => Wf.rowCycles cycles.toNat
  | .thermTripFall => true
  | .thermClampRelease => true
  | .pwrWarnFall => true
  | .memtrnDoneFall _ => true
  | .memtrnDoneRise _ => true
  | .suspendHoldTimeout _ => true
  | .sitePresentFall site => Wf.site site.toNat
  | .snoop port _ => Wf.port port.toNat
  | .readLine _ _ => true
  | .writeLine _ _ _ => true
  | .writeMasked _ _ _ _ => true
  | .zeroQuery _ _ => true
  | .regRead _ size => Wf.accessSize size.toNat
  | .regWrite _ size _ => Wf.accessSize size.toNat
  | .recordArrival _ _ => true
  | .controllerReadReturn _ _ _ _ => true
  | .reKnitCommit _ _ => true
  | .reKnitHoldTimeout _ _ => true
  | .nocResponse _ resp _ _ => Wf.respCode resp.toNat
  | .grdProtWrite _ _ => true
  | .grdSyncReq _ _ => true
  | .grdSyncDone => true
  | .grdScrubReq _ _ => true
  | .scrubPhysPassEnd => true
  | .scrubComplete => true
  | .claimPassComplete _ => true
  | .sqSubmit _ queue _ => Wf.queue queue.toNat
  | .descriptorDispatch queue => Wf.queue queue.toNat
  | .dbSet _ mb _ _ => Wf.mailbox mb.toNat
  | .mbBufferWrite c mb _ off size _ => Wf.mailbox mb.toNat && (decide (c = .H ∧ 1 ≤ size.toNat) || Wf.bufferSpan off.toNat size.toNat)
  | .send _ mb _ _ => Wf.mailbox mb.toNat
  | .done _ mb _ => Wf.mailbox mb.toNat
  | .mbLiveTimeout mb _ => Wf.mailbox mb.toNat
  | .knotSignal _ => true
  | .knotWait _ => true
  | .knotReset _ => true
  | .knotProbe _ => true
  | .knotRegisterSignal _ knot _ => Wf.knot knot.toNat
  | .overflowWaiterMet knot => Wf.knot knot.toNat
  | .knotStall => true
  | .hangReport => true
  | .keyWrite _ => true
  | .keyGenerate _ => true
  | .keyDerive _ => true
  | .keyUnwrap _ => true
  | .keyWrap _ => true
  | .keyErase _ => true
  | .keyEraseFinish _ => true
  | .keyLoadIde _ => true
  | .keyRandom _ => true
  | .sknMeasCommit _ => true
  | .entropyStartupDone => true
  | .entropyTestFail _ => true
  | .esRestart _ => true
  | .digOpen _ => true
  | .digOpenGrant => true
  | .digUpdate _ => true
  | .digFinish _ => true
  | .digCompare _ => true
  | .digClose _ => true
  | .digestCoreSwitch core => Wf.digestCore core.toNat
  | .pkeSign _ => true
  | .pkeVerify _ => true
  | .pkePubkey _ => true
  | .pkeKeygen _ => true
  | .pkeEncaps _ => true
  | .pkeDecaps _ => true
  | .pkeEcdh _ => true
  | .pkeEphClear _ => true
  | .pkeAbort _ => true
  | .pkeTakeUp => true
  | .pkeComplete _ => true
  | .pkeClearingEnd => true
  | .pkeSlotLenWrite _ _ => true
  | .wgOpen _ => true
  | .wgLoad _ => true
  | .wgContextStart => true
  | .wgDestCheck _ => true
  | .wgChunk _ => true
  | .wgRetryReissue _ _ => true
  | .partClaim _ => true
  | .partKey _ => true
  | .partStart _ => true
  | .partMigrate _ => true
  | .partFreeze _ => true
  | .partThaw _ => true
  | .partReset _ => true
  | .partBindoff _ => true
  | .partRelease _ => true
  | .linkJob _ => true
  | .linkRekey _ => true
  | .linkEnd _ => true
  | .linkProbe _ => true
  | .linkTxFrame lane _ _ frame => Wf.lane lane.toNat && Wf.frame frame.length
  | .linkRxFrame lane frame => Wf.lane lane.toNat && Wf.frame frame.length
  | .reorderFlush lane => Wf.lane lane.toNat
  | .fiModeWrite _ _ => true
  | .lnkFiWrite _ lane _ => Wf.lane lane.toNat
  | .dumpArm _ => true
  | .dumpPoint _ => true
  | .dumpDisarm _ => true
  | .dumpRun => true
  | .telemMark _ => true
  | .telemRead _ => true
  | .telemDrain _ => true
  | .markerPost _ size _ => Wf.accessSize size.toNat
  | .siteAddPost _ _ size _ => Wf.accessSize size.toNat
  | .pcSamplePost _ size _ => Wf.accessSize size.toNat
  | .regionCyclesPost _ _ size _ => Wf.accessSize size.toNat
  | .intAddPost _ _ size _ => Wf.accessSize size.toNat
  | .testUnit _ => true
  | .testProbe _ => true
  | .testFence _ => true
  | .deferredTestStart _ => true
  | .selfTestStart => true
  | .selfTestEnd _ _ => true
  | .calderaCopyEnd _ => true
  | .ventReport _ size _ => Wf.accessSize size.toNat
  | .ventReportExpire _ => true
  | .sntAppend _ _ => true
  | .sntCkptWrite _ _ => true
  | .sinterCheckpoint => true
  | .wearLedgerCommit _ _ => true
  | .compaction burn => Wf.burn burn
  | .flRead _ _ _ len _ => Wf.flashLength len.toNat
  | .flProgram _ _ _ len _ => Wf.flashLength len.toNat
  | .flErase _ _ _ => true
  | .flOpComplete _ => true
  | .otpRead _ _ _ => true
  | .otpProgram _ _ => true
  | .otpReburn _ _ => true
  | .otpCheck _ _ => true
  | .otpOpComplete burn => Wf.burn burn
  | .lcSessionOpen _ => true
  | .lcTicketVerified burn => Wf.burn burn
  | .lcTransGo _ _ => true
  | .lcTransitionPhase _ _ _ _ => true
  | .lcTransitionEnd => true
  | .lcDbgNew _ => true
  | .lcDbgGrant _ => true
  | .lcGrantOpen burn => Wf.burn burn
  | .lcDbgLock _ => true
  | .lcGrantExpire => true
  | .lcChallengeExpire => true
  | .castOnStage _ _ => true
  | .co8Timeout => true
  | .co9Timeout => true
  | .castOnWatchdogExpire => true
  | .coreFault _ => true
  | .runSram _ => true
  | .rootReq burns => burns.all Wf.burn
  | .blockReady => true
  | .coWaveGo _ => true
  | .waveBegin => true
  | .waveRailTimeout => true
  | .waveSettleOpen => true
  | .waveSettleDone => true
  | .waveSettleTimeout => true
  | .waveResume => true
  | .reRun _ => true
  | .reBankReq _ => true
  | .reClear _ => true
  | .reClearDone => true
  | .reParamCommit _ => true
  | .nop => true
  | .gAdd _ _ _ _ _ => true
  | .gSub _ _ _ _ _ => true
  | .gAnd _ _ _ _ _ => true
  | .gOr _ _ _ _ _ => true
  | .gXor _ _ _ _ _ => true
  | .gShl _ _ _ _ _ => true
  | .gShr _ _ _ _ _ => true
  | .gSra _ _ _ _ _ => true
  | .gMin _ _ _ _ _ => true
  | .gMax _ _ _ _ _ => true
  | .gMinu _ _ _ _ _ => true
  | .gMaxu _ _ _ _ _ => true
  | .gAdds _ _ _ _ _ => true
  | .gSubs _ _ _ _ _ => true
  | .gAddi _ _ _ _ _ => true
  | .gAndi _ _ _ _ _ => true
  | .gShli _ _ _ _ _ => true
  | .gShri _ _ _ _ _ => true
  | .gSrai _ _ _ _ _ => true
  | .gLdi _ _ _ _ => true
  | .gLdih _ _ _ _ => true
  | .gLidx _ _ _ _ => true
  | .gMul _ _ _ _ => true
  | .gMulh _ _ _ _ => true
  | .gQmul _ _ _ _ => true
  | .gQmac _ _ _ _ => true
  | .gMuli _ _ _ _ => true
  | .gTmac _ _ _ _ _ => true
  | .gTmacz _ _ _ _ _ => true
  | .gTrq _ _ _ _ _ => true
  | .gTst32 _ _ _ => true
  | .gTld32 _ _ _ _ => true
  | .gLd64 _ _ _ _ _ => true
  | .gLd32s _ _ _ _ _ => true
  | .gLd32u _ _ _ _ _ => true
  | .gLd8s _ _ _ _ _ => true
  | .gSt64 _ _ _ _ => true
  | .gSt32 _ _ _ _ => true
  | .gSt16 _ _ _ _ => true
  | .gSt8 _ _ _ _ => true
  | .gLd64Post _ _ _ _ _ => true
  | .gLd32sPost _ _ _ _ _ => true
  | .gLd32uPost _ _ _ _ _ => true
  | .gLd8sPost _ _ _ _ _ => true
  | .gSt64Post _ _ _ _ => true
  | .gSt32Post _ _ _ _ => true
  | .gSt16Post _ _ _ _ => true
  | .gSt8Post _ _ _ _ => true
  | .gPrb _ _ _ => true
  | .gPrbx _ _ _ _ => true
  | .gPst _ _ _ => true
  | .gPstx _ _ _ _ => true
  | .gDbset _ _ _ => true
  | .gDbsetr _ _ _ => true
  | .gDbclr _ _ _ => true
  | .gKsig _ _ _ => true
  | .gSlog _ _ _ => true
  | .gVack _ _ => true
  | .gRailok _ => true
  | .gPset _ _ _ _ _ => true
  | .gPseti _ _ _ _ _ => true
  | .gPlog _ _ _ _ _ => true
  | .gLoop _ _ => true
  | .gRowEnd => true
  | .illegalStitch _ _ => true
  | .sensorReading slot _ => Wf.sensorSlot slot.toNat
  | .avsReadback _ _ _ _ => true
  | .govForceHoldWrite _ _ => true
  | .holdExit => true
  | .govRailWrite _ _ _ _ => true
  | .loopbackTrained => true
  | .bypassRelease => true
  | .ringTrained => true
  | .ringTrainTimeout => true
  | .ringRetry => true
  | .laneLockLoss _ => true
  | .geyserFrame _ frame _ => Wf.frame frame.length
  | .enum _ _ _ => true
  | .geyserResendTimeout _ _ => true
  | .ackOnlySend _ _ => true
  | .gyHello _ => true
  | .gyFinish _ => true
  | .gySessionIdleTimeout _ => true
  | .gyRegRead _ _ => true
  | .gyRegWrite _ _ => true
  | .gyCmd _ _ => true
  | .gyReport _ _ => true
  | .gyLog _ _ => true
  | .gyFiSet _ _ => true
  | .gyClose _ _ => true
  | .gyFiWrite _ _ => true
  | .gyFiSecond => true
  | .updBegin _ _ => true
  | .updData _ _ _ => true
  | .updEnd _ _ => true
  | .updDiscard _ _ => true
  | .updActivate _ _ => true
  | .updFloor _ _ burns => burns.all Wf.burn
  | .updStatus _ _ => true
  | .activate _ => true
  | .recStatus _ => true
  | .recBegin _ => true
  | .recData _ _ => true
  | .recEnd _ => true
  | .rptReq mb => Wf.mailbox mb.toNat
  | .keyReq mb => Wf.mailbox mb.toNat
  | .kemHolderExpire _ => true
  | .siteAttestation site => Wf.site site.toNat
  | .chipletSpdmResponse site _ => Wf.site site.toNat
  | .chipletSpdmTimeout site => Wf.site site.toNat
  | .attSiteTrust _ _ => true
  | .spdmRequest _ => true
  | .getMeasurements _ _ => true
  | .keyProg _ _ _ _ _ _ _ => true
  | .kSetGo _ _ _ _ => true
  | .kSetStop _ _ _ _ => true
  | .query _ => true
  | .containmentEnter _ => true
  | .hwContRead _ => true
  | .hwContRelease _ _ => true
  | .hwStrOpen _ _ => true
  | .hwStrClose _ _ => true
  | .hwStrAbort _ _ => true
  | .streamApertureWrite _ _ dws _ => Wf.burst dws.length
  | .streamBurstWrite _ _ dws _ _ => Wf.burst dws.length
  | .streamIdleTimeout _ => true
  | .hwWinWrite _ _ _ _ => true
  | .translationAccess _ _ bytes => Wf.accessBytes bytes.length
  | .registerWrite c _ size _ _ => Wf.classSize c size.toNat
  | .registerRead c _ size => Wf.classSize c size.toNat
  | .sitePresentRise site => Wf.site site.toNat
  | .thermTripRise => true
  | .pwrWarnRise => true
  | .fecLockChange _ _ => true
  | .gyChallengeExpire _ => true
  | .digBlockAbsorbed core _ => Wf.digestCore core.toNat

end Sys2Proof
end

