-- ==== Sys2Proof/Tests/Slice0.lean ====
section
/-! SUPPORT. Own tests: an ill-formed command for each check of WellFormed, small effects that the manual works out, and for each
statement with hypotheses a concrete state and operands that meet them (wit_). Clauses whose hypotheses name an outcome of an
uninterpreted function (stored certificates and SPDM: log entries 32 and 33) or a signature that a chain or a report holds have no witness that the
kernel could evaluate; the opening of a session in
GY_FINISH has none because R690 keys the blobs with a hash over the blobs themselves (log entry 34). -/
namespace Sys2Proof.Machine.Tests
-- The kernel checks each theorem before the next one begins, so that the long ones do not pile up.
set_option Elab.async false

/-! ### Helpers -/

def nocHdr : NocHdr := { addr := 0, dom := 5, epoch := 0, site := 3, txid := 9 }
def dsc (fs : List (Nat × Nat)) : Desc := BitVec.ofNat 512 (packN fs)
def flight (q : Nat) (d : Desc) : Flight := { tag := 7, queue := q, slot := 2, desc := d, need := 1 }
def holding (f : Flight) : State := { cmd := { flights := [f] } }

/-! ### Ill-formed commands -/

theorem test_wf_rowCycles : (Instr.rowTick 1023).wf = false ∧ (Instr.rowTick 1052).wf = false ∧ (Instr.rowTick 1024).wf = true ∧ (Instr.rowTick 1051).wf = true := by decide
theorem test_wf_queue : (Instr.sqSubmit .K 72 1).wf = false ∧ (Instr.descriptorDispatch 72).wf = false ∧ (Instr.descriptorDispatch 71).wf = true := by decide
theorem test_wf_mailbox : (Instr.dbSet .K 80 false 1).wf = false ∧ (Instr.send .K 79 false 1).wf = true := by decide
theorem test_wf_bufferSpan : (Instr.mbBufferWrite .K 1 false 250 8 0).wf = false ∧ (Instr.mbBufferWrite .K 1 false 248 8 0).wf = true := by decide
theorem test_wf_accessSize : (Instr.registerRead .K 0 0).wf = false ∧ (Instr.registerRead .K 0 65).wf = false ∧ (Instr.registerRead .H 0 127).wf = true ∧ (Instr.registerRead .K 0 64).wf = true := by decide
theorem test_wf_knot : (Instr.overflowWaiterMet 65536).wf = false ∧ (Instr.overflowWaiterMet 65535).wf = true := by decide
theorem test_wf_site : (Instr.siteAttestation 24).wf = false ∧ (Instr.siteAttestation 23).wf = true := by decide
theorem test_wf_lane : (Instr.reorderFlush 32).wf = false ∧ (Instr.reorderFlush 31).wf = true := by decide
theorem test_wf_digestCore : (Instr.digestCoreSwitch 5).wf = false ∧ (Instr.digestCoreSwitch 4).wf = true := by decide
theorem test_wf_sensorSlot : (Instr.sensorReading 0 0).wf = false ∧ (Instr.sensorReading 25 0).wf = false ∧ (Instr.sensorReading 24 0).wf = true := by decide
theorem test_wf_port : (Instr.snoop 65 0).wf = false ∧ (Instr.snoop 64 0).wf = true := by decide
theorem test_wf_burn : (Instr.otpOpComplete { pulses := 5 }).wf = false ∧ (Instr.updFloor 1 [] [{ pulses := 5 }]).wf = false := by decide
theorem test_wf_frame : (Instr.geyserFrame 0 [] false).wf = false ∧ (Instr.geyserFrame 0 [0] false).wf = true := by decide
theorem test_wf_flashLength : (Instr.flRead .K false 0 0 0).wf = false ∧ (Instr.flRead .K false 0 65537 0).wf = false ∧ (Instr.flRead .K false 0 65536 0).wf = true := by decide
theorem test_wf_burst : (Instr.streamApertureWrite 0 0 [] true).wf = false ∧ (Instr.streamApertureWrite 0 0 [1] true).wf = true := by decide
theorem test_wf_accessBytes : (Instr.translationAccess 0 true []).wf = false ∧ (Instr.translationAccess 0 true [none]).wf = true := by decide
theorem test_wf_respCode : (Instr.nocResponse 0 6 0 0).wf = false ∧ (Instr.nocResponse 0 5 0 0).wf = true := by decide

/-! ### Witnesses: states and operands that meet the statements' hypotheses -/

def up : Bnd := { porN := true, everReady := true, ready := true, coStage := 12 }
/-- A command in flight of opcode `op` from queue `q` with the further descriptor fields. -/
def fl (op q : Nat) (fs : List (Nat × Nat)) : Flight := flight q (dsc ((0, op) :: fs))
/-- A block at READY that holds one command. -/
def busy (f : Flight) : State := { bnd := up, cmd := { flights := [f] } }
def hdrOf (d : Dom) (site : BitVec 5) (a : Addr) : NocHdr := { addr := a, dom := d, epoch := 0, site := site, txid := 9 }

/-- Partition 5 running with its key, window of 1 GiB, slice 0 enabled with the record `r` of page 0 cached. -/
def sealedPage (r : PageRec) : State :=
  { bnd := up, parts := [(5, { state := .running, kgen := 1 })]
    guard := { size := 1, locked := true, keys := [(5, { dataKey := 3, macKey := 4, h := 5, kgen := 1, valid := true })]
               slices := [(0, { en := true, cache := [{ page := 0, pr := r, dirty := false }] })] } }
def own5 : PageRec := { isSealed := true, pid := 5, kgen := 1, zmap := 2 }

theorem wit_StepRunsTheCommandInFront : ({ pending := [.warmReset, .nop] } : State).pending = .warmReset :: [.nop] := by decide
theorem wit_ColdResets_porNFall : ({ bnd := up } : State).bnd.porN = true := by decide
theorem wit_PorRiseAndWarmReset : State.reset.bnd.porN = false ∧ (let s : State := { bnd := up }; s.bnd.porN = true ∧ s.bnd.everReady = true ∧ s.bnd.ready = true) ∧
    ¬ (State.reset.bnd.porN = true ∧ State.reset.bnd.everReady = true ∧ State.reset.bnd.ready = true) := by decide
/-- At reset, and in the last row that TIMEBASE can number with another row behind it. -/
theorem wit_RowTickAdvancesToTheNextRow : 1000 * (State.reset.row + 1) < 2 ^ 64 ∧
    (let s : State := { bnd := { timebase := 18446744073709550999 } }; s.row = 18446744073709550 ∧ 1000 * (s.row + 1) < 2 ^ 64) := by decide +kernel
theorem wit_PinsAndTheirLevels_pwrWarn : State.reset.stewardRuns = false ∧ State.reset.snt.pend = 0 := by decide +kernel
theorem wit_PinsAndTheirLevels_slices :
    (let s : State := { bnd := { up with memtrn := 2 ^ 63 } }; 8 < s.bnd.coStage.toNat ∧ bit s.bnd.memtrn 63 = true) ∧
    (let q : SliceReq := { hdr := nocHdr, op := .read }
     let s : State := { guard := { slices := [(63, { suspended := true, held := [q], knitHeld := [q] })] } }
     (s.slice 63).held = q :: [] ∧ (s.slice 63).knitHeld.find? (fun q => q.hdr.txid = 9 && q.op ≠ .query) = some q) ∧
    (let q : SliceReq := { hdr := nocHdr, op := .write 1 1 false }
     let s : State := { guard := { slices := [(63, { knitHeld := [q], knits := [{ page := 0, key := {}, newMajor := 2 }] })] } }
     (s.slice 63).knits.any (fun k => k.page = pageOf q.hdr.addr) = true ∧ (s.slice 63).waiting = []) ∧
    (let s : State := { guard := { slices := [(63, { suspended := true })] } }; (s.slice 63).suspended = true ∧ (s.slice 63).held = [] ∧ (s.slice 63).port = []) ∧
    (23#5).toNat < Config.sites := by decide +kernel
theorem wit_ThermalClampReleases : (let s : State := { bnd := { up with clamp := true, thermHighRows := 1000 } }
      s.bnd.clamp = true ∧ s.bnd.thermTrip = false ∧ 1000 ≤ s.bnd.thermHighRows) ∧
    (let s : State := { bnd := { up with clamp := true, thermHighRows := 999 } }; ¬ (s.bnd.clamp = true ∧ s.bnd.thermTrip = false ∧ 1000 ≤ s.bnd.thermHighRows)) := by decide
/-- A read of line 1, whose ZMAP bit is set. -/
theorem wit_SealedZeroLinesAnswerZero : let s := sealedPage own5; let h := hdrOf 5 31 64
    s.Admits 0 h ∧ s.Owns 0 h ∧ bit ((s.touch 0 (pageOf h.addr)).pageRec 0 (pageOf h.addr)).zmap (lineOf h.addr) = true := by
  unfold State.Admits State.Owns; decide +kernel
theorem wit_ZeroWritesSetTheZeroMap : let s := sealedPage own5; let h := hdrOf 5 31 128
    s.Admits 0 h ∧ s.Owns 0 h ∧ h.epoch = (s.part h.dom.toNat).epoch ∧ (s.slice 0).knitting 0 = false ∧ ((s.touch 0 (pageOf h.addr)).pageRec 0 (pageOf h.addr)).weight = false := by
  unfold State.Admits State.Owns; decide +kernel
/-- A write behind the re-knit of its page. -/
theorem wit_ZeroWritesSetTheZeroMap_knit : let u := sealedPage own5; let h := hdrOf 5 31 128
    let s : State := { u with guard := { u.guard with slices := [(0, { u.slice 0 with knits := [{ page := 0, key := {}, newMajor := 2 }] })] } }
    s.Admits 0 h ∧ s.Owns 0 h ∧ h.epoch = (s.part h.dom.toNat).epoch ∧ (s.slice 0).knitting (pageOf h.addr) = true ∧ ((s.touch 0 0).pageRec 0 0).weight = false := by
  unfold State.Admits State.Owns; decide +kernel
/-- MINOR 62 of line 1, the last below 63. -/
theorem wit_SealedWritesEncrypt : let s := sealedPage { own5 with minor := 62 * 64 }; let h := hdrOf 5 31 64
    let r := (s.touch 0 (pageOf h.addr)).pageRec 0 (pageOf h.addr)
    s.Admits 0 h ∧ s.Owns 0 h ∧ h.epoch = (s.part h.dom.toNat).epoch ∧ (s.slice 0).knitting 0 = false ∧ carved 0 = false ∧ r.weight = false ∧ minorOf r (lineOf h.addr) = 62 ∧
    (1 : Line) ≠ 0 ∧ (1 : BitVec 64) ≠ 0 ∧ (1 : BitVec 64) ≠ BitVec.allOnes 64 ∧ bit r.zmap (lineOf h.addr) = true ∧ maskBytes 0 (1 : Line) 1 ≠ 0 ∧ bit s.bnd.memtrn 0 = false ∧ (s.slice 0).port = [] ∧
    bit ({ s.bnd with memtrn := 1 } : Bnd).memtrn 0 = true := by
  unfold State.Admits State.Owns; decide +kernel
/-- A sealed read outstanding, with the tag it returns under and with another; the same without a tag; a plain read; a re-knit read. -/
theorem wit_SealedReadsReturn :
    let q : SliceReq := { hdr := hdrOf 5 31 64, op := .read, key := { macKey := 4, h := 5 } }
    let c : CtlRead := { id := 3, rid := some 255, purpose := .line q, addr := 1, major := 0, minor := 1, tag := none, data := none }
    let st (c : CtlRead) : State := { guard := { size := 1, slices := [(0, { en := true, reads := [c] })] } }
    let tag := lineTag q.key 1 0 1 5 (7 : Line)
    carved 0 = false ∧ ((st c).slice 0).reads.find? (fun r => r.rid = some 255) = some c ∧ ((st c).slice 0).reads.find? (fun r => r.rid = some 254) = none ∧ ((st c).slice 0).port = [] ∧
    field (tag.setWidth 64 : W64) 0 56 = tag ∧ field ((tag + 1).setWidth 64 : W64) 0 56 ≠ tag ∧ (st c).guard.inWindow (c.addr / 64) = true ∧
    (let x := { c with purpose := .plain q }; ((st x).slice 0).reads.find? (fun r => r.rid = some 255) = some x ∧ q.op = .read) ∧
    (let k : Knit := { page := 0, key := q.key, newMajor := 2 }; let x := { c with purpose := .knit 0 1 }
     let s : State := { guard := { size := 1, slices := [(0, { en := true, reads := [x], knits := [k] })] } }
     (s.slice 0).reads.find? (fun r => r.rid = some 255) = some x ∧ (s.slice 0).knits.find? (fun k => k.page = 0) = some k ∧ lineTag k.key 1 0 1 (s.pageRec 0 0).pid.toNat (7 : Line) = lineTag k.key 1 0 1 0 7) := by
  decide +kernel
theorem wit_SliceWorkEnds : (let s : State := { guard := { slices := [(63, { fetches := [2 ^ 40 - 1] })] } }
      (s.slice 63).fetches = [(BitVec.allOnes 40).toNat] ∧ (s.slice 63).waiting = [] ∧ (0#40).toNat ∉ (s.slice 63).fetches) ∧
    (let k : Knit := { page := 6, key := {}, newMajor := 2, done := BitVec.allOnes 64 - 1 }
     let s : State := { guard := ({ size := 1, slices := [(1, { knits := [k] })] }   : Guard).putRecord 6 { zmap := 1 } }
     (s.slice 1).knits = [k] ∧ k.page = (6#40).toNat ∧ s.guard.inWindow (6#40).toNat = true ∧ (s.slice 1).knitHeld = [] ∧ (s.slice 1).waiting = [] ∧
     k.done ||| (s.pageRec 1 6).zmap = BitVec.allOnes 64) := by decide +kernel
/-- The last served domain at a disabled slice; the first and last unserved domain and site. -/
theorem wit_SlicesRefuseAndRetryByRule : (let h := hdrOf 65 23 0; hdrBarred h = false ∧ (State.reset.slice 0).en = false) ∧ ({ hdrOf 5 31 0 with rsvdOp := true } : NocHdr).rsvdOp = true ∧
    66 ≤ (hdrOf 66 0 0).dom.toNat ∧ (24 ≤ (hdrOf 5 24 0).site.toNat ∧ (hdrOf 5 29 0).site.toNat ≤ 29) := by decide +kernel
theorem wit_GuardProtectionSyncAndScrub_registers : State.reset.guard.locked = false ∧ (let s : State := { guard := { locked := true } }; Cls.H ≠ .K ∨ s.guard.locked = true) ∧
    State.reset.guard.syncBusy = false ∧ bit (128 : W64) 7 = true ∧ (let s : State := { guard := { syncBusy := true } }; s.guard.syncBusy = true ∧ s.guard.syncRunAll = false) ∧
    State.reset.guard.scrubBusy = false ∧ bit (256 : W64) 8 = true := by decide
theorem wit_GuardProtectionSyncAndScrub_scrub :
    (let s : State := { parts := [(5, { state := .bindingOff })], guard := { synced := 32 } }; s.scrubAllowed false 5 = true) ∧ State.reset.scrubAllowed false 5 = false ∧
    (let s : State := { guard := { scrubBusy := true, scrubPhase := true } }; s.guard.scrubBusy = true ∧ s.guard.scrubPhase = true) ∧
    (let s : State := { guard := { scrubBusy := true } }; s.guard.scrubBusy = true ∧ s.guard.scrubPhase = false) ∧
    (let s : State := { guard := { size := 1, scrubBusy := true, scrubPhase := true, scrubDom := 5 }, parts := [(5, { regions := [(0, { base := 0, size := 1 })] })] }
     s.scrubScope ≠ []) := by decide +kernel
theorem wit_ResponsesReachTheUnitThatAsked : (∀ r ∈ State.reset.own, r.live = true → r.txid ≠ 4095) ∧
    6 ≤ (6#3).toNat ∧
    (let r : OwnReq := { txid := 0, purpose := .host, op := 0, addr := 0, dom := 64, epoch := 0, mask := 1, data := 0, sent := true }
     let s : State := { own := [r] }; s.own = [r] ∧ r.live = true ∧ r.purpose = .host ∧ r.op = 0 ∧ respOf 0 = some .ok ∧ respOf 1 = some .retry ∧ s.sleeps r = true) ∧
    (let r : OwnReq := { txid := 4095, purpose := .abandoned, op := 0, addr := 0, dom := 64, epoch := 0, mask := 1, data := 0, sent := true }
     let g : OwnReq := { r with txid := 0 }; let s : State := { own := [g, r] }; s.own = [g] ++ r :: [] ∧ r.live = true ∧ (∀ q ∈ [g], q.live = true → q.txid ≠ r.txid) ∧ s.sleeps r = false) := by decide +kernel
/-- Keeper's queue 71 with KNOT_PROBE at its head, and with an undefined opcode. -/
theorem wit_QueuesSubmitDispatchAndRefuse : (State.reset.reaches .K (0x0400008 + 4096 * 71) = true ∧ queueAllows 71 .K = true ∧ queueAllows 71 .H = false) ∧
    (let s : State := { bnd := up, cmd := { queues := [(71, { en := true, order := [15] })], slots := [(16 * 71 + 15, dsc [(0, 0x63)])] } }
     (s.cmd.queue 71).order = 15 :: [] ∧ waitCause s 71 (s.cmd.slot 71 15) = 0 ∧ refusal s 71 (s.cmd.slot 71 15) = none) ∧
    (let s : State := { bnd := up, cmd := { queues := [(71, { en := true, order := [15] })], slots := [(16 * 71 + 15, dsc [(0, 0xFF)])] } }
     (s.cmd.queue 71).order = 15 :: [] ∧ waitCause s 71 (s.cmd.slot 71 15) = 0 ∧ refusal s 71 (s.cmd.slot 71 15) = some St.cmdOpcode ∧ (15 : Nat) < 16) := by decide +kernel
/-- The round behind a visit of queue 71 reaches queue 2 where queue 1 could not dispatch. -/
theorem wit_QueuesRound : (let s : State := { cmd := { visited := 71, couldRun := [2, 70] } }; s.RoundAt 2) ∧ State.reset.RoundAt 71 ∧ waitCause State.reset 71 0 ≠ 0 := by
  refine ⟨?_, ?_, by decide +kernel⟩ <;> (unfold State.RoundAt; decide +kernel)
theorem wit_MailboxMessagesFollowTheHandshake :
    let s : State := { bnd := up, cmd := { mailboxes := [(79, { en := true, down := { highWater := 256 }, up := { full := true } })] } }
    (79#7).toNat < 80 ∧ (s.cmd.mailbox 79).en = true ∧ s.reaches .K (mbPage 79) = true ∧ mbSender (s.cmd.mailbox 79) 79 true .K = true ∧
    ((s.cmd.mailbox 79).dir true).full = false ∧ (192#8).toNat + 64 ≤ 256 ∧ 1 ≤ (256#9).toNat ∧ (256#9).toNat ≤ 256 ∧ ((s.cmd.mailbox 79).dir true).highWater = 256 ∧
    256 < (257#9).toNat ∧ mbReceiver (s.cmd.mailbox 79) 79 false .K = true ∧ ((s.cmd.mailbox 79).dir false).full = true ∧ mbSender (s.cmd.mailbox 79) 79 true .H = false := by decide +kernel
theorem wit_MailboxLiveTimeout : (let s : State := { bnd := { up with timebase := 4000 }, cmd := { mailboxes := [(0, { en := true, up := { timeoutRows := 3 } })] } }
      ((s.cmd.mailbox 0).dir false).timeoutRows.toNat + 1 ≤ mbDeadTicks s ((s.cmd.mailbox 0).dir false)) ∧
    (let s : State := { cmd := { mailboxes := [(0, { up := { live := true } })] } }; (0 : Nat) < 80 ∧ mbDeadTicks s ((s.cmd.mailbox 0).dir false) < ((s.cmd.mailbox 0).dir false).timeoutRows.toNat + 1) := by decide +kernel
/-- A partition's own knot 65,535 with the largest sum that fits, and with one more. -/
theorem wit_KnotFunctionsOnAnOwnedKnot :
    let knot (f : Flight) : State := { bnd := up, cmd := { flights := [f], knots := [(65535, { value := 2 ^ 48 - 2, owner := 5, active := true })], mailboxes := [(5, { en := true })] } }
    let sig := fl 0x60 5 [(8, 5), (192, 65535), (384, 1)]
    let wait := fl 0x61 5 [(8, 5), (192, 65535), (384, 2 ^ 48 - 2 + 5 * 2 ^ 48 + 30 * 2 ^ 55)]
    let res := fl 0x62 5 [(8, 5), (192, 65535)]
    let probe := fl 0x63 5 [(8, 5), (192, 65535)]
    ((knot sig).Runs 7 0x60 sig ∧ knotCheck (knot sig).cmd (qClass 5) 5 65535 false = none ∧ ((knot sig).cmd.knot 65535).value.toNat + (Desc.argField sig.desc 0 48).toNat < 2 ^ 48) ∧
    ((knot wait).Runs 7 0x61 wait ∧ waitMailboxOk (knot wait).cmd (qClass 5) 5 (Desc.argField wait.desc 48 7).toNat (Desc.argField wait.desc 55 5).toNat = true ∧
      (Desc.argField wait.desc 0 48).toNat ≤ ((knot wait).cmd.knot 65535).value.toNat) ∧
    ((knot res).Runs 7 0x62 res ∧ bit (Desc.arg res.desc) 56 = false ∧ knotCheck (knot res).cmd (qClass 5) 5 65535 false = none ∧ ∀ e ∈ (knot res).cmd.knots, e.2.spill = []) ∧
    (let asg := fl 0x62 71 [(8, 5), (192, 65535), (432, 64), (440, 1)]; (knot asg).Runs 7 0x62 asg ∧ (65535 : Nat) < Config.knots ∧ bit (Desc.arg asg.desc) 56 = true ∧ qClass asg.queue = .keeper ∧
      (knot asg).knotRanged 65535 = false ∧ Desc.argField asg.desc 48 7 = 64 ∧ qClass (5 : Nat) ≠ .keeper) ∧
    ((knot probe).Runs 7 0x63 probe ∧ knotCheck (knot probe).cmd (qClass 5) 5 65535 true = none) := by unfold State.Runs; decide +kernel
theorem wit_KnotOverflowLeavesTheValue :
    let f := fl 0x60 5 [(8, 5), (192, 65535), (384, 2)]
    let s : State := { bnd := up, cmd := { flights := [f], knots := [(65535, { value := 2 ^ 48 - 2, owner := 5, active := true })] } }
    s.Runs 7 0x60 f ∧ knotCheck s.cmd (qClass 5) 5 65535 false = none ∧ 2 ^ 48 - 1 < (s.cmd.knot 65535).value.toNat + (Desc.argField f.desc 0 48).toNat ∧
    s.reaches .K (0x0200000 + 16 * 65535) = true ∧ 2 ^ 48 - 1 < (s.cmd.knot 65535).value.toNat + (field (2 : W64) 0 48).toNat := by unfold State.Runs; decide +kernel
theorem wit_KnotsByRegisterAndTheirStalls :
    (let s : State := { bnd := up }; s.reaches .K (0x0200000 + 16 * 65535) = true ∧ knotCheck s.cmd (knotAccess .K).1 (knotAccess .K).2 65535 false = none ∧
      (s.cmd.knot 65535).value.toNat + (field (BitVec.ofNat 64 (2 ^ 48 - 1)) 0 48).toNat < 2 ^ 48 ∧ knotCheck s.cmd (knotAccess .K).1 (knotAccess .K).2 65536 false ≠ none) ∧
    (let w : Waiter := { threshold := 9, mailbox := 71, doorbell := 30, dom := 64, handle := 0xFFFF, seq := 0 }
     let s : State := { cmd := { knots := [(65535, { value := 9, hw := [], spill := [w] })], mailboxes := [(71, { en := true })] } }
     s.cmd.knots = [(65535, { s.cmd.knot 65535 with hw := [], spill := [w] })] ∧ w.threshold.toNat ≤ (s.cmd.knot 65535).value.toNat ∧ (s.cmd.mailbox w.mailbox.toNat).en = true) ∧
    (let w : Waiter := { threshold := 9, mailbox := 71, doorbell := 30, dom := 64, handle := 0xFFFF, seq := 0 }
     let s : State := { cmd := { stallEn := true, knots := [(0, { hw := [w] })] } }; s.stallDue = true) ∧
    State.reset.stallDue = false ∧ (let s : State := { vent := { hangs := 1 } }; 0 < s.vent.hangs) := by decide +kernel

/-- Skein with its entropy source open, a derive key in slot 25, a wrap key in slot 26, an exportable key in slot 24, an IDE key in slot 27, and slot 3 valid; all of domain 5. -/
def keys : Skein :=
  { esState := 2, drbg0 := { ready := true }, drbg1 := { ready := true }
    slots := [(3, { valid := true, usage := 3, engines := 1, owner := 5 }), (24, { valid := true, usage := 0, owner := 5, exportable := true, mat := 9 }),
      (25, { valid := true, usage := 3, engines := 1, owner := 5, mat := 11 }), (26, { valid := true, usage := 2, engines := 8, owner := 5, mat := 12 }),
      (27, { valid := true, usage := 1, engines := 256, owner := 5 })] }
def keyed (f : Flight) : State := { busy f with skn := keys }
/-- A KEY function of domain 5 from queue 71 on target 63, attributes OWNER 5 and LEN 32 bytes. -/
def keyFn (op : Nat) (fs : List (Nat × Nat)) : Flight := fl op 71 ([(8, 5), (192, 2 ^ 63), (384, 63), (416, 5 * 2 ^ 11)] ++ fs)

theorem wit_KeyFunctionsFillTheirTarget_write : let f := keyFn 0x10 [(160, 32)]; let s := keyed f
    keyTurn s f = true ∧ attrBad (Desc.attr f.desc) = false ∧ 24 ≤ Desc.target f.desc ∧ s.skn.locked (Desc.target f.desc) = false ∧
    field (Desc.attr f.desc) 11 7 = Desc.dom f.desc ∧ s.Runs 7 0x10 f ∧ sramForm f.queue (Desc.src0 f.desc) 32 = none ∧ (Desc.length f.desc).toNat = attrLen f.desc := by
  unfold State.Runs; decide +kernel
theorem wit_KeyFunctionsFillTheirTarget_generate : let f := keyFn 0x11 []; let s := keyed f
    keyTurn s f = true ∧ s.Runs 7 0x11 f ∧ s.skn.drbgReady 0 = true := by unfold State.Runs; decide +kernel
/-- KEY_DERIVE of the three kinds: code 1 with a B, code 2, and code 3 of slot 3. -/
theorem wit_KeyFunctionsFillTheirTarget_derive :
    (let f := keyFn 0x12 [(160, 256), (392, 25), (400, 25), (408, 1), (409, 1), (416, 2)]; let s := keyed f
     keyTurn s f = true ∧ attrBad (Desc.attr f.desc) = false ∧ field (Desc.attr f.desc) 11 7 = Desc.dom f.desc ∧ s.Runs 7 0x12 f ∧ sramForm f.queue (Desc.src0 f.desc) 256 = none ∧
     (Desc.length f.desc).toNat ≤ 256 ∧ Desc.argField f.desc 25 7 = 1 ∧ bit (Desc.arg f.desc) 24 = true ∧ field (Desc.attr f.desc) 0 2 = 2 ∧ Desc.slotA f.desc = 25 ∧ Desc.slotB f.desc = 25 ∧
     s.skn.usable 25 (Desc.dom f.desc) 3 engDrv = none) ∧
    (let f := keyFn 0x12 [(392, 25), (409, 2)]; (keyed f).Runs 7 0x12 f ∧ Desc.argField f.desc 25 7 = 2 ∧ bit (Desc.arg f.desc) 24 = false ∧ field (Desc.attr f.desc) 18 2 = 0 ∧ Desc.slotA f.desc = 25) ∧
    (let f := keyFn 0x12 [(392, 3), (409, 3)]; (keyed f).Runs 7 0x12 f ∧ Desc.argField f.desc 25 7 = 3 ∧ bit (Desc.arg f.desc) 24 = false ∧ Desc.slotA f.desc = 3 ∧
     (keyed f).skn.usable 3 (Desc.dom f.desc) 3 engDrv = none) := by
  unfold State.Runs; decide +kernel
/-- A blob sealed under the wrap key opens; one of zeros does not. -/
theorem wit_KeyFunctionsFillTheirTarget_unwrap : let f := keyFn 0x13 [(160, 60), (256, 2 ^ 63), (392, 26)]; let d := f.desc
    let e := gcmSeal 12 (zeros 12) [] (leBytes 32 (5 : Key256))
    let s : State := { keyed f with skn := { keys with keeperSram := Mem.write 0 [] 0 (zeros 12 ++ e.1 ++ leBytes 16 e.2) } }
    let open_ (s : State) : Option (List Byte) := let blob := s.sramRead (Desc.src0 d) 60
      gcmOpen (s.skn.slot (Desc.slotA d)).key (blob.take 12) (s.sramRead (Desc.src1 d) (Desc.aadLen d)) ((blob.drop 12).take (attrLen d)) (ofLeBytes 128 (blob.drop (12 + attrLen d)))
    keyTurn s f = true ∧ s.Runs 7 0x13 f ∧ sramForm f.queue (Desc.src0 d) 60 = none ∧ aadForm f.queue d = none ∧ (Desc.length d).toNat = 28 + attrLen d ∧ Desc.aadLen d ≤ 512 ∧
    s.skn.usable (Desc.slotA d) (Desc.dom d) 2 engWrap = none ∧ open_ s = some (leBytes 32 (5 : Key256)) ∧ open_ (keyed f) = none := by
  unfold State.Runs; decide +kernel
theorem wit_KeysLeaveTheirSlot_wrap : let f := fl 0x14 71 [(8, 5), (256, 2 ^ 63), (320, 2 ^ 63), (384, 24), (392, 26)]; let d := f.desc; let s := keyed f
    keyTurn s f = true ∧ s.Runs 7 0x14 f ∧ aadForm f.queue d = none ∧ sramForm f.queue (Desc.dst d) 60 = none ∧ s.skn.named 24 (Desc.dom d) = none ∧
    s.skn.usable (Desc.slotA d) (Desc.dom d) 2 engWrap = none ∧ (s.skn.slot 24).exportable = true ∧ lenBytes (s.skn.slot 24).len = 32 ∧ 24 ≤ Desc.target d ∧ Desc.aadLen d ≤ 512 ∧ s.skn.drbgReady 0 = true := by unfold State.Runs; decide +kernel
theorem wit_KeysLeaveTheirSlot_erase : (let f := fl 0x15 71 [(8, 5), (384, 24)]; let s := keyed f
      keyTurn s f = true ∧ s.Runs 7 0x15 f ∧ (s.skn.slot 24).valid = true ∧ (s.skn.slot 24).owner = Desc.dom f.desc) ∧
    (let s : State := { skn := { slots := [(63, { valid := true, erasing := true })] } }; (s.skn.slot (63#8).toNat).erasing = true) ∧
    (let f := fl 0x16 71 [(8, 5), (384, 27), (392, 0xF3)]; let s := keyed f
      keyTurn s f = true ∧ s.Runs 7 0x16 f ∧ s.skn.usable 27 (Desc.dom f.desc) (if bit (Desc.argField f.desc 8 8) 2 then 0 else 1) engIde = none) := by
  unfold State.Runs; decide +kernel
theorem wit_KeysLeaveTheirSlot_random : (let f := fl 0x17 71 [(8, 5), (160, 4096), (320, 2 ^ 63)]; let s := keyed f
      keyTurn s f = true ∧ s.Runs 7 0x17 f ∧ (Desc.length f.desc).toNat = 4096 ∧ s.skn.drbgReady 0 = true ∧ qClass f.queue = .keeper ∧ bit (Desc.dst f.desc) 63 = true ∧
      sramForm f.queue (Desc.dst f.desc) 4096 = none) ∧
    (let f := fl 0x17 64 [(8, 65), (160, 1)]; let s := keyed f; keyTurn s f = true ∧ s.Runs 7 0x17 f ∧ s.skn.drbgReady 1 = true ∧ qClass f.queue ≠ .keeper ∧ bit (Desc.dst f.desc) 63 = false) := by
  unfold State.Runs; decide +kernel
theorem wit_EntropySourceAndMeasurements : let s0 : State := { skn := { esState := 2 } }
    (let s : State := { bnd := up }; s.bnd.porN = true ∧ s.skn.esState = 1 ∧ s.skn.commit = false) ∧
    (let s : State := { skn := { esState := 2, esFails := 2 } }; s.skn.esState = 1 ∨ s.skn.esState = 2) ∧ (s0.skn.health.samples (List.replicate 28 true)).2 = some false ∧ (s0.skn.health.samples [true]).2 = none ∧ (let s : State := { skn := { esState := 3 } }; s.skn.esState = 3) ∧
    (let s : State := { skn := { slots := [(0, { valid := true })] } }; (s.skn.slot 0).valid = true ∧ s.lc.dbgSince = false ∧ s.skn.commit = false) ∧
    (let s : State := { skn := { esState := 4, commit := true } }; s.skn.esState = 4 ∧ s.skn.commit = true) := by decide +kernel

/-- DIG_OPEN of Keeper's queue 71: KMAC-256 with a key and 256 bytes of customisation in core SRAM; SHA-256; the same from memory; with all contexts taken. -/
theorem wit_DigestContexts_open :
    (let f := fl 0x20 71 [(8, 5), (160, 256), (192, 2 ^ 63), (384, 12), (392, 24), (400, 1)]; let d := f.desc
     let s : State := { busy f with skn := { slots := [(24, { valid := true, usage := 0, engines := 2, owner := 5 })] } }
     s.Runs 7 0x20 f ∧ (Desc.argField d 0 4).toNat ≤ 12 ∧ bit (Desc.arg d) 16 = digKeyed 12 ∧ digKmac 12 = true ∧ digForm f.queue (Desc.dom d) (Desc.src0 d) 256 false = none ∧
     s.digOwned (Desc.dom d) < 4 ∧ digKeyCheck s d = none ∧ bit (Desc.src0 d) 63 = true ∧ s.ownOf (.cmd 7) = [] ∧ s.digFree (qClass f.queue) = some 0) ∧
    (let f := fl 0x20 64 [(8, 65)]; let d := f.desc; let s := busy f
     s.Runs 7 0x20 f ∧ bit (Desc.arg d) 16 = digKeyed 0 ∧ digForm f.queue (Desc.dom d) (Desc.src0 d) 0 false = none ∧ digKeyCheck s d = none ∧ s.digFree (qClass f.queue) = some 4 ∧
     (let f := { f with started := true }; (busy f).cmd.flights = [f] ∧ f.started = true ∧ (busy f).digFree (qClass f.queue) = some 4)) ∧
    (let f := fl 0x20 64 [(8, 65), (160, 1), (384, 11), (392, 24), (400, 1)]; let d := f.desc
     let s : State := { busy f with skn := { slots := [(24, { valid := true, usage := 0, engines := 2, owner := 65 })] } }
     s.Runs 7 0x20 f ∧ digForm f.queue (Desc.dom d) (Desc.src0 d) 1 false = none ∧ digKeyCheck s d = none ∧ bit (Desc.src0 d) 63 = false) ∧
    (let f := fl 0x20 64 [(8, 65)]; let s : State := { busy f with dig := { ctxs := (List.range 32).map fun c => (c, { state := 1 }) } }
     s.Runs 7 0x20 f ∧ s.digFree (qClass f.queue) = none) := by unfold State.Runs; decide +kernel

/-- An open behind one that waits and may now use context 4, and the one in front of it. -/
theorem wit_DigestContexts_queued : let f := fl 0x20 64 [(8, 65)]; let g : Flight := { f with tag := 8, started := true }
    let s : State := { bnd := up, cmd := { flights := [g, f] } }; s.cmd.flight 7 = some f ∧ s.digQueued f = true ∧ s.digQueued g = false ∧ (65#7).toNat ≥ 64 := by decide +kernel

/-- A block with an open SHA-256 context 27 of domain 65 that has absorbed `n` bytes. -/
def hashing (f : Flight) (n : Nat) : State := { busy f with dig := { ctxs := [(27, { state := 1, owner := 65, qclass := 2, msg := zeros n, count := BitVec.ofNat 128 n })] } }
/-- 63 bytes from nothing complete no block, 1 byte behind 63 does; and from memory. -/
theorem wit_DigestContexts_updateAndClose :
    let turn (s : State) (f : Flight) : Bool := digTurn s f && (digForm f.queue (Desc.dom f.desc) (Desc.src0 f.desc) (Desc.length f.desc).toNat false).isNone && (digNamed s f).isNone &&
      decide ((s.digCtx 27).base.count.toNat + (Desc.length f.desc).toNat ≤ digLimit 0) && bit (Desc.src0 f.desc) 63 = false
    let f0 := fl 0x21 64 [(8, 65), (384, 27)]; let f1 := fl 0x21 64 [(8, 65), (160, 1), (384, 27)]; let fc := fl 0x24 64 [(8, 65), (384, 27)]
    ((hashing f0 63).Runs 7 0x21 f0 ∧ turn (hashing f0 63) f0 = true ∧ ((hashing f0 63).digCtx 27).newBlocks 0 0 = 0) ∧
    ((hashing f1 63).Runs 7 0x21 f1 ∧ turn (hashing f1 63) f1 = true) ∧
    (let f := fl 0x21 68 [(8, 64), (160, 1), (192, 2 ^ 63), (384, 27)]; let s : State := { busy f with dig := { ctxs := [(27, { state := 1, owner := 64, qclass := 1, msg := zeros 63, count := 63 })] } }
      s.Runs 7 0x21 f ∧ digTurn s f = true ∧ digForm f.queue (Desc.dom f.desc) (Desc.src0 f.desc) 1 false = none ∧ digNamed s f = none ∧ 0 < (s.digCtx 27).newBlocks 0 1) ∧
    ((hashing fc 63).Runs 7 0x24 fc ∧ digTurn (hashing fc 63) fc = true ∧ digNamed (hashing fc 63) fc = none) := by unfold State.Runs; decide +kernel
theorem wit_DigestResults_checks :
    (let f := fl 0x22 64 [(8, 65), (384, 27)]; (hashing f 3).Runs 7 0x22 f ∧ digTurn (hashing f 3) f = true ∧ digFinishCheck (hashing f 3) f = none) ∧
    (let f := fl 0x23 64 [(8, 65), (160, 4), (384, 27)]; (hashing f 3).Runs 7 0x23 f ∧ digTurn (hashing f 3) f = true ∧ digCompareCheck (hashing f 3) f = none ∧ bit (Desc.src1 f.desc) 63 = false) ∧
    (let f := fl 0x23 71 [(8, 65), (160, 64), (256, 2 ^ 63), (384, 27)]; let s : State := { busy f with dig := { ctxs := [(27, { state := 1, owner := 65 })] } }
     s.Runs 7 0x23 f ∧ digTurn s f = true ∧ digCompareCheck s f = none ∧ bit (Desc.src1 f.desc) 63 = true) := by unfold State.Runs; decide +kernel
/-- A context with `p` blocks left on core 4, the function `f` in progress with `inbox` received. -/
def absorbing (f : Flight) (p run : Nat) (inbox : List Byte) (more : SMap DigCtx) : State :=
  { busy f with dig := { ctxs := (27, { state := 1, owner := 65, qclass := 2, func := some 7, pend := p, inbox := inbox }) :: more, cores := [(4, { ctx := some 27, run := run })] } }
theorem wit_DigestResults_blocks :
    let fin := fl 0x22 64 [(8, 65), (384, 27)]; let cmp := fl 0x23 64 [(8, 65), (160, 4), (384, 27)]
    let hash := (digOutput 0 [] [] [] 32).take 4
    (let s := absorbing fin 2 15 [] []; (s.digCore (4#3).toNat).ctx = some 27 ∧ ¬ (16 ≤ (s.digCore 4).run ∧ (s.digNext 27).isSome = true) ∧ 1 < (s.digCtx 27).pend) ∧
    (let s := absorbing fin 1 15 [] []; s.Runs 7 0x22 fin ∧ (s.digCtx 27).pend = 1 ∧ (s.digCtx 27).left = 0 ∧ (s.digCtx 27).func = some 7 ∧ bit (Desc.arg fin.desc) 16 = false ∧ bit (Desc.arg fin.desc) 17 = false) ∧
    (let s := absorbing cmp 1 15 hash []; s.Runs 7 0x23 cmp ∧ (Desc.length cmp.desc).toNat = 4 ∧ digLen (s.digCtx 27) 4 = 32 ∧ hash = (s.digCtx 27).inbox ∧ (digOutput 0 [] [] [] 32).take 4 ≠ zeros 4) ∧
    (let f := fl 0x22 64 [(8, 65), (384, 27), (401, 1)]; (absorbing f 1 0 [] []).Runs 7 0x22 f ∧ bit (Desc.arg f.desc) 16 = false ∧ bit (Desc.arg f.desc) 17 = true ∧ bit (Desc.dst f.desc) 63 = false) ∧
    (let f := fl 0x22 71 [(8, 65), (384, 27), (392, 24), (400, 1)]; let s := absorbing f 1 0 [] []; s.Runs 7 0x22 f ∧ bit (Desc.arg f.desc) 16 = true ∧ s.skn.locked (Desc.slotA f.desc) = false ∧
      (let g := fl 0x22 71 [(8, 65), (384, 27), (392, 3), (400, 1)]; bit (Desc.arg g.desc) 16 = true ∧ s.skn.locked (Desc.slotA g.desc) = true)) ∧
    (let s := absorbing fin 2 16 [] [(28, { state := 1, pend := 1 })]; (s.digCore 4).ctx = some 27 ∧ 16 ≤ (s.digCore 4).run ∧ s.digNext 27 = some 28) := by
  unfold State.Runs; decide +kernel

/-- Partition 5 running with its weight key, context 3 taken by the command with tag 7. -/
def gate (f : Flight) (x : WgCtx) (p : WgPart) : State :=
  { busy f with parts := [(5, { state := .running })], guard := { size := 1, locked := true }, wg := { parts := [(5, { p with keyValid := true })], ctxs := [(3, { x with tag := 7, dom := 5 })] } }
theorem wit_Packages_start : let f := fl 0x41 64 [(8, 5)]
    let s : State := { busy f with wg := { ctxs := [(0, { load := true }), (1, { load := true }), (2, { load := true })] } }
    (List.range 4).find? (fun c => ¬ (s.wgCtx c).busy) = some 3 ∧ s.cmd.flights.find? (fun f => (Desc.opcode f.desc).toNat / 16 = 4 ∧ ¬ f.started) = some f := by decide +kernel
/-- WG_OPEN of 65,536 bytes into slot 15; WG_LOAD of segment 4,095 into the last page of the window; both without a weight key. -/
theorem wit_Packages_openAndLoad :
    (let f := fl 0x40 64 [(8, 5), (160, 65536), (384, 15)]; let s := gate f {} {}; let d := f.desc
     s.wgCtxOf 7 = some 3 ∧ (s.wgCtx 3).phase = .idle ∧ s.Runs 7 0x40 f ∧ s.wgKeyed (Desc.dom d) = true ∧ (s.wgPart 5).pkg (Desc.argField d 0 4).toNat = {} ∧
     (Desc.length d).toNat = 65536 ∧ bit (Desc.src0 d) 63 = false) ∧
    (let f := fl 0x41 64 [(8, 5), (160, 4112), (320, (2 ^ 18 - 1) * 4096), (384, 15 + 16 * 4095)]; let d := f.desc
     let s := gate f {} { pkgs := [(15, { state := 1, segments := 4096 })], segs := [(4096 * 15 + 4095, { chunks := 1 })] }
     let e := (s.wgPart 5).seg (Desc.argField d 0 4).toNat (Desc.argField d 4 12).toNat; let dst := (field (Desc.dst d) 0 52).toNat
     s.wgCtxOf 7 = some 3 ∧ s.Runs 7 0x41 f ∧ s.wgKeyed (Desc.dom d) = true ∧ ((s.wgPart 5).pkg 15).state ≠ 0 ∧ ((s.wgPart 5).pkg 15).reserved = false ∧
     (Desc.argField d 4 12).toNat < ((s.wgPart 5).pkg 15).segments ∧ e.loading = false ∧ (Desc.length d).toNat = 4112 * e.chunks.toNat ∧ dst % 4096 = 0 ∧
     s.guard.inWindow (dst / 4096) = true ∧ s.guard.inWindow (dst / 4096 + e.chunks.toNat - 1) = true ∧ s.guard.inWindow (dst / 4096 + 1) = false ∧
     (∀ j, j < 4 → (s.wgCtx j).rangeHeld = true → overlaps (dst / 4096) e.chunks.toNat (s.wgCtx j).dst (s.wgCtx j).chunks = false) ∧
     (field (Desc.src0 d) 0 52).toNat % 4096 = 0 ∧ (field (Desc.src1 d) 0 52).toNat % 64 = 0) ∧
    (let f := fl 0x40 64 [(8, 6)]; let s := gate f {} {}; s.Runs 7 0x40 f ∧ s.wgKeyed (Desc.dom f.desc) = false ∧ (s.wgCtx 3).stream = none) := by
  unfold State.Runs; decide +kernel
theorem wit_Packages_destCheck : let s := gate (fl 0x41 64 [(8, 5)]) { phase := .destCheck } {}; (s.wgCtx (3#2).toNat).phase = .destCheck ∧ (s.wgCtx 3).queried = false := by decide +kernel
/-! A chunk of zeros under a weight key of zero, whose stored tag is right, and one whose tag is zero. -/
def chunkCmd : Flight := fl 0x41 64 [(8, 5), (256, 2 ^ 20)]
def rightTag : W128 := 0x8219d7a57df58cf8cef1a4ffc077182f
def chunkAt (tag : W128) : State :=
  { gate chunkCmd { phase := .ingest, chunks := 1, fetched := true } {} with
    own := [{ txid := 0, purpose := .wgSource 3, op := 0, addr := 2 ^ 20, dom := 65, epoch := 0, mask := 0, data := 0, sent := true, answer := some (.ok, tag.setWidth 512) }] }
def chunkKey (s : State) : Key256 := (s.wgPart 5).key
def chunkIv (s : State) : List Byte := leBytes 8 ((s.wgPart 5).pkg (s.wgCtx 3).pkg.toNat).nonce ++ beBytes 4 (BitVec.ofNat 32 ((s.wgCtx 3).first + (s.wgCtx 3).done))
def chunkAad (s : State) : List Byte := leBytes 48 ((s.wgPart 5).pkg (s.wgCtx 3).pkg.toNat).mdigest ++ beBytes 4 (BitVec.ofNat 32 (s.wgCtx 3).seg.toNat)
def chunkCt (s : State) : List Byte := spanBytes (s.ownOf (.wgSource 3)) ((field (Desc.src0 chunkCmd.desc) 0 52).toNat + 4096 * (s.wgCtx 3).done) 4096
def chunkTag (s : State) : W128 := ofLeBytes 128 (spanBytes (s.ownOf (.wgSource 3)) ((field (Desc.src1 chunkCmd.desc) 0 52).toNat + 16 * (s.wgCtx 3).done) 16)
theorem gcmOpen_isSome (k : Key256) (iv aad ct : List Byte) (tag : W128) : (gcmOpen k iv aad ct tag).isSome = decide (gcmTag k iv aad ct = tag) := by
  unfold gcmOpen; split <;> simp [*]
theorem test_chunk_tag : gcmTag 0 (zeros 12) (zeros 52) (zeros 4096) = rightTag := by decide +kernel
/-- What the read of the tag's line leaves of the source. -/
def chunkMem (tag : W128) : Mem := if tag = 0 then [] else
  [(0x100000, 0x2F), (0x100001, 0x18), (0x100002, 0x77), (0x100003, 0xC0), (0x100004, 0xFF), (0x100005, 0xA4), (0x100006, 0xF1), (0x100007, 0xCE), (0x100008, 0xF8), (0x100009, 0x8C), (0x10000A, 0xF5), (0x10000B, 0x7D), (0x10000C, 0xA5), (0x10000D, 0xD7), (0x10000E, 0x19), (0x10000F, 0x82)]
theorem test_chunk_line {tag : W128} (h : tag = rightTag ∨ tag = 0) (a n : Nat) : spanBytes ((chunkAt tag).ownOf (.wgSource 3)) a n = Mem.read 0 (chunkMem tag) a n := by
  unfold spanBytes; dsimp only; congr 1; rcases h with rfl | rfl <;> decide +kernel
theorem get_below (m : Mem) (k : Nat) (h : ∀ e ∈ m, k < e.1) : SMap.get 0 m k = 0 := by
  induction m with
  | nil => rfl
  | cons e m ih => obtain ⟨j, v⟩ := e; have := h _ List.mem_cons_self; rw [SMap.get, if_neg (by omega), ih fun e he => h e (List.mem_cons_of_mem _ he)]
theorem test_chunk_bytes {tag : W128} (h : tag = rightTag ∨ tag = 0) : Mem.read 0 (chunkMem tag) 0 4096 = zeros 4096 ∧ ofLeBytes 128 (Mem.read 0 (chunkMem tag) (2 ^ 20) 16) = tag := by
  have hm : ∀ e ∈ chunkMem tag, 4096 ≤ e.1 := by rcases h with rfl | rfl <;> decide +kernel
  refine ⟨List.eq_replicate_iff.mpr ⟨by simp [Mem.read], fun b hb => ?_⟩, by rcases h with rfl | rfl <;> decide +kernel⟩
  obtain ⟨i, hi, rfl⟩ := List.mem_map.mp hb
  exact get_below _ _ fun e he => by have := hm e he; have := List.mem_range.mp hi; omega
theorem test_chunk_operands {tag : W128} (h : tag = rightTag ∨ tag = 0) : chunkKey (chunkAt tag) = 0 ∧ chunkIv (chunkAt tag) = zeros 12 ∧ chunkAad (chunkAt tag) = zeros 52 ∧
    (field (Desc.src0 chunkCmd.desc) 0 52).toNat + 4096 * ((chunkAt tag).wgCtx 3).done = 0 ∧
    (field (Desc.src1 chunkCmd.desc) 0 52).toNat + 16 * ((chunkAt tag).wgCtx 3).done = 2 ^ 20 := by rcases h with rfl | rfl <;> decide +kernel
theorem wit_Packages_chunk : let s := chunkAt rightTag; let x := s.wgCtx (3#2).toNat
    x.phase = .ingest ∧ x.done < x.chunks ∧ x.stream = none ∧ x.fetched = true ∧ s.ownDone (.wgSource 3) = true ∧ s.cmd.flight x.tag = some chunkCmd := by decide +kernel
theorem wit_Packages_chunkOpens (tag : W128) (h : tag = rightTag ∨ tag = 0) :
    (gcmOpen (chunkKey (chunkAt tag)) (chunkIv (chunkAt tag)) (chunkAad (chunkAt tag)) (chunkCt (chunkAt tag)) (chunkTag (chunkAt tag))).isSome = decide (tag = rightTag) := by
  obtain ⟨h1, h2, h3, h4, h5⟩ := test_chunk_operands h
  have h6 := test_chunk_bytes h
  rw [gcmOpen_isSome, h1, h2, h3, chunkCt, chunkTag, h4, h5, test_chunk_line h, test_chunk_line h, h6.1, h6.2, test_chunk_tag]
  exact decide_eq_decide.mpr eq_comm

theorem wit_Packages_retry : let r : OwnReq := { txid := 0, purpose := .wgDest 3, op := 3, addr := 64, dom := 5, epoch := 0, mask := 0, data := 0, sent := true, asleep := true }
    (∀ q ∈ ([] : List OwnReq) ++ [], q.sent = true) ∧ r.asleep = true ∧ r.purpose = .wgDest (3#2).toNat ∧ freeTxid [r] < 4096 ∧ r.since.toNat + 1000 < 2 ^ 64 := by decide +kernel

/-- An idle public-key engine at READY with an open entropy source. -/
def engine (f : Flight) (p : Pke) : State := { busy f with pke := p, skn := keys }
/-- A verification of set 0 from Keeper passes its checks, one of set 9 does not, PKE_EPH_CLEAR passes. -/
theorem wit_PublicKeyOperations_takeUp :
    (let f := fl 0x31 71 [(8, 5), (192, 2 ^ 63), (256, 2 ^ 63), (448, 2 ^ 63)]; let s := engine f { state := 0 }
     s.pke.state = 0 ∧ s.vent.pkeDarnPending = false ∧ s.pkeNext = some f ∧ pkeCheck s f = none ∧ Desc.pkeFn f.desc ≠ 7) ∧
    (let f := fl 0x31 71 [(8, 5), (384, 9)]; let s := engine f { state := 0 }; s.pkeNext = some f ∧ pkeCheck s f = some 0x0401) ∧
    (let f := fl 0x37 71 [(8, 5), (400, 7)]; let s := engine f { state := 0 }; s.pkeNext = some f ∧ s.Runs f.tag 0x37 f ∧ pkeCheck s f = none) := by
  unfold State.Runs; decide +kernel
theorem wit_PublicKeyOperations_schedules : ∀ op ∈ [0x30, 0x31, 0x32, 0x33, 0x34, 0x35, 0x36], let f := fl op 71 [(8, 5)]; let s := engine f { state := 1, phase := 1, run := some 7 }
    s.Runs 7 (BitVec.ofNat 8 op) f ∧ s.pke.run = some 7 ∧ f.tag = 7 ∧ s.pke.phase = 1 ∧ s.ownDone (.cmd 7) = true := by unfold State.Runs; decide +kernel
/-- An engine without randomness; an output to plain memory. -/
theorem wit_PublicKeyOperations_more : (let s : State := { pke := { state := 1, phase := 1, run := some 7 } }; s.skn.drbgReady 0 = false ∧ (engine (fl 0x30 71 []) {}).skn.drbgReady 0 = true) ∧
    (let f := fl 0x32 71 [(8, 5)]; Desc.pkeFn f.desc ∈ [0, 2, 3, 4] ∧ bit (Desc.dst f.desc) 63 = false) ∧
    (let f := fl 0x34 71 [(8, 5), (392, 3)]; Desc.pkeFn f.desc = 4 ∧ (engine f {}).skn.locked (Desc.skey f.desc) = true ∧ (engine (fl 0x34 71 [(392, 63)]) {}).skn.locked (Desc.skey (fl 0x34 71 [(392, 63)]).desc) = false) := by
  decide +kernel
/-- Completions: of a failed schedule, of PKE_VERIFY, and of PKE_DECAPS into slot 63. -/
theorem wit_PublicKeyOperations_complete : let ends (f : Flight) (o : PkeOut) : State := engine f { state := 1, phase := 2, run := some 7, outcome := some o }
    (let f := fl 0x31 71 [(8, 5), (192, 2 ^ 63)]; let o : PkeOut := { status := 0x0409, cycles := 1260000 }; let s := ends f o
     s.pke.run = some 7 ∧ s.cmd.flight 7 = some f ∧ s.pke.phase = 2 ∧ s.pke.outcome = some o ∧ o.cycles ≠ 0 ∧ o.status ≠ 0) ∧
    (let f := fl 0x32 71 [(8, 5), (320, 2 ^ 63)]; let o : PkeOut := { out := zeros 64, cycles := 1 }
     (ends f o).cmd.flight 7 = some f ∧ o.status = 0 ∧ Desc.pkeFn f.desc = 2 ∧ qClass f.queue = .keeper ∧ ∀ e ∈ pkeOutputs f.desc, isSramForm e.1 = true) ∧
    (let f := fl 0x35 71 [(8, 5), (392, 63)]; let o : PkeOut := { secret := zeros 32, cycles := 1 }
     (ends f o).cmd.flight 7 = some f ∧ o.status = 0 ∧ Desc.pkeFn f.desc = 5 ∧ (ends f o).skn.locked (Desc.skey f.desc) = false) := by decide +kernel
theorem wit_PublicKeyAborts : let f := fl 0x38 71 [(8, 5), (384, 511)]
    (let s := engine f { state := 1, phase := 2, run := some 511 }; s.Runs 7 0x38 f ∧ (Desc.length f.desc).toNat = 0 ∧ f.started = false ∧ s.pke.run = some (Desc.argField f.desc 0 9)) ∧ ({} : Pke).after = [] ∧
    (let s := engine f { state := 0 }; s.pke.run ≠ some (Desc.argField f.desc 0 9) ∧ s.pkeWaiting.find? (fun g => g.tag = Desc.argField f.desc 0 9) = none) ∧
    (let g : Flight := { fl 0x31 64 [(8, 65)] with tag := 511 }; let s : State := { engine f { state := 0 } with cmd := { flights := [f, g] } }
     s.pkeWaiting.find? (fun g => g.tag = Desc.argField f.desc 0 9) = some g) ∧
    (let s := engine f { state := 2, after := [(7, 0x040D, none)] }; s.pke.state = 2 ∧ s.pke.after = [(7, 0x040D, none)] ∧ s.cmd.flight 7 = some f) := by
  unfold State.Runs; decide +kernel
theorem wit_PublicKeySlotLength : (let s : State := { pke := { state := 0 } }; (5#3).toNat ≤ 5 ∧ s.pke.state = 0 ∧ s.pkeWaiting = []) ∧ 5 < (6#3).toNat ∧ State.reset.pke.state ≠ 0 := by decide +kernel

/-- Word 0x7FF of no partition; an open word that reads 1 at NORMAL and MARGIN_LOW of a corrected bit; words that hold secrets. -/
theorem wit_FuseCommandsOfKeeper_read : State.reset.otp.running = none ∧ (0x050 ≤ 0x050 ∧ 0x06E ≤ 0x06E) ∧ incOf 0x06F = none ∧
    (let s : State := { otp := { words := [(0x000, { nrm := 1, low := 1 })] } }; eccDecode (s.otp.word 0).nrm = some (0, true) ∧ eccDecode (s.otp.word 0).hi = some (0, false)) ∧
    (2#2).toNat < 3 := by decide +kernel
theorem wit_FuseCommandsOfKeeper_program :
    (let s : State := { lc := { state := 3 }, otp := { wdata := 5 } }; otpProgramCheck s 0x018 s.otp.wdata = none ∧ (s.otp.word 0x018).nrm = 0 ∧
      (otpCodeOf 0x018).isSome = true ∧ 1 ≤ s.lc.state.toNat ∧ s.lc.state.toNat < 6 ∧ s.otp.reburnTargets 0x018 = some (0, 0, 0) ∧ otpCommon s = none ∧ (eccPartOf 0x018).isSome = true) ∧
    otpProgramCheck State.reset 0x7FF 0 = some 0x0802 ∧ eccPartOf 0x7FF = none ∧
    (let r : OtpRun := { user := .command, addr := 0x018, reburn := false, t0 := 5, t1 := 0, t2 := 0, start := 0 }; let s : State := { otp := { running := some r } }
     s.otp.running = some r ∧ r.user = .command ∧ s.otp.running.isSome = true) := by decide +kernel
/-- Pulses that leave every bit as it was. -/
def noBurn : Burn := let c : CopyBurn := { hi := 0, nrm := 0 }; { c0 := c, c1 := c, c2 := c }
theorem wit_LifeCycle_session :
    (let s : State := { bnd := up, lc := { state := 1, ticketsUsed := 15 } }; s.lcWrites .H = true ∧ s.reaches .H 0x0740008 = true ∧ s.lcWrites .K = true ∧
      ({ s with otp := { sensed := true } } : State).lcWrites .I = true ∧ ({ s with otp := { sensed := true } } : State).reaches .I 0x0740008 = true ∧ s.lc.state = 1 ∧ s.lc.session = false ∧ s.lc.ticketsUsed.toNat < 16 ∧
      s.otp.running = none ∧ s.lc.trBusy = false ∧ s.bnd.vppOk = true ∧ s.bnd.pwrWarn = false) ∧
    (let r : OtpRun := { user := .ticket, addr := 0x4BC, reburn := false, t0 := 1, t1 := 1, t2 := 1, start := 0 }; let s : State := { otp := { running := some r } }
     s.otp.running = some r ∧ r.user = .ticket ∧ (s.otp.burnRun r {}).failedCopies r {} = 0 ∧
     (s.otp.burnRun r noBurn).failedCopies r noBurn ≠ 0) := by decide +kernel
theorem wit_LifeCycle_transitions :
    (let s : State := { bnd := up }; s.lcWrites .H = true ∧ s.reaches .H 0x0740010 = true ∧ lcGoCheck s .H 1 = none ∧ lcGoCheck s .H 5 = some 0x0902) ∧
    (∀ p ∈ [1, 2, 3, 4], let s : State := { lc := { trBusy := true, trPhase := BitVec.ofNat 3 p } }; s.lc.trBusy = true ∧ s.lc.trStop = false ∧ 1 ≤ s.lc.trPhase.toNat ∧ s.lc.trPhase.toNat ≤ 4) ∧
    (let s : State := { lc := { trBusy := true, trPhase := 5 } }; s.lc.trBusy = true ∧ s.lc.trPhase = 5) := by decide +kernel
/-- A challenge for debug of scope 3 and 1 second in its last nanosecond. -/
theorem wit_DebugGrants :
    (let s : State := { lc := { state := 4 }, skn := keys }; s.lc.state = 4 ∧ s.skn.drbgReady 0 = true) ∧ State.reset.lc.state ≠ 4 ∧
    (let c : LcChal := { record := BitVec.ofNat 768 (2 ^ 48 + 3 * 2 ^ 56 + 2 ^ 64 + 63 * 2 ^ 80), time := 0 }
     let s : State := { bnd := { up with timebase := 599999999999 }, lc := { state := 4, chal := some c, scope := 3, duration := 1, unlocks := 63 } }
     s.lc.chal = some c ∧ lcGrantCheck s = none ∧ lcGrantCheck { s with lc := { s.lc with chal := none } } = some 0x0909) ∧
    (let r : OtpRun := { user := .count, addr := 0x4BE, reburn := false, t0 := 1, t1 := 1, t2 := 1, start := 0 }
     let s : State := { otp := { running := some r }, lc := { granting := some (3, 1), dbgOpen := true, state := 4 } }
     s.otp.running = some r ∧ r.user = .count ∧ s.lc.granting = some (3, 1) ∧ s.lc.dbgOpen = true ∧ s.lc.state.toNat < 6 ∧
     (s.otp.burnRun r {}).failedCopies r {} = 0 ∧ (s.otp.burnRun r noBurn).failedCopies r noBurn ≠ 0) := by
  decide +kernel

theorem wit_Vent_reports : (let s : State := { bnd := up }; let h := hdrOf 65 23 0; s.reaches (.C h.site false) 0x07E0000 = true ∧ h.dom = 65 ∧ (h.site.toNat < 24 ∨ h.site = 30)) ∧
    reportOk 16 (15#128) = true ∧ reportOk 16 (16#128) = false := by decide +kernel
/-- TEST_UNIT of a chiplet's unit, of a lane, which has no spare, and of a digest core, which has one. -/
theorem wit_Vent_testFunctions : let t (op : Nat) (u : UnitId) : Flight := fl op 71 [(8, 5), (384, u.toNat)]; let lane := unitOf 7 31; let core := unitOf 8 0
    ((busy (t 0xA0 (unitOf 13 0))).Runs 7 0xA0 (t 0xA0 (unitOf 13 0)) ∧ Desc.unit (t 0xA0 (unitOf 13 0)).desc = unitOf 13 0 ∧ unitOutcome State.reset (unitOf 13 0) = some 4) ∧
    ((busy (t 0xA0 core)).Runs 7 0xA0 (t 0xA0 core) ∧ unitOutcome (busy (t 0xA0 core)) core = none ∧ (busy (t 0xA0 core)).vent.freeSpares core ≠ []) ∧
    ((busy (t 0xA0 lane)).Runs 7 0xA0 (t 0xA0 lane) ∧ unitOutcome (busy (t 0xA0 lane)) lane = none ∧ ((busy (t 0xA0 lane)).vent.unitRec lane).state = 0 ∧ (busy (t 0xA0 lane)).vent.freeSpares lane = []) ∧
    (busy (t 0xA1 lane)).Runs 7 0xA1 (t 0xA1 lane) ∧ (busy (t 0xA2 lane)).Runs 7 0xA2 (t 0xA2 lane) := by unfold State.Runs; decide +kernel
theorem wit_Vent_tests : let u := unitOf 7 31; let f := fl 0xA0 71 [(384, (unitOf 7 31).toNat)]
    let st (now : W64) (x : Test) : State := { busy f with bnd := { up with timebase := now }, vent := { tests := [x] } }
    (let x : Test := { unitId := u, byCmd := some 7, phase := .deferred, asked := 999 }; let s := st 2000 x; s.vent.tests = [x] ∧ x.unitId = u ∧ x.phase = .deferred ∧ x.asked.toNat / 1000 + 2 ≤ s.row) ∧
    (let x : Test := { unitId := u, byCmd := some 7, phase := .ready }; x.phase = .ready ∧ (st 0 x).testable u = true) ∧
    (let x : Test := { unitId := u, byCmd := some 7, phase := .running }; x.phase = .running ∧ x.again = false ∧ x.byCmd = some 7 ∧ (st 0 x).cmd.flight 7 = some f) ∧
    (let x : Test := { unitId := u, byCmd := some 7, phase := .running, again := true }; x.phase = .running ∧ x.again = true) := by decide +kernel
/-- An open log with one place left, and a full one. -/
theorem wit_SinterEntries : (let s : State := { snt := { opened := true, pend := 2097151 } }; s.snt.opened = true ∧ s.snt.lostSince = 0 ∧ s.snt.pend < 2097152) ∧
    (let s : State := { snt := { opened := true, pend := 2097152 } }; s.snt.opened = true ∧ s.snt.lostSince = 0 ∧ 2097152 ≤ s.snt.pend) ∧ (Cls.H ≠ .K ∧ Cls.H ≠ .S) ∧
    (let s : State := { snt := { pend := 3, ckpt := 2097150 } }; ((1 : BitVec 21) - s.snt.ckpt).toNat ≤ s.snt.pend ∧ s.snt.pend < ((2 : BitVec 21) - s.snt.ckpt).toNat) := by decide +kernel

/-- Partition 5 running, a link key in slot 25, lane 31 enabled for it, and the job entries given. -/
def linked (f : Flight) (jobs : SMap (Option Job)) (streams : List StreamEnt) : State :=
  { busy f with parts := [(5, { state := .running })], skn := { slots := [(25, { valid := true, usage := 3, engines := 128, owner := 5 })] }
                lnk := { lanes := [(31, { en := true, owner := 5 })], jobs := jobs, streams := streams } }
def aJob : Job := { job := 9, dom := 5, rank := 3, kgen := 254, key := 1, pn := 2 ^ 48 - 1 }
theorem wit_Link_jobs : let j (op : Nat) : Flight := fl op 71 [(8, 5), (384, 9), (424, 25)]; let jobs : SMap (Option Job) := [(4095, some aJob)]
    ((linked (j 0x90) [] []).Runs 7 0x90 (j 0x90) ∧ linkJobCheck (linked (j 0x90) [] []) (j 0x90).desc = none ∧ linkJobCheck (linked (j 0x90) jobs []) (j 0x90).desc = some 0x0721) ∧
    ((linked (j 0x91) jobs []).Runs 7 0x91 (j 0x91) ∧ linkRekeyCheck (linked (j 0x91) jobs []) (j 0x91).desc = none ∧ (linked (j 0x91) jobs []).jobOf (j 0x91).desc = some (4095, aJob)) ∧
    ((linked (j 0x92) jobs []).Runs 7 0x92 (j 0x92) ∧ (linked (j 0x92) jobs []).jobOf (j 0x92).desc = some (4095, aJob)) ∧
    ((linked (j 0x93) [] []).Runs 7 0x93 (j 0x93) ∧ (linked (j 0x93) [] []).jobOf (j 0x93).desc = none) := by unfold State.Runs; decide +kernel
/-- Lane 31 with a plain frame, a frame of a job at its last counter, and a received frame that opens: new for one stream entry, replayed for another. -/
theorem wit_Link_frames : let f := fl 0 71 []; let plain := zeros 12 ++ [8, 0] ++ zeros 46
    let head := zeros 12 ++ [0x88, 0xB5]; let frame := protect aJob 14 (head ++ [1, 2, 3]); let hd := (frame.drop 14).take 24; let body := frame.drop 38
    let e : StreamEnt := { job := 9, rank := 3, gen := 254, top := 5, window := 1 }; let old : StreamEnt := { e with top := BitVec.allOnes 48 }
    let s := linked f [(4095, some aJob)] [e]
    s.laneUp 31 = true ∧ (s.lane 31).held = [] ∧ s.jobEntry 9 = some (4095, aJob) ∧ s.jobPasses 31 aJob = true ∧ aJob.pn < 2 ^ 48 ∧ (s.lane 31).injects = false ∧ s.jobEntry 8 = none ∧
    (plain.drop 12).take 2 ≠ beBytes 2 (s.lane 31).etype ∧ (frame.drop 12).take 2 = beBytes 2 (s.lane 31).etype ∧ 14 + 40 ≤ frame.length ∧ hd.drop 12 = [1, 0] ++ List.replicate 10 0 ∧
    (ofLeBytes 24 (hd.take 3) : BitVec 24) = 9 ∧ hd.getD 3 0 = aJob.kgen ∧
    gcmOpen aJob.key (linkIv hd) (frame.take 14 ++ hd) (body.take (body.length - 16)) (ofLeBytes 128 (body.drop (body.length - 16))) = some [1, 2, 3] ∧
    s.lnk.streams.find? (fun e => e.job = 9 ∧ e.rank = ofLeBytes 16 ((hd.drop 10).take 2)) = some e ∧
    e.accept aJob.kgen (ofLeBytes 48 ((hd.drop 4).take 6)) = some { e with top := BitVec.allOnes 48, window := 1 } ∧ old.accept aJob.kgen (ofLeBytes 48 ((hd.drop 4).take 6)) = none := by decide +kernel
theorem wit_LinkFaultInjection : State.reset.lnk.fiMode ≠ true ∧ (let s : State := { lnk := { fiMode := true } }; s.lnk.fiMode = true ∧ s.lnk.fiMode ≠ false ∧ (31#6).toNat < Config.lanes) := by decide +kernel
theorem wit_Posts_markers : let s : State := { bnd := { up with siteTrusted := 2 ^ 23 } }; let h := hdrOf 65 23 0; let d : W128 := BitVec.ofNat 128 (65 * 2 ^ 80 + 1)
    s.reaches (.C h.site false) 0x0790000 = true ∧ (15#7).toNat ≠ 16 ∧ s.postTrusted h = true ∧ (16#7).toNat = 16 ∧ h.site.toNat < 24 ∧ field d 56 8 = 0 ∧ field d 95 33 = 0 ∧ bit d 87 = false ∧
    field d 88 7 = 0 ∧ markerDom d = h.dom.toNat ∧ markerDom d = 65 ∧ (s.fum.site 23).marker.map markerKey ≠ some (markerKey d) := by decide +kernel
theorem wit_Posts_rest : let s : State := { bnd := { up with siteTrusted := 2 ^ 23 }, fum := { pcEn := true, pcGap := false, pcUsed := 4194303 } }; let h := hdrOf 5 23 0
    (s.reaches (.C h.site false) 0x0790100 = true ∧ s.reaches (.C h.site false) 0x0790200 = true ∧ s.postTrusted h = true ∧ (8#7).toNat = 8 ∧ h.site.toNat < 24) ∧
    (field (1 : W64) 59 5 = 0 ∧ State.reset.fum.pcEn = false) ∧
    (s.fum.pcEn = true ∧ (s.fum.site 23).pcRow < 16 ∧ s.fum.pcGap = false ∧ (s.bnd.timebase - s.fum.pcLast).toNat < 2 ^ 32 ∧ s.fum.pcUsed < pcSize) ∧
    (let h := hdrOf 65 30 0; s.reaches (.C h.site false) 0x0790400 = true ∧ s.reaches (.C h.site false) 0x0790600 = true ∧ h.site = 30) := by decide +kernel
theorem wit_Telemetry_functions :
    (let f := fl 0x80 63 [(8, 63)]; (busy f).Runs 7 0x80 f ∧ f.started = false ∧ (Desc.dom f.desc).toNat < 64) ∧
    (let f := fl 0x81 71 [(8, 5), (160, 136), (320, 2 ^ 63)]; let d := f.desc; (busy f).Runs 7 0x81 f ∧ Desc.argField d 0 2 = 0 ∧ (Desc.dom d).toNat < 64 ∧ bit (Desc.dst d) 63 = true ∧
      digForm f.queue (Desc.dom d) (Desc.dst d) (min (Desc.length d).toNat 136) true = none ∧ 0 < (Desc.length d).toNat) ∧
    (let f := fl 0x81 71 [(8, 5), (384, 2)]; (busy f).Runs 7 0x81 f ∧ 2 ≤ (Desc.argField f.desc 0 2).toNat) ∧
    (let f := fl 0x82 68 [(8, 65), (160, 64)]; let s : State := { busy f with fum := { used := 1 } }; s.Runs 7 0x82 f ∧ s.cmd.flights.any (fun g => Desc.opcode g.desc = 0x82 ∧ g.started) = false ∧
      bit (Desc.dst f.desc) 63 = false ∧ bit (Desc.arg f.desc) 0 = false ∧ (Desc.length f.desc).toNat % 64 = 0 ∧ 0 < min ((Desc.length f.desc).toNat / 64) s.fum.used ∧
      min ((Desc.length f.desc).toNat / 64) (busy f).fum.used = 0) := by unfold State.Runs; decide +kernel
theorem wit_Telemetry_dumps :
    let part5 (f : Flight) (x : DumpSel) : State := { busy f with parts := [(5, { state := .running, regions := [(0, { base := 0, size := 1 })] })], guard := { size := 1 }, fum := { dumpKeys := [(5, some 1)], sels := [(16 * 5 + 15, x)] } }
    (let f := fl 0x70 71 [(8, 5), (384, 15)]; let s := part5 f { state := 2 }; let d := f.desc
     s.Runs 7 0x70 f ∧ ((s.part 5).state = .keyed ∨ (s.part 5).state = .running) ∧ (SMap.get none s.fum.dumpKeys (Desc.dom d).toNat).isSome = true ∧
     ((s.dumpSel 5 (Desc.argField d 0 4).toNat).state = 0 ∨ (s.dumpSel 5 (Desc.argField d 0 4).toNat).state = 2) ∧ bit (Desc.dst d) 63 = false ∧ field (Desc.dst d) 0 6 = 0) ∧
    (let f := fl 0x72 71 [(8, 5), (384, 15)]; let s := part5 f { state := 1 }; s.Runs 7 0x72 f ∧ (s.dumpSel 5 (Desc.argField f.desc 0 4).toNat).state ≠ 3) ∧
    (let f := fl 0x71 5 [(8, 5), (160, 4096), (192, 511 * 4096), (416, 8)]; let s := part5 f { state := 1, tensor := 8, stepAny := true, cap := 64 + 4112 }; let d := f.desc
     s.Runs 7 0x71 f ∧ s.dumpMatch d = some 15 ∧ dumpCheck s d (s.dumpSel 5 15) = none ∧ (part5 f {}).dumpMatch d = none) ∧
    (let f := { fl 0x71 5 [(8, 5), (160, 1)] with started := true }; let s : State := { busy f with skn := keys }
     s.fum.dump = none ∧ s.skn.drbgReady 0 = true ∧ s.cmd.flights.find? (fun f => Desc.opcode f.desc = 0x71 ∧ f.started) = some f ∧ 0 < (Desc.length f.desc).toNat) := by
  unfold State.Runs; decide +kernel

/-- A row program running at stitch 0 with nothing in flight. -/
def rowOn : State := { re := { running := true } }
/-- Stitch 0, and stitch 1,023 with a write two stitches from effect; p0 holds and its negation does not. -/
theorem wit_GulunScalarOperations : rowOn.Issues ∧ rowOn.re.holds {} = true ∧ rowOn.re.holds { neg := true } = false ∧ State.reset.RowOver ∧
    (let s : State := { re := { running := true, pc := 1023, flights := [{ left := 2, slot := 2, write := .scalar 63 1 }] } }; s.Issues) ∧
    (let s : State := { re := { flights := [{ left := 1, slot := 7, write := .scalar 63 1 }] } }
     s.re.ended = false ∧ s.re.fault = false ∧ s.re.pc ≤ 1023 ∧ s.re.flights = [{ left := 1, slot := 7, write := .scalar 63 1 }]) := by unfold State.Issues State.RowOver; decide +kernel
theorem wit_GulunTilesAndMemory : rowOn.Issues ∧ MemErr.corrected ≠ .uncorrectable ∧ rowOn.re.holds {} = true := by unfold State.Issues; decide +kernel
/-- The sixteenth knot signal is staged, a seventeenth and a second rail word are dropped; a staging word the row engine takes, and one it does not. -/
theorem wit_GulunProbesStagingAndEvents : rowOn.Issues ∧ (let s : State := { re := { running := true, events := { ksigs := List.replicate 16 (0, 0), railOk := true } } }; s.Issues ∧ ¬ s.re.events.ksigs.length < 16) ∧
    (rowOn.re.staging 0 0).isSome = true ∧ rowOn.re.staging 16383 0 = none := by unfold State.Issues; decide +kernel
/-- A loop whose body ends at stitch 1,023, one that would end behind it, one behind its outer level; a ROW_END at MAX_ISSUE and one inside a loop; a word of no operation. -/
theorem wit_GulunPredicatesLoopsAndEnd :
    (let s : State := { re := { running := true, pc := 1022 } }; s.Issues ∧ s.re.loops.length < 4 ∧ s.re.pc + (0#10).toNat + 1 ≤ 1023 ∧ ¬ s.re.pc + (1#10).toNat + 1 ≤ 1023) ∧
    (let s : State := { re := { running := true, pc := 5, loops := [{ trip := 2, index := 0, first := 4, last := 6 }] } }; s.Issues ∧ s.re.loops ≠ [] ∧ ¬ (∀ l ∈ s.re.loops.head?, s.re.pc + (1#10).toNat + 1 ≤ l.last)) ∧
    (let s : State := { re := { running := true, hdr0 := { maxIssue := 1 } } }; s.Issues ∧ s.re.loops = [] ∧ s.re.issued + 1 = (s.re.hdr s.re.bank).maxIssue.toNat ∧ s.re.flights = []) := by
  unfold State.Issues; decide +kernel
theorem wit_GulunIllegalStitch : stitchOps 0xC5000000 0 = .error (0, 0) ∧ stitchOps 0 4 = .error (2, 1) := ⟨rfl, rfl⟩
/-- Slot words of each kind of operation at its boundary, and the first opcode of none. -/
theorem wit_GulunSlotWords : (field (0xC5000000 : BitVec 32) 24 8).toNat ≠ 0 ∧ 0xC4 < (field (0xC5000000 : BitVec 32) 24 8).toNat ∧ (63#8).toNat < 64 := by decide
def header : RowHdr := { length := 1024, maxIssue := 1008, calFirst := 1023, calCount := 1 }
theorem wit_RowEngineControl : header.valid = true ∧ ({ header with length := 1025 } : RowHdr).valid = false ∧
    (let s : State := { re := { hdr0 := header } }; s.re.clearing = false ∧ s.re.run = false ∧ s.re.hdr0.valid = true) ∧ State.reset.re.hdr0.valid = false ∧
    (let s : State := { re := { run := true, hdr1 := header } }; s.re.run = true ∧ s.re.switching = false ∧ (s.re.hdr (!s.re.bank)).valid = true ∧ (s.re.hdr (!s.re.bank)).layout = (s.re.hdr s.re.bank).layout) ∧
    (let s : State := { re := { run := true } }; (s.re.hdr (!s.re.bank)).valid = false) ∧ (let s : State := { re := { clearing := true } }; s.re.clearing = true) := by decide +kernel
/-- The answer of sensor 255 in slot 24, with right and with wrong parity; port 3 with AVSBus; the 1,024th clean row. -/
theorem wit_SensorsRailsAndHold : (let s : State := { re := { sensLive := [(0x40 + 23, BitVec.ofNat 64 (2 ^ 20 + 255 * 2 ^ 11))] } }
      1 ≤ (24#5).toNat ∧ (24#5).toNat ≤ 24 ∧ bit (SMap.get 0 s.re.sensLive (0x40 + ((24#5).toNat - 1))) 20 = true ∧ parityOk (2 ^ 19 + 1) = true ∧ bit (2 ^ 19 + 1 : BitVec 20) 19 = true ∧
      field (2 ^ 19 + 1 : BitVec 20) 17 2 = 0 ∧ parityOk (2 ^ 19) = false) ∧
    (let s : State := { bnd := { up with avsEn := 8 }, gov := { rails := [(63, { vmax := 900 })] } }; (s.gov.rail 63).vmax ≠ 0 ∧ bit s.bnd.avsEn ((63#6).toNat / 16) = true) ∧
    (900#12).toNat ≤ (900#12).toNat ∧ (899#12).toNat < (900#12).toNat ∧
    (let s : State := { gov := { hold := true, cleanRows := 1024 } }; s.gov.hold = true ∧ s.gov.forceHold = false ∧ s.gov.cleanRows = 1024) ∧ State.reset.gov.hold = false := by decide +kernel

/-- Partition 5 with one region of 2 MiB, claimed as a part in life-cycle state 4. -/
def claiming (f : Flight) (p : Part) : State :=
  { busy f with lc := { state := 4 }, otp := { partEn := 32 }, guard := { size := 1, locked := true }, parts := [(5, { p with regions := [(0, { base := 0, size := 1 })], kgen := 1, tagQuota := 1 })] }
theorem wit_Partitions_claim : let f := fl 0x50 71 [(8, 5)]; let g := { f with started := true }
    (let s := claiming f {}; s.Runs 7 0x50 f ∧ f.started = false ∧ s.partBusy f = false ∧ claimCheck (s.retire (some 5)) 5 = none) ∧
    (let s := claiming f { state := .keyed }; claimCheck (s.retire (some 5)) 5 = some 0x0701) ∧
    (let s := claiming g { state := .claimed }; s.claimOf (5#6).toNat = some g) ∧
    (let s := claiming g { state := .claimed }; let g := s.guard.putRecord 0 { isSealed := true }; (g.record 0).isSealed = true ∧ (s.regionPages 5).head? = some 0) := by unfold State.Runs; decide +kernel
/-- A pass whose first page is sealed is not. -/
theorem claimPass_sealed (d kgen : BitVec 6) (q : Nat) (l : List Nat) (g : Guard) (w : List Nat) (h : (g.record q).isSealed = true) : (claimPass d kgen (q :: l) g w).2.2 = false := by
  simp [claimPass, h]
/-- Writing one page's record leaves another page's unsealed. -/
theorem putRecord_unsealed (g : Guard) (q p : Nat) (r : PageRec) (hp : p ≠ q) (h : (g.record p).isSealed = false) : ((g.putRecord q r).record p).isSealed = false := by
  unfold Guard.putRecord
  split
  · next hq =>
    have e : ({ g with records := SMap.set 0 g.records (g.recordOffset q / 64) r.bits } : Guard).inWindow p = g.inWindow p := rfl
    unfold Guard.record at h ⊢
    rw [e]
    split
    · next hw =>
      rw [if_pos hw] at h
      have : g.recordOffset p / 64 ≠ g.recordOffset q / 64 := by
        simp only [Guard.recordOffset, Guard.inWindow, Bool.and_eq_true, decide_eq_true_eq] at *; omega
      show (PageRec.ofBits (SMap.get 0 (SMap.set 0 g.records _ _) (g.recordOffset p / 64))).isSealed = false
      rw [SMap.get_set_ne _ _ _ this]; exact h
    · rfl
  · exact h
/-- A pass over pages of which none is sealed is complete. -/
theorem claimPass_complete (d kgen : BitVec 6) : ∀ (l : List Nat) (g : Guard) (w : List Nat), l.Nodup → (∀ q ∈ l, (g.record q).isSealed = false) → (claimPass d kgen l g w).2.2 = true
  | [], _, _, _, _ => rfl
  | q :: l, g, w, hn, h => by
    rw [List.nodup_cons] at hn
    simp only [claimPass, h q List.mem_cons_self]
    exact claimPass_complete d kgen l _ _ hn.2 fun p hp => putRecord_unsealed g q p _ (fun e => hn.1 (e ▸ hp)) (h p (List.mem_cons_of_mem _ hp))
theorem wit_Partitions_claimPass : let s := claiming (fl 0x50 71 [(8, 5)]) { state := .claimed }
    (claimPass 5 (s.part 5).kgen (s.regionPages 5) (s.guard.sync false 5) []).2.2 = true := by
  have e : (claiming (fl 0x50 71 [(8, 5)]) { state := .claimed }).regionPages 5 = List.range 512 := by decide +kernel
  refine claimPass_complete _ _ _ _ _ (e ▸ List.nodup_range) fun q _ => ?_
  show (Guard.record { size := 1, locked := true } q).isSealed = false
  unfold Guard.record; split
  · show (PageRec.ofBits 0).isSealed = false; decide +kernel
  · rfl
/-- Each function from a state that it leaves, and from FREE. PART_KEY names slots 24 to 27 for its four keys. -/
theorem wit_Partitions_functions :
    (∀ x ∈ [(0x52, PState.keyed), (0x53, .running), (0x54, .running), (0x55, .frozen), (0x56, .running), (0x57, .claimed), (0x58, .bindingOff)],
      let f := fl x.1 71 [(8, 5)]; let s := claiming f { state := x.2, scrubbed := true }
      s.Runs 7 (BitVec.ofNat 8 x.1) f ∧ f.started = false ∧ s.partBusy f = false ∧ partFrom (Desc.opcode f.desc) (s.part 5).state = true ∧ partCheck s f = none ∧ (∀ c, c < 4 → s.wgCtx c = {}) ∧
      partFrom (Desc.opcode f.desc) ((claiming f {}).part 5).state = false) ∧
    (let f := fl 0x51 71 [(8, 5), (384, 24), (392, 25), (400, 26), (408, 27)]; let k (e : BitVec 9) : SkSlot := { valid := true, usage := 3, engines := e, owner := 5 }
     let s : State := { claiming f { state := .claimed } with skn := { slots := [(24, k 511), (25, k 511), (26, k 511), (27, k 511)] } }
     s.Runs 7 0x51 f ∧ partFrom (Desc.opcode f.desc) (s.part 5).state = true ∧ partCheck s f = none) := by unfold State.Runs; decide +kernel
/-- At the seam: none of the functions but PART_THAW finds its partition frozen, and a PART_KEY finds its shadow entry. -/
theorem wit_Partitions_seam : let f := fl 0x51 71 [(8, 5)]; let x : Shadow := { tag := 7 }
    (let s : State := { claiming f { state := .keyed } with skn := { shadows := [x] } }; (s.part 5).state ≠ .frozen ∧ (s.part 5).state = .keyed ∧ s.skn.shadows.find? (fun x => x.tag = f.tag) = some x ∧
      s.wgQuiet 5 = true ∧ ∀ c, c < 4 → s.wgCtx c = {}) ∧ ((claiming f { state := .frozen }).part 5).state = .frozen ∧ (5 : Nat) ≠ (fl 0x52 71 []).queue := by decide +kernel
/-- A read of the last byte, a program that ends its page, an erase of a whole sector in a staging region that the access list opens; one byte more, or a warning, is refused. -/
theorem wit_FlashOperations : let s : State := { bnd := up, fl := { ok := true, acl := 0xFFF } }; let x (op : BitVec 2) (a : Nat) (n : BitVec 17) : FlChan := { op := op, addr := BitVec.ofNat 32 a, len := n }
    flCheck s 0 (x 1 (flashBytes - 1) 1) = none ∧ flCheck s 0 (x 1 (flashBytes - 1) 2) = some 0x0A01 ∧ flCheck s 1 (x 2 0x5000FF 1) = none ∧ flCheck s 1 (x 2 0x5000FF 2) = some 0x0A01 ∧
    flCheck s 1 (x 3 0x501000 0) = none ∧ flCheck { s with bnd := { up with pwrWarn := true } } 1 (x 3 0x501000 0) = some 0x0A06 ∧ s.fl.run = none ∧ s.fl.last < 2 ∧
    (s.fl.chan (flChanOf true)).busy = false ∧ (s.fl.chan (1 - flChanOf true)).busy = false ∧ (Cls.H ≠ .K ∧ (Cls.H ≠ .S ∨ true = false)) := by decide +kernel
theorem wit_FlashOperations_complete : ∀ op ∈ [1, 2, 3], let r : FlRun := { chan := 1, op := BitVec.ofNat 2 op, addr := 0x500000, len := 1, sram := 0, data := [0] }; let s : State := { fl := { run := some r } }
    s.fl.run = some r ∧ r.chan < 2 ∧ (s.fl.chan (1 - r.chan)).busy = false ∧ r.data.length = r.len ∧
    (let s : State := { fl := s.fl.setChan 0 { busy := true } }; s.fl.run = some r ∧ s.fl.last < 2 ∧ (s.fl.chan (1 - r.chan)).busy = true) := by decide +kernel

/-- The bytes of an empty defect ledger of epoch 1, sealed under a key of zeros. -/
def ledgerBytes : BitVec 768 := 0xb612af0f3d18339134f9340ac7eb13b26a3243b57f59e04eb47ba8d0d86567e50000000000000000000000000000000000000000000000000000000000000000000000000000000000000000010000010000000000000001000100014c534452
/-- A block in field life that can seal, with the device contents given and ledger keys of zeros for kinds 1 and 2. -/
def sealing (dev : Mem) : State :=
  { bnd := up, lc := { state := 4 }, skn := { slots := [(3, { valid := true }), (255, { valid := true })] }, snt := { opened := true, pend := 1 }
    fl := { ok := true, dev := dev, repaired := 4, keys := [{ label := 3, ident := [2, 0, 0], slot := 255, gen := 0 }, { label := 3, ident := [1, 1, 0], slot := 255, gen := 0 }] } }
theorem wit_Ledgers_wear : let s := sealing []
    s.compactionOpen = false ∧ s.bnd.ready = true ∧ s.bnd.pwrWarn = false ∧ s.canSeal = true ∧ bit s.fl.repaired 2 = true ∧ s.fl.defectsDue = false ∧ (s.storeKey (keyName 2 1 (s.otp.counter 3)).1 (keyName 2 1 (s.otp.counter 3)).2).isSome = true ∧ s.snt.opened = true ∧ s.snt.lostSince = 0 ∧
    s.snt.pend < sntSize := by decide +kernel
theorem wit_Ledgers_slots : (sealing []).storeFailed (storeOf 2) = false := by decide +kernel
/-- An entry to write; a sector boundary that holds bytes while the supply warning is on. -/
theorem wit_Ledgers_checkpoint : let s := sealing []; let n := min ckMost s.snt.pend
    0 < s.snt.pend ∧ s.ckThrottled (144 + 32 * n) = false ∧ s.ckBlocked (144 + 32 * n) false = false ∧ s.mayCompact = false ∧ (let w : State := { s with bnd := { up with pwrWarn := true } }; w.bnd.pwrWarn = true) := by decide +kernel
/-- Behind a sector's worth of checkpoints at time 0 the limit holds. -/
theorem wit_Ledgers_throttled : let u := sealing []; let s : State := { u with fl := { u.fl with ckBytes := 4096 } }; let n := min ckMost s.snt.pend
    s.ckThrottled (144 + 32 * n) = true ∧ s.ckBlocked (144 + 32 * (ckCondensed (ckCodes [] s.snt.waiting)).length) false = false := by decide +kernel
theorem wit_Ledgers_blocked : let s := sealing []; let n := min ckMost s.snt.pend; let a := s.ckPlace (144 + 32 * n) false
    a % 4096 = 0 ∧ ({ s with bnd := { up with pwrWarn := true }, fl := { s.fl with dev := [(a, 0)] } } : State).ckBlocked (144 + 32 * n) false = true := by decide +kernel
theorem wit_Ledgers_compaction : let s := sealing ((List.range 96).map fun i => (0xB00000 + i, field ledgerBytes (8 * i) 8))
    s.canSeal = true ∧ s.otp.running = none ∧ s.bnd.pwrWarn = false ∧ s.compactionOpen = true := by decide +kernel

/-- A block at READY with evidence, and a request of `n` bytes in mailbox `m`. -/
def asking (m n : Nat) (fs : List (Nat × Nat)) : State :=
  { bnd := up, skn := { keys with slots := [(1, { valid := true }), (2, { valid := true }), (17, { valid := true }), (18, { valid := true })] }
    cmd := { mailboxes := [(m, { en := true, up := { full := true, length := BitVec.ofNat 9 n, buf := BitVec.ofNat 2048 (packN fs) } })] } }
/-- A block report asked in mailbox 77 into a buffer of 65,536 bytes, and into one a byte shorter. -/
theorem wit_Reports_rpt : let fs (n : Nat) := [(0, 0x0101), (8 * 56, n)]; let s := asking 77 64 (fs 65536); let msg := (s.attTake 77).1; let s0 := (s.attTake 77).2
    s.attReady 77 = true ∧ msg.length = 64 ∧ sub msg 0 2 = [1, 1] ∧ leNat (sub msg 2 1) = 0 ∧ leNat (sub msg 3 1) = 0 ∧ sub msg 5 3 = zeros 3 ∧ sub msg 60 4 = zeros 4 ∧
    rptAllowed 77 0 (leNat (sub msg 4 1)) false = true ∧ rptCheck s0 0 (leNat (sub msg 4 1)) false (leNat (sub msg 48 8)) (leNat (sub msg 56 4)) = none ∧
    (let s := asking 77 64 (fs 65535); rptCheck (s.attTake 77).2 0 0 false 0 (leNat (sub (s.attTake 77).1 56 4)) = some 0x0B05 ∧ (s.cmd.mailbox 77).down.highWater = 0) := by decide +kernel
theorem wit_Reports_key : let s := asking 67 32 [(0, 0x0102), (8 * 24, 1960)]; let msg := (s.attTake 67).1
    s.attReady 67 = true ∧ msg.length = 32 ∧ sub msg 0 4 = [2, 1, 0, 0] ∧ sub msg 6 2 = zeros 2 ∧ sub msg 28 4 = zeros 4 ∧ leNat (sub msg 24 4) = 1960 := by decide +kernel
theorem wit_Reports_sites : (let s : State := { att := { parts := [(63, { holder := some 7 })] } }; (s.attPart (63#6).toNat).holder = some 7) ∧
    (let s : State := { bnd := { up with sitePresent := 2 ^ 23 } }; (23#5).toNat < Config.sites ∧ bit s.bnd.sitePresent 23 = true ∧ (s.attSite 23).step = none) ∧
    (let s : State := { att := { sites := [(23, { step := some 4 })] } }; (s.attSite 23).step = some 4 ∧ s.skn.drbgReady 0 = false) ∧
    (let s : State := { att := { sites := [(23, { step := some 5 })] } }; (s.attSite 23).step = some 5 ∧ (s.attSite 23).step ≠ none ∧ (s.attSite 23).repeated = false) ∧
    (let s : State := { att := { sites := [(23, { step := some 5, repeated := true })] } }; (s.attSite 23).step ≠ none ∧ (s.attSite 23).repeated = true) ∧
    State.reset.evidence = false ∧ (asking 0 0 []).evidence = true ∧ (asking 0 0 []).skn.drbgReady 0 = true := by decide +kernel

/-- A start in stage `n`. -/
def stage (n : BitVec 4) (warm : Bool) (c : Co) : State := { bnd := { porN := true, coStage := n, warmRunning := warm }, co := c }
theorem wit_CastOn_stages : State.reset.starting = false ∧ State.reset.co.testHold = false ∧ (∀ n ∈ [1, 2, 7, 8, 9, 10], (stage (BitVec.ofNat 4 n) false {}).starting = true) ∧
    (let s := stage 9 false {}; (s.att.sites.any fun e => e.2.step.isSome) = false) ∧ (let s : State := { stage 9 false {} with att := { sites := [(0, { step := some 0 })] } }; (s.att.sites.any fun e => e.2.step.isSome) = true) ∧
    (let s := stage 10 false { waveMask := 3, released := 1, failed := 2 }; s.co.waveBusy = false ∧ s.co.waveMask &&& ~~~(s.co.released ||| s.co.failed) = 0) := by decide +kernel
theorem wit_CastOn_co8 : (let s : State := { stage 8 false {} with bnd := { porN := true, coStage := 8, memtrn := 2 ^ 63 } }; 63 ∈ s.enabledSlices ∧ bit s.bnd.memtrn 63 = true ∧ s.starting = true) ∧
    (∀ n ∈ (stage 8 false {}).enabledSlices, bit (stage 8 false {}).bnd.memtrn n = false) := by decide +kernel
theorem wit_CastOn_failures : (let s := stage 9 true { failedStarts := 2 }; s.wdogPaused = false ∧ s.starting = true ∧ s.co.failedStarts.toNat < 3) ∧
    (let s := stage 9 false { failedStarts := 3 }; s.starting = true ∧ s.co.failedStarts = 3) ∧ (let s : State := { co := { testHold := true } }; s.co.testHold = true) ∧
    (let s : State := { co := { rootprov := true }, cmd := { mailboxes := [(64, { up := { full := true } })] } }
     s.co.rootprov = true ∧ (s.cmd.mailbox 64).up.full = true ∧ (s.cmd.mailbox 64).down.full = false ∧ (s.cmd.mailbox 64).down.highWater = 0) ∧
    (let s : State := { stage 11 false { swatched := true, keeperDone := true, stewardDone := true, seamDone := true } with guard := { locked := true } }; s.readyDue = true) ∧
    State.reset.readyDue = false := by decide +kernel
/-- Nine regions left; a wave in each of its steps; an engine paused by the clamp, and one that may go on. -/
theorem wit_PowerUpRunsInWaves : (let s : State := { co := { waveMask := 511 } }; s.co.waveBusy = false ∧ s.co.waveLeft ≠ []) ∧
    (let s : State := { bnd := { up with clamp := true }, co := { waveBusy := true } }; s.wavePaused = true) ∧
    (let s : State := { co := { waveMask := 511, waveBusy := true } }; s.wavePaused = false ∧ s.co.waveBusy = true ∧ s.co.waveStep = .none ∧ s.co.waveLeft ≠ []) ∧
    (let s : State := { co := { waveBusy := true } }; s.co.waveLeft = []) ∧
    (let s : State := { co := { waveBusy := true, waveStep := .ramp } }; s.wavePaused = false ∧ s.co.waveStep = .ramp ∧ s.co.railOk = false) ∧
    (let s : State := { co := { waveBusy := true, waveStep := .settleWait } }; s.wavePaused = false ∧ s.co.waveStep = .settleWait) ∧
    (let s : State := { co := { waveBusy := true, waveSet := 2 ^ 63, waveStep := .settle, waveClean := [(63, 16)] } }; s.co.waveStep = .settle ∧ s.co.settled = true) ∧
    (let s : State := { co := { waveBusy := true, waveSet := 2 ^ 63, waveStep := .settle, waveClean := [(63, 15)] } }; s.co.waveStep = .settle ∧ s.co.settled = false) ∧
    (let s : State := { co := { paused := true, waveStep := .settle } }; s.co.paused = true ∧ s.bnd.clamp = false ∧ s.gov.hold = false ∧ s.co.waveStep = .settle) := by decide +kernel

theorem wit_LinkKeysAndContainment : (let s : State := { bnd := up, host := { sid := BitVec.ofNat 128 (7 * 2 ^ 120 + 0x0605040302010008) } }
      s.host.ideSlot 7 = some 15 ∧ s.host.ideSlot 9 = none ∧ (s.skn.slot 255).valid = false ∧ (s.skn.slot 255).erasing = false ∧ s.skn.locked 255 = false ∧
      bit s.host.ksetUsed (ideBit 15 true) = false) ∧
    (let s : State := { skn := { slots := (List.range' 24 232).map fun i => (i, { valid := true }) } }; ∀ i ∈ List.range' 24 232, (s.skn.slot i).valid = true) ∧ State.reset.reaches .H 0x0E00000 = false ∧
    State.reset.host.frozen = false ∧ (let s : State := { host := { frozen := true, causeRead := true, cause := 4 } }; s.host.frozen = true ∧ s.host.causeRead = true ∧ s.host.cause = 4) ∧
    (let s : State := { bnd := up }; s.reaches .H 0x0E00000 = true ∧ capKSHO 0 .S s = true ∧ s.host.frozen = false) := by decide +kernel
/-- A stream in each state, with the last bytes of its aperture and of its burst page. -/
theorem wit_BulkStreams : let st (x : Stream) : State := { bnd := up, host := { streams := [(15, x)] } }
    (st {}).reaches .H (0x0E01000 + 0x40 * 15) = true ∧
    (let s := st { len := 8 }; (s.stream 15).state = .free ∧ (s.stream 15).len ≠ 0 ∧ (s.stream 15).len.toNat % 4 = 0) ∧
    (let s := st { state := .opened, len := 8 }; (s.stream 15).state = .opened ∧ (s.stream 15).tag = none ∧ (s.stream 15).state ≠ .free) ∧ (let s := st { state := .bound }; (s.stream 15).state = .bound) ∧
    (let s := st { state := .opened, mode := 1, len := 1048576, f := 1048572 }; let x := s.stream 15
      s.host.frozen = false ∧ s.host.translating = false ∧ 4 * (262143#18).toNat + 4 * [(1 : BitVec 32)].length ≤ 1048576 ∧ x.mode = 1 ∧ x.fits (x.place (4 * (262143#18).toNat)) 1 = true) ∧
    (let s := st { state := .opened, mode := 2, len := 8 }; let x := s.stream 15
      x.mode = 2 ∧ x.tag = none ∧ 4 * (1023#10).toNat + 4 * [(1 : BitVec 32)].length ≤ 4096 ∧ x.fits (x.f : Int) 1 = true) ∧
    (let s := st {}; ¬ ((s.stream 15).state = .opened ∨ (s.stream 15).state = .bound)) ∧ (let s : State := { host := { frozen := true } }; s.host.frozen = true) := by decide +kernel
/-- Window 15 at the end of BAR2 with its target at the end of each core SRAM. -/
theorem wit_TranslationWindows : let x : HwWin := { hostBase := 255, size := 1, rd := true, wr := true, en := true, target := 524287 }
    let s (x : HwWin) : State := { bnd := { up with recovery := true }, lc := { state := 1, session := true }, host := { wins := [(15, x)] } }
    let off : BitVec 25 := 16711680
    (s x).host.frozen = false ∧ (s x).host.translating = true ∧ off.toNat < 16777216 ∧ (s x).host.winAt off.toNat = some x ∧ x.space.toNat ≤ 1 ∧
    off.toNat + 1 ≤ (x.hostBase.toNat + x.size.toNat) * 65536 ∧ x.target.toNat + (off.toNat - x.hostBase.toNat * 65536) + 1 ≤ 524288 ∧
    (let y := { x with space := 1, target := 1048575 }; (s y).host.winAt off.toNat = some y ∧ y.target.toNat + (off.toNat - y.hostBase.toNat * 65536) + 1 ≤ 1048576) ∧
    (s x).host.winAt 0 = none ∧ (s x).winAllowed x = true ∧ (s x).winAllowed { x with space := 3 } = false := by decide +kernel
theorem wit_RegisterAccesses_holes : let s : State := { bnd := up, host := { frozen := true } }
    s.contained .H 0 = false ∧ barOk 4 8 = false ∧ isNocClass (.P 5) = true ∧ ({ bnd := up } : State).reaches .H 0x0E00008 = true ∧
    s.portRefuses (hdrOf 65 31 0xFC0) = false ∧ (hdrOf 65 31 0xFC0).addr.toNat + min (64#7).toNat 64 ≤ 0x1000 := by decide +kernel
theorem wit_RegisterAccesses_posts : let s : State := { bnd := up, cmd := { mailboxes := [(63, { en := true })] } }; let h := hdrOf 63 31 (BitVec.ofNat 52 (0x0100218 + 4096 * 63))
    s.portRefuses h = false ∧ s.accessClosed = false ∧ h.addr.toNat = 0x0100218 + 4096 * 63 ∧ h.dom.toNat = 63 ∧ (s.cmd.mailbox 63).en = true ∧ (hdrOf 0 31 h.addr).dom.toNat < 64 := by decide +kernel
/-- A post by REG_WRITE; a knot signal and a knot probe of a knot that is not the partition's. -/
theorem wit_RegisterAccesses_refused : let s : State := { bnd := up }; let h := hdrOf 5 31 0x0200000; let p := hdrOf 5 3 0x0790200
    s.portRefuses h = false ∧ s.reaches (.C h.site false) 0x0200000 = true ∧ intakeWrite s h 0x0200000 8 0 = none ∧ (intakeWrite s p 0x0790200 8 0).isSome = true ∧
    (regWrite s (nocClass s h 0x0200000) 0x0200000 (leBytes 8 (1 : Line)) true).out = s.out ++ [.regRefused] ∧ (regRead s (nocClass s h 0x0200000) 0x0200000 8).1.out = s.out ++ [.regRefused] ∧
    (regWrite s (nocClass s h 0) 0 (leBytes 8 (1 : Line)) true).out = s.out ∧ State.reset.reaches (.C 31 false) 0x0200000 = false := by decide +kernel
theorem wit_RegisterAccesses_none : let s : State := { bnd := up }; windowAt s .O 0x3FFFF00 = none ∧ ∀ loc ∈ locsOf 0x3FFFF00 (min (8#7).toNat 64), regAt s .O loc = none := by
  refine ⟨?_, ?_⟩ <;> decide +kernel

theorem wit_GeyserRing : (let s : State := { bnd := up }; s.bnd.bypass = false ∧ s.gy.retryAt = none ∧ s.bnd.porN = true ∧ s.co.halted = false) ∧ bit State.reset.gy.lock 1 = false ∧ State.reset.bnd.porN = false ∧
    (let s : State := { gy := { loopAt := some 18446744073708551615, lock := 3 } }; s.gy.loopAt = some 18446744073708551615 ∧ s.gy.lock = 3 ∧ (18446744073708551615 : W64).toNat + 1000000 < 2 ^ 64) ∧
    State.reset.gy.loopAt = none ∧ (let s : State := { gy := { ringAt := some 5, retryAt := some 6 } }; s.gy.ringAt = some 5 ∧ s.gy.retryAt = some 6) ∧
    (let s : State := { bnd := up, gy := { lock := 2, lockLost := [(1, some 9)] } }; s.bnd.porN = true ∧ bit s.gy.lock (1#1).toNat = true ∧ SMap.get none s.gy.lockLost (1#1).toNat = some 9 ∧ bit s.gy.lossTold (1#1).toNat = false) ∧
    (let s : State := { bnd := { up with bypass := true }, gy := { lossTold := 2, lockLost := [(1, some 9)] } }; bit s.gy.lossTold (1#1).toNat = true ∧ s.bnd.bypass = true) := by decide +kernel
/-- A frame of no bytes from station 3 to station 4 with `h` hops left. -/
def frameTo (h : BitVec 8) : List Byte := gyFrame { cls := 4, dst := 4, src := 3, hops := h } [] []
/-- Lane 1 with lock. -/
def oneLane : State := { gy := { lock := 2 } }
theorem wit_GeyserFrames : frameOk (zeros 3) = false ∧ frameOk (frameTo 2) = true ∧ (headOf (frameTo 2)).src = 3 ∧ (headOf (frameTo 2)).dst = 4 ∧
    1 < (headOf (frameTo 2)).hops.toNat ∧ (headOf (frameTo 1)).hops.toNat ≤ 1 ∧ frameOk (frameTo 1) = true ∧ (3 : Byte) ≠ 0xFF ∧ oneLane.gy.station ≠ (headOf (frameTo 2)).src ∧
    oneLane.gy.station ≠ (headOf (frameTo 2)).dst ∧ (headOf (frameTo 2)).dst ≠ 0xFF ∧ oneLane.gy.station ≠ 0xFE ∧ 1 ≤ (1 : Byte).toNat ∧ bit oneLane.gy.lock (1#1).toNat = true ∧
    (headOf (frameTo 2)).cls ≠ 0 ∧ oneLane.EgressFree 1 ∧ 64 ≤ (oneLane.gy.lane 1).linkGap := by unfold State.EgressFree; decide +kernel
/-- Steward running with session 1 open in slots 64 and 65. -/
def session (f : GyFlow) (g : Gy) : State :=
  { bnd := up, gy := { g with sessions := [{ id := 1, slot0 := 64, slot1 := 65, mgmt := f, update := f }] }
    skn := { slots := [(64, { valid := true, owner := 64 }), (65, { valid := true, owner := 64 })] } }
/-- Frames to resend for the eighth time, frames given up, and an acknowledgement due. -/
theorem wit_GeyserResends : (let f : GyFlow := { unacked := [(1, frameTo 33)], resends := 7 }; let s := session f {}
      s.gy.flow (.session 1 true) = some f ∧ s.gy.duration = 0 ∧ s.gy.waiting = 0 ∧ f.unacked ≠ [] ∧ f.resends < 8) ∧
    (let f : GyFlow := { unacked := [(1, frameTo 33)], resends := 8 }; (session f {}).gy.flow (.session 1 false) = some f ∧ 8 ≤ f.resends) ∧
    (let f : GyFlow := { ackDue := true }; (session f {}).gy.flow (.session 1 true) = some f ∧ f.ackDue = true ∧ f.unacked = []) := by decide +kernel
theorem wit_Operator_hello : let s := session {} {}
    s.stewardRuns = true ∧ (zeros 63).length < 64 ∧ s.CanReply .hello ∧ s.CanReply (.session 1 true) ∧ s.CanReply (.session 1 false) := by
  refine ⟨by decide +kernel, by decide, ⟨{}, ?_⟩, ⟨{}, ?_⟩, ⟨{}, ?_⟩⟩ <;> decide +kernel
/-- A GY_FINISH of zeros for handshake 0, whose P-384 signature does not verify. -/
theorem wit_Operator_finish : let b := zeros 6511; let x : GyShake := { id := 0, holder := 7, h1 := [], leafP384 := zeros 96, leafMldsa := [], ski := [], time := 0 }
    let s : State := { bnd := { up with timebase := 10000000000 }, gy := { shakes := [x] } }; let h2 := sha384 (x.h1 ++ sub b 0 1788)
    b.length = 6511 ∧ s.gy.shakes.find? (fun x => leBytes 4 x.id = sub b 0 4) = some x ∧ s.now ≤ x.time.toNat + 10000000000 ∧ s.gy.session x.id = none ∧ s.gy.shakes.find? (fun x => x.id = 0) = some x ∧
    ¬ (p384.verify (number (sub x.leafP384 0 48), number (sub x.leafP384 48 48)) (number (sub b 1788 48)) (number (sub b 1836 48)) h2 = true ∧
      mldsaVerify 3 x.leafMldsa (mldsaMu x.leafMldsa h2) (sub b 1884 4627) = true) := by
  refine ⟨by decide +kernel, by decide +kernel, by decide +kernel, by decide +kernel, by decide +kernel, fun h => ?_⟩
  exact absurd h.1 (by decide +kernel)
/-- Session 1 and no session 2; a register read of the identity page; a full queue 68 and an empty one; log reads of one entry and of the most that fit 4,096 bytes; the longest injection. -/
theorem wit_Operator_requests : let s := session {} {}
    (s.gy.session 1).isSome = true ∧ s.gy.session 2 = none ∧ s.stewardRuns = true ∧
    (let b := zeros 8 ++ [8] ++ zeros 7; gyRegForm b 16 = true ∧ leNat (sub b 0 8) = 0 ∧ leNat (sub b 8 1) = 8) ∧
    (zeros 64).length = 64 ∧ (∀ i, i < 16 → ({ s with cmd := { queues := [(68, { order := List.range 16 })] } } : State).cmd.held 68 i = true) ∧ s.cmd.held 68 15 = false ∧ sub (zeros 64) 48 12 = zeros 12 ∧
    (let b := zeros 4 ++ [127, 0, 0, 0]; b.length = 8 ∧ 1 ≤ leNat (sub b 4 4) ∧ leNat (sub b 4 4) ≤ 4095 ∧ 4 + ((List.range (leNat (sub b 4 4))).flatMap fun i => (SMap.get {} s.snt.ring ((leNat (sub b 0 4) + i) % sntSize)).bytes).length ≤ 4096) ∧
    (let b := zeros 6 ++ [0x10, 0x0E]; b.length = 8 ∧ (field (ofLeBytes 64 b) 48 16).toNat = 3600) ∧ (field (3600 * 2 ^ 48 : W64) 48 16).toNat ≤ 3600 ∧
    (let s : State := { gy := { fi := 2 ^ 48 } }; 0 < s.gy.duration ∧ s.gy.duration = 1) := by decide +kernel
theorem wit_Operator_regRead : let s := session {} {}; (regRead s .O 0 8).1 = s := by decide +kernel
/-- A register write to an offset of no register, behind which the session can still be answered. -/
theorem wit_Operator_regWrite : let s := session {} {}; let b := zeros 3 ++ [3] ++ zeros 4 ++ [8] ++ zeros 15
    gyRegForm b 24 = true ∧ (regWrite s .O (leNat (sub b 0 8)) (sub b 16 (leNat (sub b 8 1))) true).CanReply (.session 1 false) := by
  refine ⟨by decide +kernel, {}, ?_⟩; decide +kernel
/-- UPD_BEGIN of 8,193 bytes, the shortest image, and of one byte less. -/
theorem wit_Update_begin : let b (n : Nat) := zeros 4 ++ leBytes 4 (BitVec.ofNat 32 n) ++ zeros 48; let s := session {} {}
    beginForm (b 8193) = true ∧ s.bnd.ready = true ∧ uploadCheck s (b 8193) false = none ∧ uploadCheck s (b 8192) false = some 0x0F11 ∧ uploadCheck s (b 8193) true = none := by decide +kernel
/-- Data that ends an upload of 8,193 bytes, one byte too much, and the wrong place; with the access list open. -/
theorem wit_Update_data : let u : Upload := { kind := 1, bytes := 8193, sdigest := [], received := 8192, session := some 1 }
    let s : State := { session {} { upload := some u } with fl := { ok := true, acl := 0xFFF } }; let b (o n : Nat) := leBytes 8 (BitVec.ofNat 64 o) ++ zeros n
    s.gy.upload = some u ∧ u.session = some 1 ∧ 9 ≤ (b 8192 1).length ∧ leNat (sub (b 8192 1) 0 8) = u.received ∧ u.received + 1 ≤ u.bytes ∧
    s.flashTakes false ((stageRegion u.kind.toNat).1 + u.received) 1 = true ∧ s.flashTakes true ((imageRegion u.kind.toNat).1 + u.received) 1 = true ∧ u.bytes < u.received + 2 ∧
    leNat (sub (b 8191 1) 0 8) ≠ u.received ∧ u.received < u.bytes ∧ leNat (sub [1] 0 1) = u.kind.toNat := by decide +kernel
/-- A complete upload of one byte with the right digest. -/
theorem wit_Update_end : let u : Upload := { kind := 0, bytes := 1, sdigest := sha384 [0xFF], received := 1, session := some 1 }; let s := session {} { upload := some u }
    uploadDone s u (stageRegion u.kind.toNat).1 = none ∧ s.bnd.pwrWarn = false := by decide +kernel
theorem wit_Update_rest : let s := session {} {}
    s.gy.upload = none ∧ s.bnd.ready = true ∧ (let b := [2, 0] ++ leBytes 2 (0 : BitVec 16); b.length = 4 ∧ sub b 1 1 = [0] ∧ leNat (sub b 0 1) ≤ 2 ∧ (2, s.skn.runDigest 2) ∉ s.bnd.readied ∧
      (let s : State := { s with bnd := { up with readied := [(2, 0)] } }; ¬ ((2, s.skn.runDigest 2) ∉ s.bnd.readied ∨ (s.skn.runSvn 2).toNat < 0 ∨ 256 < 0)) ∧
      (s.skn.runSvn 2).toNat < 1 ∧ floorPrograms 2 0 0 = []) ∧
    s.bnd.recovery = false ∧ s.bnd.porN = true ∧ s.bnd.everReady = true := by decide +kernel
theorem wit_Update_recovery : let u : Upload := { kind := 1, bytes := 8193, sdigest := [], received := 8192 }; let s : State := { bnd := { porN := true, recovery := true }, gy := { upload := some u } }
    s.bnd.recovery = true ∧ s.CanReply .recovery ∧ s.gy.upload = some u ∧ u.session = none ∧ u.received < u.bytes := by
  refine ⟨rfl, ⟨{}, ?_⟩, ?_⟩ <;> decide +kernel
theorem wit_NoStepLosesAFuse : step { pending := [.warmReset] } = .next State.reset := by rfl

/-! ### Witnesses of the clauses on seams, held work and refused forms -/

/-- A released region and one that the clamp holds; nothing forced. -/
theorem wit_ThermalClamp_seam : (let s : State := { bnd := up, re := { running := true }, co := { released := 2 ^ 63 } }
      (63 : Nat) < Config.regions ∧ s.re.running = true ∧ s.re.prevOverrun = false ∧ s.re.consec ≠ 3 ∧ s.gov.forceHold = false ∧
      ¬ (s.bnd.clamp = true ∨ s.bnd.thermTrip = true ∨ s.bnd.recovery = true ∨ s.co.halted = true ∨ bit s.co.released 63 = false)) ∧
    (let s : State := { bnd := { up with clamp := true }, re := { running := true } }; s.bnd.clamp = true ∧ s.re.running = true) := by decide +kernel
/-- A masked write over a line that holds data. -/
theorem wit_SealedWrites_merge : let s := sealedPage { own5 with zmap := 1 }; let h := hdrOf 5 31 64
    let r := (s.touch 0 (pageOf h.addr)).pageRec 0 (pageOf h.addr)
    s.Admits 0 h ∧ s.Owns 0 h ∧ h.epoch = (s.part h.dom.toNat).epoch ∧ (s.slice 0).knitting 0 = false ∧ r.weight = false ∧ minorOf r (lineOf h.addr) ≠ 63 ∧
    (1 : BitVec 64) ≠ 0 ∧ (1 : BitVec 64) ≠ BitVec.allOnes 64 ∧ bit r.zmap (lineOf h.addr) = false ∧ (s.slice 0).port = [] := by
  unfold State.Admits State.Owns; decide +kernel
/-- A merge read of a masked write whose old line returns with its tag; a failure at a running partition with an empty error log. -/
theorem wit_SealedReads_merge :
    let q : SliceReq := { hdr := hdrOf 5 31 64, op := .write 0xFF 1 true, key := { macKey := 4, h := 5 } }
    let c : CtlRead := { id := 3, rid := some 255, purpose := .merge q, addr := 1, major := 0, minor := 1, tag := none, data := none }
    let s : State := { bnd := { up with memtrn := 1 }, parts := [(5, { state := .running })], guard := { size := 1, slices := [(0, { en := true, reads := [c] })] } }
    (s.slice 0).reads.find? (fun r => r.rid = some 255) = some c ∧ c.purpose = .merge q ∧ q.op = .write 0xFF 1 true ∧
    maskBytes (lineCrypt q.key c.addr c.major c.minor q.hdr.dom.toNat (7 : Line)) 0xFF 1 ≠ 0 ∧ minorOf (s.pageRec 0 (pageOf q.hdr.addr)) (lineOf q.hdr.addr) ≠ 63 ∧
    (s.slice 0).knitHeld = [] ∧ (s.slice 0).waiting = [] ∧ (s.slice 0).port = [] ∧ bit s.bnd.memtrn 0 = true ∧
    s.guard.inWindow (c.addr / 64) = true ∧ (s.slice 0).errValid = false ∧ (s.part q.hdr.dom.toNat).state = .running ∧ s.vent.table.length < 256 ∧ (s.slice 0).macs.length < 64 := by decide +kernel
/-- A read of a zero line that waits for its record, sealed and not. -/
theorem wit_SliceWorkEnds_waiting : let q : SliceReq := { hdr := hdrOf 5 31 64, op := .read, key := { kgen := 1 } }
    let st (r : PageRec) : State := { bnd := up, parts := [(5, { state := .running, kgen := 1 })]
                                      guard := ({ size := 1, keys := [(5, { kgen := 1, valid := true })], slices := [(0, { en := true, fetches := [0], waiting := [q] })] } : Guard).putRecord 0 r }
    (let s := st own5; let r := s.guard.record 0
     (s.slice 0).fetches = [0] ∧ (s.slice 0).waiting = [q] ∧ pageOf q.hdr.addr = 0 ∧ q.hdr.dom.toNat < 64 ∧ q.op = .read ∧ (s.slice 0).blocked 0 = false ∧ (s.slice 0).cache = [] ∧
     r.isSealed = true ∧ r.pid.toNat = 5 ∧ r.kgen = q.key.kgen ∧ (s.keyEntry 5).valid = true ∧ r.quarantine = false ∧ s.inIngest q.hdr = false ∧ bit r.zmap (lineOf q.hdr.addr) = true) ∧
    ((st {}).guard.record 0).isSealed = false := by decide +kernel
theorem wit_SlicesRefuse_regOp : let h : NocHdr := { hdrOf 5 31 0 with regOp := true }; let s : State := { guard := { slices := [(63, { en := true })] } }
    hdrBarred h = false ∧ h.regOp = true ∧ (s.slice 63).en = true ∧ s.sliceFenced 63 = false ∧ (s.slice 63).suspended = false := by decide +kernel
/-- A dirty record of partition 5 in the only cache that holds its page. -/
theorem wit_Guard_syncEnd : let e : CacheRec := { page := 9, pr := own5, dirty := true }
    let s : State := { guard := { size := 1, syncBusy := true, syncRunDom := 5, slices := [(63, { cache := [e] })] } }
    s.guard.syncBusy = true ∧ s.guard.syncRunAll = false ∧ (63, s.slice 63) ∈ s.guard.slices ∧ e ∈ (s.slice 63).cache ∧ e.dirty = true ∧ e.pr.pid = s.guard.syncRunDom ∧
    s.guard.inWindow e.page = true ∧ (∀ y ∈ s.guard.slices, ∀ e' ∈ y.2.cache, e'.page = e.page → e' = e) := by decide +kernel
/-- The read of a plain destination with the write behind it; the same once both are answered. -/
theorem wit_Responses_plainDestination : let r : OwnReq := { txid := 0, purpose := .save 7, op := 0, addr := 64, dom := 65, epoch := 0, mask := 0, data := 0, sent := true }
    let w : OwnReq := { r with purpose := .cmd 7, op := 1, mask := BitVec.allOnes 64, data := 5 }
    (let s : State := { own := [r, { w with sent := false, behind := true }] }; s.own = [r, { w with sent := false, behind := true }] ∧ r.live = true ∧ r.purpose = .save 7) ∧
    (let r := { r with answer := some (.ok, 3) }; let w := { w with txid := 1, answer := some (.ok, 0) }; let s : State := { own := [r, w] }
     s.own = [r, w] ∧ r.answer = some (.ok, 3) ∧ w.sent = true ∧ w.answer.isSome = true ∧ r.addr = w.addr) := by decide +kernel
/-- A host write of 3 bytes, and one whose page containment closes. -/
theorem wit_Mailbox_malformed : let at_ := mbPage 64 + 256 * b2n true + (0#8).toNat
    barOk at_ (3#7).toNat = false ∧ State.reset.contained .H at_ = false ∧ ({ host := { frozen := true } } : State).contained .H at_ = true ∧ barOk at_ (64#7).toNat = true := by decide +kernel
/-- Keeper's wait that is not met at a knot with room, with four waiters, and behind an overflow waiter; a signal that meets the only waiter. -/
theorem wit_Knot_waiters : let w : Waiter := { threshold := 9, mailbox := 71, doorbell := 30, dom := 64, handle := 0, seq := 0 }
    let st (f : Flight) (x : Knot) : State := { bnd := up, cmd := { flights := [f], knots := [(65535, x)], mailboxes := [(71, { en := true })] } }
    let wait := fl 0x61 71 [(8, 64), (192, 65535), (384, 9 + 71 * 2 ^ 48 + 30 * 2 ^ 55)]; let sig := fl 0x60 71 [(8, 64), (192, 65535), (384, 9)]
    ((st wait {}).Runs 7 0x61 wait ∧ knotCheck (st wait {}).cmd (qClass 71) 64 65535 false = none ∧
      waitMailboxOk (st wait {}).cmd (qClass 71) 64 (Desc.argField wait.desc 48 7).toNat (Desc.argField wait.desc 55 5).toNat = true ∧
      ((st wait {}).cmd.knot 65535).value.toNat < (Desc.argField wait.desc 0 48).toNat ∧ (st wait {}).cmd.hwWaiters < 16384) ∧
    (4 ≤ ((st wait { hw := [w, w, w, w] }).cmd.knot 65535).hw.length ∧ ((st wait { spill := [w] }).cmd.knot 65535).spill ≠ [] ∧ (st wait {}).cmd.spilled 64 < 131072) ∧
    (let s := st sig { hw := [w] }; s.Runs 7 0x60 sig ∧ knotCheck s.cmd (qClass 71) 64 65535 false = none ∧ (s.cmd.knot 65535).value.toNat + (Desc.argField sig.desc 0 48).toNat < 2 ^ 48 ∧
      (s.cmd.knot 65535).hw = [w] ∧ (s.cmd.knot 65535).spill = [] ∧ (∀ e ∈ s.cmd.knots, e.2.spill = []) ∧ w.threshold.toNat ≤ (s.cmd.knot 65535).value.toNat + 9 ∧ (s.cmd.mailbox w.mailbox.toNat).en = true) := by
  unfold State.Runs; decide +kernel
theorem wit_KeysLeaveTheirSlot_eraseEnd : let g := { fl 0x15 71 [(8, 5), (384, 63)] with started := true }
    let s : State := { busy g with skn := { slots := [(63, { valid := true, erasing := true })] } }
    (s.skn.slot (63#8).toNat).erasing = true ∧ s.cmd.flights.find? (fun f => Desc.opcode f.desc = 0x15 ∧ Desc.target f.desc = (63#8).toNat ∧ f.started) = some g := by decide +kernel
/-- A target that locks meanwhile; an output for plain memory, before its writes, while they are out and once they are answered. -/
theorem wit_PublicKeyOperations_plain : let ends (f : Flight) (w : Bool) (own : List OwnReq) : State :=
      { engine f { state := 1, phase := 2, run := some 7, outcome := some { out := zeros 64, cycles := 1 }, wrote := w } with own := own }
    let f := fl 0x32 71 [(8, 5), (320, 2 ^ 20)]; let q : OwnReq := { txid := 0, purpose := .cmd 7, op := 1, addr := 64, dom := 65, epoch := 0, mask := 0, data := 0, sent := true }
    (let g := fl 0x35 71 [(8, 5), (392, 3)]; (ends g false []).pke.wrote = false ∧ (ends g false []).pkeTaken g.desc = some 0x0202) ∧
    ((ends f false []).cmd.flight 7 = some f ∧ (ends f false []).pkeTaken f.desc = none ∧ Desc.pkePlain f.desc = true ∧ (ends f false []).pke.wrote = false) ∧
    ((ends f true [q]).pke.wrote = true ∧ ¬ ((ends f true [q]).ownDone (.cmd 7) = true ∧ (ends f true [q]).ownDone (.save 7) = true)) ∧
    ((ends f true []).ownDone (.cmd 7) = true ∧ (ends f true []).ownDone (.save 7) = true) ∧
    (let f := fl 0x32 71 [(8, 5), (320, 2 ^ 63)]; (ends f false []).pkeTaken f.desc = none ∧ Desc.pkeFn f.desc < 4 ∧ Desc.pkePlain f.desc = false) := by decide +kernel
/-- A counter word that has bits, an ECC word that holds its data; re-burns that each check refuses. -/
theorem wit_FuseCommands_reburn : let s (st : BitVec 4) (w : SMap OtpWord) (d : BitVec 32) : State := { lc := { state := st }, otp := { wdata := d, words := w } }
    (let u := s 3 [(0x7FF, { nrm := 1 })] 0; otpCodeOf 0x7FF = none ∧ eccPartOf 0x4C8 = none ∧ u.lc.state = 3) ∧
    ((otpCodeOf 0x018).isSome = true ∧ (s 0 [] 0).lc.state.toNat = 0 ∧ 6 ≤ (s 6 [] 0).lc.state.toNat) ∧
    (let u := s 3 [(0x018, { nrm := 3, hi := 3, low := 3 })] 0; u.otp.reburnTargets 0x018 = none) ∧
    (let u : State := { s 3 [] 0 with bnd := { up with pwrWarn := true } }; ∃ st, u.otp.reburnTargets 0x018 = some (0, 0, 0) ∧ otpCommon u = some st) := by
  refine ⟨by decide +kernel, by decide +kernel, by decide +kernel, ?_⟩
  exact ⟨((otpCommon { bnd := { up with pwrWarn := true }, lc := { state := 3 } }).getD 0), by decide +kernel, by decide +kernel⟩
/-- A deferred test of digest core 0 two rows after its request. -/
def deferredCore (st : BitVec 4) : State :=
  { busy (fl 0xA0 71 []) with bnd := { up with timebase := 2000 }, vent := { tests := [{ unitId := unitOf 8 0, byCmd := some 7, phase := .deferred }], units := [((unitOf 8 0).toNat, { state := st })] } }
/-- The unit in service, and retired. -/
theorem wit_Vent_deferred : 0 + 2 ≤ (deferredCore 0).row ∧ ((deferredCore 0).vent.unitRec (unitOf 8 0)).state = 0 ∧ (deferredCore 0).testable (unitOf 8 0) = true ∧
    ((deferredCore 5).vent.unitRec (unitOf 8 0)).state = 5 ∧ (deferredCore 5).cmd.flight 7 = some (fl 0xA0 71 []) := by decide +kernel
/-- A report of class 10 that starts a storm. -/
def stormy : VentRec := { cls := 10, peer := unitOf 8 0, code := 1, reporter := 24, dom := 65, detail := 0, time := 0, count := 17 }
theorem wit_Vent_storm : let s : State := { bnd := up, vent := { table := [stormy] } }
    s.vent.table = [stormy] ∧ s.vent.storms = [] ∧ s.bnd.snsAlert = false ∧ 16 < stormy.count.toNat ∧ unitExternal stormy.peer = false ∧ unitConfigured stormy.peer = true ∧
    s.vent.testing stormy.peer = false ∧ (s.vent.unitRec stormy.peer).state ≠ 5 ∧ (s.vent.unitRec stormy.peer).lasting = false := by decide +kernel
/-- A waiting test of a digest core, which has a spare, and of a lane, which has none. -/
def waitingTest (u : UnitId) : State := { bnd := up, vent := { tests := [{ unitId := u, byCmd := none }] } }
theorem wit_Vent_seam : unitKind (unitOf 8 0) = 8 ∧ unitKind (unitOf 7 31) = 7 ∧ ((waitingTest (unitOf 8 0)).vent.unitRec (unitOf 8 0)).state = 0 ∧ ((waitingTest (unitOf 7 31)).vent.unitRec (unitOf 7 31)).state = 0 ∧
    (waitingTest 0).vent.copying = [] ∧ (waitingTest 0).vent.copyDone = [] := by decide +kernel
theorem wit_Vent_seamSpares : (waitingTest (unitOf 8 0)).vent.freeSpares (unitOf 8 0) ≠ [] ∧ (waitingTest (unitOf 7 31)).vent.freeSpares (unitOf 7 31) = [] := by decide +kernel
/-- A received frame of job 9, rank 3 and generation `g` whose tag is zero. -/
def forged (g : Byte) : List Byte := zeros 12 ++ [0x88, 0xB5] ++ ([9, 0, 0, g] ++ zeros 6 ++ [3, 0] ++ [1, 0] ++ zeros 10) ++ zeros 17
/-- It does not authenticate, under the current generation and under the one before. -/
theorem wit_Link_forged : let opened (fr : List Byte) (k : Key256) : Option (List Byte) := gcmOpen k (linkIv ((fr.drop 14).take 24)) (fr.take 38) ((fr.drop 38).take 1) (ofLeBytes 128 ((fr.drop 38).drop 1))
    opened (forged 254) 1 = none ∧ opened (forged 253) 2 = none := by decide +kernel
/-- A job with a previous key; a generation that is neither; a stream that is new, with room and without; a job whose partition does not run. -/
theorem wit_Link_authentication : let j : Job := { aJob with prev := some 2 }; let s := linked (fl 0 71 []) [(4095, some j)] []; let hd := ((forged 253).drop 14).take 24
    hd.getD 3 0 = j.kgen - 1 ∧ 0 < j.kgen.toNat ∧ (((forged 254).drop 14).take 24).getD 3 0 = j.kgen ∧ (((forged 7).drop 14).take 24).getD 3 0 ≠ j.kgen ∧ aJob.prev = none ∧
    (ofLeBytes 24 (hd.take 3) : BitVec 24) = 9 ∧ hd.drop 12 = [1, 0] ++ List.replicate 10 0 ∧ 14 + 40 ≤ (forged 253).length ∧ s.jobPasses 31 j = true ∧
    s.lnk.streams.find? (fun e => e.job = 9 ∧ e.rank = ofLeBytes 16 ((hd.drop 10).take 2)) = none ∧ s.lnk.streams.length < 16384 ∧ (s.part 5).streams.toNat ≤ s.streamsOf j.dom ∧
    (let t : State := { s with parts := [(5, { state := .running, streams := 1 })] }; t.streamsOf j.dom < (t.part 5).streams.toNat) ∧ ({ s with parts := [] } : State).jobPasses 31 j = false := by decide +kernel
/-- A shadow entry of LINK_JOB and of LINK_REKEY at the seam, with the derivation core up and fenced. -/
theorem wit_Link_seam : let sh : Shadow := { tag := 7, jobKey := 3 }; let g (op : Nat) : Flight := { fl op 71 [(8, 5), (384, 9), (424, 25)] with started := true }
    let st (op : Nat) (jobs : SMap (Option Job)) : State := { linked (g op) jobs [] with skn := { shadows := [sh] } }
    (let s := st 0x90 []; s.cmd.flights = [g 0x90] ∧ (g 0x90).started = true ∧ s.skn.shadows = [sh] ∧ sh.tag = (g 0x90).tag ∧ s.deriveUp = true ∧ s.jobEntry (Desc.job (g 0x90).desc) = none ∧ 0 ∈ s.jobFree) ∧
    (let s := st 0x91 [(4095, some aJob)]; Desc.opcode (g 0x91).desc = 0x91 ∧ s.jobOf (g 0x91).desc = some (4095, aJob) ∧ aJob.kgen ≠ 255) ∧
    (let s : State := { st 0x90 [] with vent := { units := [((unitOf 10 0).toNat, { state := 3 })] } }; s.deriveUp = false) := by decide +kernel
theorem wit_Fumarole_snapshot : (1279 : Nat) < 1280 ∧ (∀ e ∈ State.reset.re.sensors, e.1 < 256) ∧ (∀ e ∈ State.reset.vent.summary, e.1 < 256) ∧ (State.reset.fum.deltas.map (·.1)).Nodup := by decide +kernel
/-- TELEM_READ into SRAM; a drain of a record into memory; a dump that has written one line. -/
theorem wit_Telemetry_writes :
    (let f := fl 0x81 71 [(8, 5), (160, 136), (320, 2 ^ 63)]; digForm f.queue (Desc.dom f.desc) (Desc.dst f.desc) 136 true = none ∧ bit (Desc.dst f.desc) 63 = true) ∧
    (let f := fl 0x71 5 [(8, 5), (160, 4096)]; let r : DumpRun := { tag := 7, dom := 5, sel := 15, phase := .reading, header := [], nonce := 0, written := [(64, 3)] }
     (busy f).cmd.flight r.tag = some f ∧ (busy f).dumpWritten r ≠ []) := by decide +kernel
/-- A stitch address behind the program, and an uncorrectable slot word. -/
theorem wit_Gulun_faults : (let s : State := { re := { running := true, pc := 1024 } }; s.re.running = true ∧ s.re.ended = false ∧ s.re.fault = false ∧ 1023 < s.re.pc) ∧
    stitchOps 0 128 = .error (7, 1) ∧ (3 : BitVec 6) ≠ 4 := ⟨by decide, by rfl, by decide⟩
/-- The seam behind a row that a fault stopped, behind one that did not end, and behind a clean one; the third of three, in and out of hold mode; pending switches. -/
theorem wit_RowEngine_seam : (∀ e ∈ [(true, false), (false, false), (false, true)], let s : State := { re := { running := true, fault := e.1, ended := e.2 } }
      s.re.running = true ∧ ((s.re.fault = true ∨ s.re.ended = false) ∨ (s.re.fault = false ∧ s.re.ended = true))) ∧
    (let s : State := { re := { running := true, consec := 2 } }; s.gov.hold = false ∧ s.re.running = true ∧ (s.re.fault = true ∨ s.re.ended = false) ∧ (s.re.consec = 2 ∨ s.re.consec = 3)) ∧
    (let s : State := { gov := { forceHold := true } }; s.gov.hold = false ∧ s.re.running = false ∧ s.gov.forceHold = true) ∧ (let s : State := { gov := { hold := true } }; s.gov.hold = true) ∧
    (State.reset.gov.hold = false ∧ State.reset.re.running = false ∧ State.reset.gov.forceHold = false ∧ State.reset.re.switching = false ∧ State.reset.re.paramReq = false) ∧
    (let s : State := { re := { switching := true, paramReq := true } }; s.re.switching = true ∧ s.re.paramReq = true) := by decide +kernel
/-- A mailbox that holds the other TYPE, and one that is not ready. -/
theorem wit_Reports_types : (asking 67 32 [(0, 0x0102), (8 * 24, 1960)]).attType 67 = some 2 ∧ (asking 77 64 [(0, 0x0101)]).attType 77 = some 1 ∧ State.reset.attReady 67 = false ∧
    (asking 67 1 [(0, 9)]).attType 67 ≠ some 1 ∧ (asking 67 1 [(0, 9)]).attType 67 ≠ some 2 ∧ (asking 67 1 [(0, 9)]).attReady 67 = true := by decide +kernel
/-- Responses of a site that are heard, judged good or bad, or not heard, in the steps of an exchange. -/
theorem wit_Reports_exchange : let at_ (k : Nat) : State := { bnd := { up with sitePresent := 2 ^ 23 }, att := { sites := [(23, { step := some k })] } }
    let ver : List Byte := [0x10, 4, 0, 0, 0, 1, 0, 0x13]; let caps (ct : Byte) : List Byte := [0x12, 0x61, 0, 0, 0, ct] ++ zeros 14; let cert (left : Byte) : List Byte := [0x12, 2, 0, 0, 1, 0, left, 0, 9]
    (at_ 0).attSite 23 = { step := some 0 } ∧ ({} : SpdmSide).heard 0 ver = some { ver := 0x13 } ∧ (at_ 0).siteGood 23 0 { ver := 0x13 } ver = true ∧ ({} : SpdmSide).heard 0 [1] = none ∧
    ({} : SpdmSide).heard 1 (caps 15) = some { ct := 15 } ∧ (at_ 1).siteGood 23 1 { ct := 15 } (caps 15) = false ∧ (at_ 1).siteGood 23 1 { ct := 14 } (caps 14) = true ∧
    ({} : SpdmSide).heard 4 (cert 1) = some { chain := [9], left := 1 } ∧ (at_ 4).siteGood 23 4 { chain := [9], left := 1 } (cert 1) = true ∧ (at_ 4).siteGood 23 4 { chain := [9] } (cert 0) = false := by decide +kernel
/-- GET_VERSION has a plain answer; CHALLENGE and a signed GET_MEASUREMENTS have none and are signed; FINISH has none and is not. -/
theorem wit_Reports_spdm : (hostPlain [] [0x10, 0x84]).isSome = true ∧ (hostPlain [] [0x13, 0x83] = none ∧ spdmSigns [0x13, 0x83] = true) ∧ (hostPlain [] [0x13, 0xE0, 1] = none ∧ spdmSigns [0x13, 0xE0, 1] = true) ∧
    (hostPlain [] [0x13, 0xE5] = none ∧ spdmSigns [0x13, 0xE5] = false) ∧
    mutualHolds { alg := 0x80, key := zeros 96, signed := [], sig := zeros 96 } = false := by decide +kernel
/-- An access in the burst ports while a window is open. -/
theorem wit_Translation_ports : 16777216 ≤ (16777216#25).toNat ∧ ({ host := { wins := [(15, { en := true })] } } : State).host.translating = true := by decide +kernel
/-- A host read of 65 bytes; Keeper's read of a knot beyond the table, and its posts: to a named port of a site, which is refused, and to none. -/
theorem wit_RegisterAccesses_core : let s : State := { bnd := up }; barOk 0 (65#7).toNat = false ∧ 64 < (65#7).toNat ∧
    (regRead s .K 0x0200000 8).1.out = s.out ∧ (regWrite s .K 0 (leBytes 8 (1 : Line)) true).out = s.out ∧ intakeWrite s coreHdr 0 8 0 = none ∧
    (∃ t, intakeWrite s coreHdr 0x0790100 8 0 = some t ∧ t.out = s.out ++ [.nocResp 0 .refused 0]) := by
  refine ⟨by decide +kernel, by decide +kernel, by decide +kernel, by decide +kernel, by decide +kernel, _, rfl, by decide +kernel⟩
/-- A message of one byte and TYPE `ty` from the gateway to station 3. -/
def helloFrame (ty : BitVec 16) : List Byte := gyFrame { cls := 1, dst := 3, src := 0xFE, seq := 1, type := ty, msgBytes := 1 } [] [7]
def station3 : State := { bnd := up, gy := { station := 3, lock := 2 } }
/-- It is a frame of a whole message that the port takes. -/
def helloGood (ty : BitVec 16) : Bool :=
  let h := headOf (helloFrame ty)
  frameOk (helloFrame ty) && h.cls = 1 && h.src = 0xFE && h.dst = 3 && h.session = 0 && !h.ackOnly && h.last && h.seq.toNat = 1 && h.msgBytes.toNat = frameBytes (helloFrame ty) && h.type = ty
/-- A message of an unknown TYPE, and one of GY_FINISH's without a session. -/
theorem wit_Geyser_messages : helloGood 0xFF = true ∧ helloGood 3 = true ∧ gyType 0xFF = false ∧ gyType 3 = true := by decide +kernel
/-- A lane with lock and one without. -/
theorem wit_Geyser_locks : station3.gy.hello.unacked = [] ∧ station3.gy.hello.asm = 0 ∧ station3.gy.hello.got = 0 ∧ station3.stewardRuns = true ∧ bit station3.gy.lock (1#1).toNat = true ∧
    bit station3.gy.lock (0#1).toNat = false ∧ station3.gy.station = 3 ∧ station3.CanReply .hello := by
  refine ⟨by decide +kernel, by decide +kernel, by decide +kernel, by decide +kernel, by decide +kernel, by decide +kernel, by decide, {}, ?_⟩; decide +kernel
/-- A GY_FINISH that names no pending session while one is pending. -/
theorem wit_Operator_stale : let x : GyShake := { id := 9, holder := 7, h1 := [], leafP384 := [], leafMldsa := [], ski := [], time := 0 }; let s : State := { bnd := up, gy := { shakes := [x] } }
    (zeros 6511).length = 6511 ∧ s.gy.shakes.find? (fun x => leBytes 4 x.id = sub (zeros 6511) 0 4) = none ∧ s.gy.shakes = x :: [] ∧ s.gy.session x.id = none ∧
    s.CanReply (.session 9 false) ∧ s.stewardRuns = true := by
  refine ⟨by decide +kernel, by decide +kernel, by decide +kernel, by decide +kernel, ⟨{}, ?_⟩, by decide +kernel⟩; decide +kernel

/-! ### Known answers of the standards (FIPS 180-4, FIPS 197, FIPS 202, SP 800-38D, SP 800-185) -/

theorem test_sha256_abc : number (sha256 (ascii "abc")) = 0xba7816bf8f01cfea414140de5dae2223b00361a396177a9cb410ff61f20015ad := by decide +kernel
theorem test_sha384_abc : number (sha384 (ascii "abc")) = 0xcb00753f45a35e8bb5a03d699ac65007272c32ab0eded1631a8b605a43ff5bed8086072ba1e7cc2358baeca134c825a7 := by decide +kernel
theorem test_sha3_256_empty : number (sha3_256 []) = 0xa7ffc6f8bf1ed76651c14756a061d662f580ff4de43b49fa82d80a4b80f8434a := by decide +kernel
/-- FIPS 197, appendix C.3. -/
theorem test_aes256 : number (leBytes 16 (aes256 (ofLeBytes 256 ((List.range 32).map (BitVec.ofNat 8 ·))) (ofLeBytes 128 ((List.range 16).map fun i => BitVec.ofNat 8 (0x11 * i))))) =
    0x8ea2b7ca516745bfeafc49904b496089 := by decide +kernel
/-- AES-256-GCM of nothing under zeros. -/
theorem test_gcm : number (leBytes 16 (gcmTag 0 (zeros 12) [] [])) = 0x530f8afbc74536b9a963b4f1c4cb738b := by decide +kernel
/-- SP 800-185, KMAC256 sample 4. -/
theorem test_kmac256 : number (kmac256 ((List.range 32).map fun i => BitVec.ofNat 8 (0x40 + i)) [0, 1, 2, 3] 64 (ascii "My Tagged Application")) =
    0x20C570C31346F703C9AC36C61C03CB64C3970D0CFC787E9B79599D273A68D2F7F69D4CC3DE9D104A351689F27CF6F5951F0103F33F4F24871024D9C27773A8DD := by decide +kernel

/-! ### Small effects -/

/-- The state that a command answers. -/
def after (i : Instr) (s : State) : State := match exec i s with | .next t => t | _ => {}
theorem test_rowTick : (after (.rowTick 1050) {}).bnd.timebase = 1000 := by decide +kernel
theorem test_idle : step {} = .next {} := by rfl
/-- R116: the largest sum that fits is taken, one more is refused. -/
theorem test_knotRegisterSignal : ((after (.knotRegisterSignal .K 5 (2 ^ 47)) (busy (fl 0x60 71 []))).cmd.knot 5).value = 2 ^ 47 ∧
    (after (.regWrite (hdrOf 65 3 0x0200050) 8 1) { bnd := up, cmd := { knots := [(5, { value := 2 ^ 48 - 1 })] } }).out = [.nocResp 9 .refused 0] := by decide +kernel
/-- R536: ADD wraps and ADDS saturates; both read before they write. -/
theorem test_gulun_add : let s : State := { re := { running := true, regs := [(1, 2 ^ 63 - 1)] } }
    (after (.gAdd false {} 1 1 1) s).re.reg 1 = BitVec.allOnes 64 - 1 ∧ (after (.gAdds false {} 1 1 1) s).re.reg 1 = 2 ^ 63 - 1 := by decide +kernel
theorem test_gulun_sra : (after (.gSrai true {} 2 1 63) { re := { running := true, regs := [(1, 2 ^ 63)] } }).re.reg 2 = BitVec.allOnes 64 := by decide +kernel
/-- R527: MUL takes effect three stitches on. -/
theorem test_gulun_mul : let s := after .nop (after (.gMul {} 3 1 1) { re := { running := true, regs := [(1, 5)] } }); s.re.reg 3 = 0 ∧ (after .nop s).re.reg 3 = 25 := by decide +kernel
/-- R64: the clamp drives every region to step 0. -/
theorem test_thermTrip : let t := after .thermTripFall { gov := { regs := [(63, { step := 40, stretch := true })] } }; (t.gov.reg 63).step = 0 ∧ (t.gov.reg 63).stretch = false ∧ t.bnd.clamp = true := by decide +kernel
/-- R251, R252: the window holds 1,024 counters. -/
theorem test_replay : let e : StreamEnt := { job := 1, rank := 0, gen := 0, top := 2000, window := 1 }
    (e.accept 0 977).isSome = true ∧ (e.accept 0 976).isSome = false ∧ (e.accept 0 2000).isSome = false := by decide +kernel
/-- R369: a single error is corrected, a double one is not. -/
theorem test_ecc : let w := eccEncode 0xDEADBEEF; eccDecode w = some (0xDEADBEEF, false) ∧ eccDecode (w ^^^ 0x80) = some (0xDEADBEEF, true) ∧ eccDecode (w ^^^ 0x81) = none := by decide +kernel
/-- R107, R109: a message delivered down is read and answered with DONE. -/
theorem test_mailbox : let s : State := { bnd := up, cmd := { mailboxes := [(64, { en := true })] } }
    let t := after (.send .K 64 true 4) (after (.mbBufferWrite .K 64 true 0 4 0xAABBCCDD) s)
    (t.cmd.mailbox 64).down.full = true ∧ (t.cmd.mailbox 64).down.length = 4 ∧ (t.cmd.mailbox 64).down.buf = 0xAABBCCDD ∧ ((after (.done .H 64 true) t).cmd.mailbox 64).down.full = false := by decide +kernel
/-- R146: a masked write over a zero line leaves zeros outside its bytes, and the page's sum of zero lines falls. -/
theorem test_zeroMap : let t := after (.writeLine 0 (hdrOf 5 31 0) 0) (sealedPage own5); (t.pageRec 0 0).zmap = 3 ∧ t.out = [.nocResp 9 .ok 0] := by decide +kernel
/-- In both rings x^255 times x is -1 (FIPS 203 section 4.3, FIPS 204 section 7.5), and the smallest ring element packs to its bytes. -/
theorem test_lattice_rings : let x : Poly := 0 :: 1 :: List.replicate 254 0; let y : Poly := List.replicate 255 0 ++ [1]
    kemUntt (kemMul (kemNtt x) (kemNtt y)) = 3328 :: List.replicate 255 0 ∧ dsaUntt (dsaMul (dsaNtt x) (dsaNtt y)) = 8380416 :: List.replicate 255 0 := by decide +kernel

/-- The wait-for cycle through three knots, and none where the chain ends (R641). -/
theorem test_hang_cycle : let next (k : Nat) : List Nat := [[1, 4], [2], [3], [1], []].getD k []
    cycleSearch next 1 5 [[1]] [1] = some [1, 2, 3] ∧ cycleSearch next 4 5 [[4]] [4] = none := by decide +kernel

/-- A fence ends the finish on its digest core and leaves the context as it was before it (R99, R634); a replaced core's goes on
(R309). -/
theorem test_fence_retry : let fin := fl 0x22 64 [(8, 65), (384, 27)]; let s := absorbing fin 2 0 [] []
    let t := s.moveWork (unitOf 8 4) none; let u := s.moveWork (unitOf 8 4) (some (unitOf 8 2))
    t.cmd.flight 7 = none ∧ (t.digCtx 27).state = 1 ∧ (t.digCtx 27).func = none ∧
    u.cmd.flight 7 = some fin ∧ (u.digCore 2).ctx = some 27 ∧ (u.digCore 4).ctx = none := by decide +kernel

/-- Work on digest core 4 puts its deferred test off, work elsewhere does not (R636). -/
theorem test_deferred_work : let t : Test := { unitId := unitOf 8 4, byCmd := some 7, phase := .deferred, asked := 5 }
    let s : State := { bnd := { up with timebase := 3000 }, vent := { tests := [t] } }
    ((s.worked (· = unitOf 8 4)).vent.tests.map (·.asked)) = [3000] ∧
    ((s.worked (· = unitOf 8 3)).vent.tests.map (·.asked)) = [5] := by decide +kernel

/-- R542: an uncorrectable read delivers 0 to its register and stops issue. -/
theorem test_gulun_uncorrectable : let t := after (.gLd64 {} 2 1 0 .uncorrectable) { re := { running := true, regs := [(2, 7)] } }; t.re.reg 2 = 0 ∧ t.re.fault = true := by decide +kernel
/-- R698: with DURATION 0 the register reads 0 whatever else was written. -/
theorem test_gyFi_zero : (after (.gyFiWrite .K 0xFFFF) { bnd := up }).gy.fi = 0 ∧ (after (.gyFiWrite .K (2 ^ 48 + 5)) { bnd := up }).gy.fi = 2 ^ 48 + 5 := by decide +kernel
/-- R683: a frame of a lane without lock is lost, with lock it is taken. -/
theorem test_lane_without_lock : (after (.geyserFrame 1 [0] false) { bnd := up }).gy.cntDrop = 0 ∧ (after (.geyserFrame 1 [0] false) { bnd := up, gy := { lock := 2 } }).gy.cntDrop = 1 := by decide +kernel
/-- R652: a host access of more than 64 bytes is malformed. -/
theorem test_host_access_size : (after (.registerRead .H 0 65) { bnd := up }).host.malformed = 1 ∧ (after (.registerRead .H 0 8) { bnd := up }).host.malformed = 0 := by decide +kernel

end Sys2Proof.Machine.Tests
end

section
/-! PROOFS. Register accesses by class: where the registers and windows lie, what one access reads and writes, what it is answered (R8, R36, R41, R109,
R652 to R655). -/
namespace Sys2Proof.Machine

/-! ### Bytes and words -/

@[simp] theorem length_leBytes (n : Nat) {w : Nat} (v : BitVec w) : (leBytes n v).length = n := by simp [leBytes]

theorem take_leBytes (k n : Nat) {w : Nat} (v : BitVec w) (h : k ≤ n) : (leBytes n v).take k = leBytes k v := by
  rw [leBytes, ← List.map_take, List.take_range, Nat.min_eq_left h, leBytes]

theorem getD_leBytes (n : Nat) {w : Nat} (v : BitVec w) (i : Nat) (h : i < n) : (leBytes n v).getD i 0 = v.extractLsb' (8 * i) 8 := by
  simp [leBytes, h]

/-- Bit `i` of the word is bit `i % 8` of byte `i / 8` (R5). -/
theorem getLsbD_ofLeBytes (w : Nat) (bs : List Byte) (i : Nat) :
    (ofLeBytes w bs).getLsbD i = (decide (i < w) && (bs.getD (i / 8) 0).getLsbD (i % 8)) := by
  induction bs generalizing i with
  | nil => simp [ofLeBytes]
  | cons b bs ih =>
    rw [ofLeBytes, BitVec.getLsbD_or, BitVec.getLsbD_shiftLeft, BitVec.getLsbD_setWidth, ih]
    by_cases h8 : i < 8
    · simp [h8, Nat.div_eq_of_lt h8, Nat.mod_eq_of_lt h8]
    · obtain ⟨k, rfl⟩ : ∃ k, i = k + 8 := ⟨i - 8, by omega⟩
      have next : (b :: bs).getD ((k + 8) / 8) 0 = bs.getD (k / 8) 0 := by
        rw [show (k + 8) / 8 = k / 8 + 1 by omega, List.getD_cons_succ]
      have above : b.getLsbD (k + 8) = false := BitVec.getLsbD_of_ge b _ (Nat.le_add_left 8 k)
      rw [next, above, Nat.add_mod_right, Nat.add_sub_cancel, decide_eq_false h8, Bool.and_false, Bool.or_false, Bool.not_false, Bool.and_true]
      by_cases hw : k + 8 < w
      · rw [decide_eq_true hw, decide_eq_true (show k < w by omega), Bool.true_and]
      · rw [decide_eq_false hw, Bool.false_and, Bool.false_and]

theorem ofLeBytes_replicate_zero (w n : Nat) : ofLeBytes w (List.replicate n 0) = 0 := by
  refine BitVec.eq_of_getLsbD_eq fun i _ => ?_
  have zero : (List.replicate n (0 : Byte)).getD (i / 8) 0 = 0 := by
    rw [List.getD_eq_getElem?_getD, List.getElem?_replicate]
    split <;> rfl
  rw [getLsbD_ofLeBytes, zero]
  simp only [BitVec.ofNat_eq_ofNat, BitVec.getLsbD_zero, Bool.and_false]

theorem ofLeBytes_leBytes (w n : Nat) {m : Nat} (v : BitVec m) : ofLeBytes w (leBytes n v) = (v.setWidth (8 * n)).setWidth w := by
  refine BitVec.eq_of_getLsbD_eq fun i hi => ?_
  rw [getLsbD_ofLeBytes, BitVec.getLsbD_setWidth, BitVec.getLsbD_setWidth]
  by_cases hn : i < 8 * n
  · rw [getD_leBytes _ _ _ (by omega), BitVec.getLsbD_extractLsb']
    have : 8 * (i / 8) + i % 8 = i := Nat.div_add_mod i 8
    simp [hn, this, Nat.mod_lt i (by decide : 8 > 0)]
  · have : (leBytes n v).length ≤ i / 8 := by rw [length_leBytes]; omega
    rw [List.getD_eq_getElem?_getD, List.getElem?_eq_none this]
    simp only [Option.getD_none, BitVec.ofNat_eq_ofNat, BitVec.getLsbD_zero, Bool.and_false, hn, decide_false, Bool.false_and]

theorem field_zero {w : Nat} (v : BitVec w) (n : Nat) : field v 0 n = v.setWidth n := by
  refine BitVec.eq_of_getLsbD_eq fun i hi => ?_
  simp [field, hi]

/-! ### Where registers and windows lie -/

/-- No copy of the register covers an offset from `lo` to below `hi`. -/
def Reg.clear (lo hi : Nat) (r : Reg) : Bool := decide (hi ≤ r.base) || decide (r.base + (r.count - 1) * r.stride + 8 ≤ lo)
/-- No copy of the window covers an offset from `lo` to below `hi`. -/
def Window.clear (lo hi : Nat) (w : Window) : Bool := decide (hi ≤ w.base) || decide (w.base + (w.count - 1) * w.stride + w.span ≤ lo)

theorem Reg.idx_of_clear {lo hi loc : Nat} {r : Reg} (h : r.clear lo hi = true) (h1 : lo ≤ loc) (h2 : loc < hi) : r.idx loc = none := by
  simp only [Reg.clear, Bool.or_eq_true, decide_eq_true_eq] at h
  unfold Reg.idx
  split
  · rfl
  · next hb =>
    refine if_neg fun ⟨hi, _, he⟩ => ?_
    have := Nat.mul_le_mul_right r.stride (Nat.le_sub_one_of_lt hi)
    omega

/-- Copy `m` of a repeated register. -/
theorem Reg.idx_copy {r : Reg} {m : Nat} (hc : 1 < r.count) (hs : 0 < r.stride) (hm : m < r.count) : r.idx (r.base + m * r.stride) = some m := by
  have hi : (r.base + m * r.stride - r.base) / (if r.count ≤ 1 then 2 ^ 40 else r.stride) = m := by
    rw [if_neg (by omega), Nat.add_sub_cancel_left, Nat.mul_div_cancel _ hs]
  simp only [Reg.idx, hi]
  rw [if_neg (by omega), if_pos (by omega)]

theorem Window.idx_of_clear {lo hi off : Nat} {w : Window} (h : w.clear lo hi = true) (h1 : lo ≤ off) (h2 : off < hi) : w.idx off = none := by
  simp only [Window.clear, Bool.or_eq_true, decide_eq_true_eq] at h
  unfold Window.idx
  split
  · rfl
  · next hb =>
    refine if_neg fun ⟨hi, he⟩ => ?_
    have := Nat.mul_le_mul_right w.stride (Nat.le_sub_one_of_lt hi)
    omega

/-- An offset behind the end of copy `m` of a repeated window and before the next copy. -/
theorem Window.idx_of_gap {w : Window} {off m : Nat} (hc : 1 < w.count) (hm : (off - w.base) / w.stride = m) (h : w.base + m * w.stride + w.span ≤ off) :
    w.idx off = none := by
  unfold Window.idx
  rw [if_neg (show ¬ w.count ≤ 1 by omega), hm]
  split
  · rfl
  · exact if_neg fun hi => by omega

/-- The bytes of a window that is not repeated. -/
theorem Window.idx_sole {w : Window} {off : Nat} (hc : w.count = 1) (hs : w.span ≤ 2 ^ 40) (h1 : w.base ≤ off) (h2 : off < w.base + w.span) :
    w.idx off = some (0, off - w.base) := by
  have h0 : (off - w.base) / 2 ^ 40 = 0 := Nat.div_eq_of_lt (by omega)
  rw [Window.idx, hc, if_pos (Nat.le_refl 1), h0, if_neg (by omega), if_pos (by omega), Nat.zero_mul, Nat.sub_zero]

/-- `regAt` and `windowAt` over a part of the map. -/
def regIn (l : List Reg) (s : State) (c : Cls) (loc : Nat) : Option (Reg × Nat) :=
  l.findSome? fun r => match r.idx loc with
    | some i => if r.allow i c s then some (r, i) else none
    | none => none
def windowIn (l : List Window) (s : State) (c : Cls) (off : Nat) : Option (Window × Nat × Nat) :=
  l.findSome? fun w => match w.idx off with
    | some (i, o) => if w.allow i c s then some (w, i, o) else none
    | none => none

theorem regAt_eq_regIn (s : State) (c : Cls) (loc : Nat) : regAt s c loc = regIn allRegs s c loc := rfl
theorem windowAt_eq_windowIn (s : State) (c : Cls) (off : Nat) : windowAt s c off = windowIn allWindows s c off := rfl

theorem regIn_append (l k : List Reg) (s : State) (c : Cls) (loc : Nat) : regIn (l ++ k) s c loc = (regIn l s c loc).or (regIn k s c loc) :=
  List.findSome?_append
theorem windowIn_append (l k : List Window) (s : State) (c : Cls) (off : Nat) : windowIn (l ++ k) s c off = (windowIn l s c off).or (windowIn k s c off) :=
  List.findSome?_append

theorem regIn_clear {l : List Reg} {lo hi : Nat} (h : l.all (Reg.clear lo hi) = true) (s : State) (c : Cls) {loc : Nat} (h1 : lo ≤ loc) (h2 : loc < hi) :
    regIn l s c loc = none :=
  List.findSome?_eq_none_iff.2 fun r hr => by rw [Reg.idx_of_clear (List.all_eq_true.1 h r hr) h1 h2]
theorem windowIn_clear {l : List Window} {lo hi : Nat} (h : l.all (Window.clear lo hi) = true) (s : State) (c : Cls) {off : Nat} (h1 : lo ≤ off) (h2 : off < hi) :
    windowIn l s c off = none :=
  List.findSome?_eq_none_iff.2 fun w hw => by rw [Window.idx_of_clear (List.all_eq_true.1 h w hw) h1 h2]

/-- The register map around the mailbox pages. -/
def regsBelowMailboxes : List Reg := statusRegs ++ coRegs ++ attRegs
def regsAboveMailboxes : List Reg :=
  cmdRegs ++ knotRegs ++ partRegs ++ sknRegs ++ digRegs ++ pkeRegs ++ otpRegs ++ lcRegs ++ fumRegs ++ ventRegs ++ rowRegs ++ govRegs ++ guardRegs ++ linkRegs ++
  wgRegs ++ gyRegs ++ hwRegs ++ flashRegs

theorem allRegs_around_mailboxes : allRegs = regsBelowMailboxes ++ (mbRegs ++ regsAboveMailboxes) := by
  unfold allRegs regsBelowMailboxes regsAboveMailboxes
  simp only [List.append_assoc]

/-- The register map around the host window. -/
def regsBelowHostWindow : List Reg :=
  statusRegs ++ coRegs ++ attRegs ++ mbRegs ++ cmdRegs ++ knotRegs ++ partRegs ++ sknRegs ++ digRegs ++ pkeRegs ++ otpRegs ++ lcRegs ++ fumRegs ++ ventRegs ++
  rowRegs ++ govRegs ++ guardRegs ++ linkRegs ++ wgRegs ++ gyRegs

theorem allRegs_around_hostWindow : allRegs = regsBelowHostWindow ++ hwRegs ++ flashRegs := rfl

/-- At a mailbox page only the mailboxes' registers lie. -/
theorem regAt_mailboxPage (s : State) (c : Cls) {loc : Nat} (h1 : 0x0100000 ≤ loc) (h2 : loc < 0x0150000) : regAt s c loc = regIn mbRegs s c loc := by
  have hb : regIn regsBelowMailboxes s c loc = none := regIn_clear (by decide +kernel) s c h1 h2
  have ha : regIn regsAboveMailboxes s c loc = none := regIn_clear (by decide +kernel) s c h1 h2
  rw [regAt_eq_regIn, allRegs_around_mailboxes, regIn_append, regIn_append, hb, ha, Option.none_or, Option.or_none]

/-- In the host window's pages only its own registers lie. -/
theorem regAt_hostWindow (s : State) (c : Cls) {loc : Nat} (h1 : 0x0E00000 ≤ loc) (h2 : loc < 0x0F00000) : regAt s c loc = regIn hwRegs s c loc := by
  have hb : regIn regsBelowHostWindow s c loc = none := regIn_clear (by decide +kernel) s c h1 h2
  have ha : regIn flashRegs s c loc = none := regIn_clear (by decide +kernel) s c h1 h2
  rw [regAt_eq_regIn, allRegs_around_hostWindow, regIn_append, regIn_append, hb, ha, Option.none_or, Option.or_none]

/-- HW_IRQ (R654). -/
def hwIrq : Reg := hwRegs[1]'(by decide)

theorem hwIrq_put (c : Cls) (v m : W64) (s : State) :
    hwIrq.put 0 c v m s = s.setHost { s.host with irqPending := w1c s.host.irqPending 0 v m, irqMask := mrg s.host.irqMask 8 v m } := rfl

theorem regAt_hwIrq (s : State) : regAt s .H 0x0E00008 = some (hwIrq, 0) := (regAt_hostWindow s .H (by decide) (by decide)).trans rfl

theorem windowAt_hwIrq (s : State) : windowAt s .H 0x0E00008 = none :=
  windowIn_clear (lo := 0x0E00000) (hi := 0x0F00000) (by decide +kernel) s .H (by decide) (by decide)

/-- A register of the mailbox pages that does not lie at place `o` of its page. -/
def Reg.offPlace (o : Nat) (r : Reg) : Bool :=
  decide (r.stride = 0x1000) && decide (r.count = 80) && decide (0x0100000 ≤ r.base) && decide (r.base < 0x0100FF8) &&
    (decide (0x0100000 + o < r.base) || decide (r.base + 8 ≤ 0x0100000 + o))

theorem Reg.idx_of_offPlace {o : Nat} {r : Reg} (h : r.offPlace o = true) (ho : o < 0xFF8) (m : Nat) : r.idx (0x0100000 + o + 4096 * m) = none := by
  simp only [Reg.offPlace, Bool.and_eq_true, Bool.or_eq_true, decide_eq_true_eq] at h
  obtain ⟨⟨⟨⟨hs, hc⟩, h1⟩, h2⟩, h3⟩ := h
  unfold Reg.idx
  split
  · rfl
  · next hb =>
    refine if_neg fun ⟨_, h4, h5⟩ => ?_
    rw [hs, hc, if_neg (by decide)] at h4 h5
    omega

/-- The doorbells of the up direction, at place 0x218 of each mailbox page (R109). -/
def dbSetUp : Reg := mbRegs[2]'(by decide)

theorem dbSetUp_allow (m : Nat) (c : Cls) (s : State) : dbSetUp.allow m c s = mbAllows s m c := rfl
theorem dbSetUp_put (m : Nat) (c : Cls) (v k : W64) (s : State) : dbSetUp.put m c v k s = s.mbSend c m false fun d => d.ring (field (v &&& k) 0 32) := rfl
theorem dbSetUp_idx {m : Nat} (h : m < 80) : dbSetUp.idx (0x0100218 + 4096 * m) = some m := by
  rw [Nat.mul_comm]
  exact Reg.idx_copy (r := dbSetUp) (by decide) (by decide) h

theorem regIn_offPlace {l : List Reg} {o : Nat} (h : l.all (Reg.offPlace o) = true) (ho : o < 0xFF8) (s : State) (c : Cls) (m : Nat) :
    regIn l s c (0x0100000 + o + 4096 * m) = none :=
  List.findSome?_eq_none_iff.2 fun r hr => by rw [Reg.idx_of_offPlace (List.all_eq_true.1 h r hr) ho]

/-- DB_SET of mailbox `m` is reached by the two sides of the mailbox (R107). -/
theorem regAt_dbSetUp (s : State) (c : Cls) {m : Nat} (h : m < 80) :
    regAt s c (0x0100218 + 4096 * m) = if mbAllows s m c then some (dbSetUp, m) else none := by
  have parts : mbRegs = mbRegs.take 2 ++ ([dbSetUp] ++ mbRegs.drop 3) := rfl
  have before : regIn (mbRegs.take 2) s c (0x0100218 + 4096 * m) = none := regIn_offPlace (o := 0x218) (by decide) (by decide) s c m
  have behind : regIn (mbRegs.drop 3) s c (0x0100218 + 4096 * m) = none := regIn_offPlace (o := 0x218) (by decide) (by decide) s c m
  have own : regIn [dbSetUp] s c (0x0100218 + 4096 * m) = if mbAllows s m c then some (dbSetUp, m) else none := by
    simp only [regIn, List.findSome?_singleton, dbSetUp_idx h, dbSetUp_allow]
    rfl
  rw [regAt_mailboxPage s c (by omega) (by omega), parts, regIn_append, regIn_append, before, behind, own, Option.none_or, Option.or_none]

/-- The windows of the map around the mailbox pages. -/
def windowsAboveMailboxes : List Window :=
  knotWindows ++ cmdWindows ++ sknWindows ++ digWindows ++ pkeWindows ++ otpWindows ++ lcWindows ++ ventWindows ++ rowWindows ++ wgWindows

theorem allWindows_around_mailboxes : allWindows = statusWindows ++ (mbWindows ++ windowsAboveMailboxes) := by
  unfold allWindows windowsAboveMailboxes
  simp only [List.append_assoc]

/-- The buffers take the first 512 bytes of a mailbox page. -/
theorem mbWindow_idx_dbSetUp (down : Bool) {b : Nat} (hb : b ≤ 0x100) (m : Nat) : (mbWindow down b).idx (0x0100218 + 4096 * m) = none := by
  refine Window.idx_of_gap (w := mbWindow down b) (m := m) (show 1 < 80 by decide) ?_ ?_
  · show (0x0100218 + 4096 * m - (0x0100000 + b)) / 0x1000 = m
    omega
  · show 0x0100000 + b + m * 0x1000 + 0x100 ≤ 0x0100218 + 4096 * m
    omega

theorem windowAt_dbSetUp (s : State) (c : Cls) {m : Nat} (h : m < 80) : windowAt s c (0x0100218 + 4096 * m) = none := by
  have below : windowIn statusWindows s c (0x0100218 + 4096 * m) = none :=
    windowIn_clear (lo := 0x0100000) (hi := 0x0150000) (by decide +kernel) s c (by omega) (by omega)
  have above : windowIn windowsAboveMailboxes s c (0x0100218 + 4096 * m) = none :=
    windowIn_clear (lo := 0x0100000) (hi := 0x0150000) (by decide +kernel) s c (by omega) (by omega)
  have buffers : windowIn mbWindows s c (0x0100218 + 4096 * m) = none := by
    simp only [windowIn, mbWindows, List.findSome?_cons, List.findSome?_nil, mbWindow_idx_dbSetUp false (Nat.zero_le _) m,
      mbWindow_idx_dbSetUp true (Nat.le_refl _) m]
  rw [windowAt_eq_windowIn, allWindows_around_mailboxes, windowIn_append, windowIn_append, below, buffers, above, Option.none_or, Option.none_or]

/-- The identity page, and TIMEBASE with its latch. -/
def identityWindow : Window := statusWindows[0]'(by decide)
def timebaseWindow : Window := statusWindows[1]'(by decide)

/-- Every class reaches the identity page (R36, R655). -/
theorem windowAt_identity (s : State) (c : Cls) {off : Nat} (h : off < 0x1000) : windowAt s c off = some (identityWindow, 0, off) := by
  have hi : identityWindow.idx off = some (0, off) := Window.idx_sole (w := identityWindow) rfl (by decide) (Nat.zero_le _) ((Nat.zero_add 0x1000).symm ▸ h)
  have parts : allWindows = [identityWindow] ++ allWindows.drop 1 := rfl
  rw [windowAt_eq_windowIn, parts, windowIn_append]
  simp only [windowIn, List.findSome?_cons, hi]
  rfl

/-- No window lies at the first byte behind the identity page. -/
theorem windowAt_behind_identity (s : State) (c : Cls) : windowAt s c 0x1000 = none :=
  windowIn_clear (lo := 0x1000) (hi := 0x1008) (by decide +kernel) s c (by decide) (by decide)

theorem windowAt_timebase (s : State) {c : Cls} (hc : c = .K ∨ c = .S ∨ c = .H ∨ c = .O) :
    windowAt s c 0x1008 = some (timebaseWindow, 0, 0) ∧ windowAt s c 0x100C = some (timebaseWindow, 0, 4) := by
  rcases hc with rfl | rfl | rfl | rfl <;> exact ⟨rfl, rfl⟩

/-! ### One access -/

theorem readBytes_of_window {s : State} {c : Cls} {off i o : Nat} {w : Window} (h : windowAt s c off = some (w, i, o)) {n : Nat} (hn : o + n ≤ w.span) :
    s.readBytes c off n = (w.onRead i o n c s, w.get i o n c s) := by
  simp only [State.readBytes, h, Nat.min_eq_left (by omega : n ≤ w.span - o), Nat.sub_self, zeros, List.replicate_zero, List.append_nil]

/-- A read where the class reaches no window and no register gives zeros and changes nothing (R8). -/
theorem readBytes_unmapped {s : State} {c : Cls} {off n : Nat} (hw : windowAt s c off = none) (hr : ∀ loc ∈ locsOf off n, regAt s c loc = none) :
    ∃ k, s.readBytes c off n = (s, zeros k) := by
  simp only [State.readBytes, hw]
  generalize hg : List.foldl _ (s, ([] : List Byte)) (locsOf off n) = g
  have key : g.1 = s ∧ ∃ k, g.2 = zeros k := by
    rw [← hg]
    refine List.foldlRecOn (motive := fun g : State × List Byte => g.1 = s ∧ ∃ k, g.2 = zeros k) _ _ ⟨rfl, 0, rfl⟩ ?_
    rintro ⟨t, bs⟩ ⟨ht, k, hk⟩ loc hl
    simp only at ht hk
    subst ht hk
    simp only [hr loc hl]
    exact ⟨trivial, k + 8, List.replicate_append_replicate⟩
  obtain ⟨h1, k, h2⟩ := key
  refine ⟨min n (k - off % 8), ?_⟩
  rw [h1, h2, zeros, List.drop_replicate, List.take_replicate]
  rfl

/-- A write there has no effect (R8). -/
theorem writeBytes_unmapped {s : State} {c : Cls} {off : Nat} {bs : List Byte} (hw : windowAt s c off = none)
    (hr : ∀ loc ∈ locsOf off bs.length, regAt s c loc = none) : s.writeBytes c off bs = s := by
  simp only [State.writeBytes, hw]
  refine List.foldlRecOn (motive := fun t => t = s) _ _ rfl ?_
  rintro t rfl loc hl
  simp only [hr loc hl]

theorem locsOf_location {loc : Nat} (h : loc % 8 = 0) : locsOf loc 8 = [loc] := by
  have h1 : (loc + 8 - 1) / 8 - loc / 8 + 1 = 1 := by omega
  have h2 : 8 * (loc / 8) = loc := by omega
  rw [locsOf, if_neg (by decide), h1, List.range'_one, List.map_singleton, h2]

theorem locMask_location (loc : Nat) : locMask loc loc 8 = BitVec.allOnes 64 := by
  have covered : ((List.range 64).filter fun b => loc ≤ loc + b / 8 ∧ loc + b / 8 < loc + 8) = List.range 64 :=
    List.filter_eq_self.2 fun b hb => by
      have := List.mem_range.1 hb
      simp only [decide_eq_true_eq]
      omega
  rw [locMask, covered]
  decide +kernel

/-- A write of 8 bytes at an 8-byte location puts them whole into the register there. -/
theorem writeBytes_of_register {s : State} {c : Cls} {loc i : Nat} {r : Reg} (hw : windowAt s c loc = none) (hr : regAt s c loc = some (r, i)) (h8 : loc % 8 = 0)
    (data : Line) : s.writeBytes c loc (leBytes 8 data) = r.put i c (field data 0 64) (BitVec.allOnes 64) s := by
  have bytes : ((List.range 8).map fun b => if loc ≤ loc + b then (leBytes 8 data).getD (loc + b - loc) 0 else 0) = leBytes 8 data := by
    rw [leBytes]
    refine List.map_congr_left fun b hb => ?_
    rw [if_pos (Nat.le_add_right _ _), Nat.add_sub_cancel_left, ← leBytes, getD_leBytes _ _ _ (List.mem_range.1 hb)]
  simp only [State.writeBytes, hw, length_leBytes, locsOf_location h8, List.foldl_cons, List.foldl_nil, hr, bytes, locMask_location, ofLeBytes_leBytes]
  simp only [Nat.reduceMul, BitVec.setWidth_eq, field_zero]

/-! ### Accesses by class -/

theorem contained_of_ne_host (s : State) {c : Cls} (h : c ≠ .H) (off : Nat) : s.contained c off = false := by simp [State.contained, h]

theorem regRead_of_reaches {s : State} {c : Cls} {off n : Nat} (hc : s.contained c off = false) (hb : c = .H → barOk off n = true) (hr : s.reaches c off = true) :
    regRead s c off n = s.readBytes c off n := by
  rw [regRead, hc, if_neg (by decide), if_neg fun h => h.2 (hb h.1), if_pos hr]

theorem regWrite_of_reaches {s : State} {c : Cls} {off : Nat} {bs : List Byte} {full : Bool} (hc : s.contained c off = false)
    (hb : c = .H → full = true ∧ barOk off bs.length = true) (hr : s.reaches c off = true) : regWrite s c off bs full = s.writeBytes c off bs := by
  have formed : ¬ (c = .H ∧ (¬ full ∨ ¬ barOk off bs.length)) := by
    rintro ⟨hH, hf | hb'⟩
    · exact hf (hb hH).1
    · exact hb' (hb hH).2
  rw [regWrite, hc, if_neg (by decide), if_neg formed, if_pos hr]

/-- An access that breaks R652 is counted, outside containment. -/
theorem regRead_malformed {s : State} {off n : Nat} (hc : s.contained .H off = false) (hb : barOk off n = false) : regRead s .H off n = (s.malformed, zeros n) := by
  rw [regRead, hc, if_neg (by decide), if_pos ⟨rfl, by simp [hb]⟩]
theorem regWrite_malformed {s : State} {off : Nat} {bs : List Byte} (full : Bool) (hc : s.contained .H off = false) (hb : barOk off bs.length = false) :
    regWrite s .H off bs full = s.malformed := by
  rw [regWrite, hc, if_neg (by decide), if_pos ⟨rfl, .inr (by simp [hb])⟩]

/-- No access of more than 64 bytes is well formed (R652). -/
theorem barOk_of_long {off n : Nat} (h : 64 < n) : barOk off n = false := by
  simp only [barOk, Bool.or_eq_false_iff, Bool.and_eq_false_iff, decide_eq_false_iff_not]
  omega

theorem reaches_of_noc (s : State) {c : Cls} (h : isNocClass c = true) (off : Nat) : s.reaches c off = (!s.accessClosed || decide (off < 0x2000)) := by
  match c, h with
  | .P _, _ => rfl
  | .C _ _, _ => rfl

theorem ne_host_of_noc {c : Cls} (h : isNocClass c = true) : c ≠ .H := by rintro rfl; cases h

/-- The pages that every class reaches at every stage (R36, R520, R671). -/
theorem reaches_low (s : State) {c : Cls} (hI : c ≠ .I) {off : Nat} (h : off < 0x2000) : s.reaches c off = true := by
  cases c <;> simp [State.reaches, h] at hI ⊢

theorem contained_low (s : State) (c : Cls) {off : Nat} (h : off < 0x2000) : s.contained c off = false := by simp [State.contained, h]

/-! ### What an access answers -/

theorem refusedBy_of_out_eq {s t : State} (h : t.out = s.out) : refusedBy s t = false := by simp [refusedBy, h]
theorem refusedBy_of_refused {s t : State} (h : t.out = s.out ++ [.regRefused]) : refusedBy s t = true := by simp [refusedBy, h]

/-- Outside the NoC a refusal says nothing (R116, R654). -/
theorem unrefused_eq {s t : State} (h : t.out = s.out ∨ t.out = s.out ++ [.regRefused]) : unrefused s t = { t with out := s.out } := by
  rcases h with h | h
  · rw [unrefused, refusedBy_of_out_eq h, if_neg (by decide), ← h]
  · rw [unrefused, refusedBy_of_refused h, if_pos rfl, h, List.dropLast_concat]

theorem unrefused_of_out_eq {s t : State} (h : t.out = s.out) : unrefused s t = t := by
  rw [unrefused_eq (.inl h), ← h]

theorem answerReg_of_out_eq {s t : State} (h : t.out = s.out) (r : NocHdr) (d : Line) : s.answerReg t r d = t.respond r .ok d := by
  rw [State.answerReg, refusedBy_of_out_eq h, if_neg (by decide)]
theorem answerReg_of_refused {s t : State} (h : t.out = s.out ++ [.regRefused]) (r : NocHdr) (d : Line) :
    s.answerReg t r d = ({ t with out := s.out } : State).respond r .refused := by
  rw [State.answerReg, refusedBy_of_refused h, if_pos rfl, h, List.dropLast_concat]

theorem exec_registerRead (s : State) {c : Cls} (hc : isNocClass c = false) (off : BitVec 26) (size : BitVec 7) :
    exec (.registerRead c off size) s =
      .next ((unrefused s (regRead s c off.toNat (accessSize c size)).1).emit (.regData (ofLeBytes 512 (regRead s c off.toNat (accessSize c size)).2))) := by
  show Host.Outcome.next (if isNocClass c = true then s else _) = _
  rw [hc, if_neg (by decide)]

/-- A read that the unit does not refuse delivers its bytes. -/
theorem exec_registerRead_quiet {s t : State} {c : Cls} (hc : isNocClass c = false) {off : BitVec 26} {size : BitVec 7} {bs : List Byte}
    (hr : regRead s c off.toNat (accessSize c size) = (t, bs)) (ho : t.out = s.out) :
    exec (.registerRead c off size) s = .next (t.emit (.regData (ofLeBytes 512 bs))) := by
  rw [exec_registerRead s hc, hr, unrefused_of_out_eq ho]

/-- Accesses of partitions and chiplets come over the NoC alone (R41). -/
theorem exec_register_of_noc (s : State) {c : Cls} (hc : isNocClass c = true) (off : BitVec 26) (size : BitVec 7) (data : Line) (full : Bool) :
    exec (.registerRead c off size) s = .next s ∧ exec (.registerWrite c off size data full) s = .next s := by
  constructor
  · show Host.Outcome.next (if isNocClass c = true then s else _) = _
    rw [if_pos hc]
  · show Host.Outcome.next (if isNocClass c = true then s else _) = _
    rw [if_pos hc]

/-- A write that is no post (R597) makes the access of its class. -/
theorem exec_registerWrite_of_no_post (s : State) {c : Cls} (hc : isNocClass c = false) (off : BitVec 26) (size : BitVec 7) (data : Line) (full : Bool)
    (hp : (c ≠ .K ∧ c ≠ .S) ∨ intakeWrite s coreHdr off.toNat (accessSize c size) data = none) :
    exec (.registerWrite c off size data full) s = .next (unrefused s (regWrite s c off.toNat (leBytes (accessSize c size) data) full)) := by
  have noPost : (if c = .K ∨ c = .S then intakeWrite s coreHdr off.toNat (accessSize c size) data else none) = none := by
    rcases hp with ⟨hk, hs⟩ | hp
    · exact if_neg (by simp [hk, hs])
    · rw [hp, ite_self]
  show execRegisterWrite c off size data full s = _
  simp only [execRegisterWrite, hc, Bool.false_eq_true, if_false, noPost]

theorem exec_registerWrite_quiet {s t : State} {c : Cls} (hc : isNocClass c = false) {off : BitVec 26} {size : BitVec 7} {data : Line} {full : Bool}
    (hp : c ≠ .K ∧ c ≠ .S) (hw : regWrite s c off.toNat (leBytes (accessSize c size) data) full = t) (ho : t.out = s.out) :
    exec (.registerWrite c off size data full) s = .next t := by
  rw [exec_registerWrite_of_no_post s hc _ _ _ _ (.inl hp), hw, unrefused_of_out_eq ho]

/-- A post of Keeper or Steward says on the NoC nothing; the core learns whether it is refused (R597). -/
theorem exec_registerWrite_of_post (s : State) {c : Cls} (hk : c = .K ∨ c = .S) (off : BitVec 26) (size : BitVec 7) (data : Line) (full : Bool) {t : State}
    (hp : intakeWrite s coreHdr off.toNat (accessSize c size) data = some t) :
    exec (.registerWrite c off size data full) s =
      .next (if t.out.getLast? = some (.nocResp 0 .refused 0) then { t with out := s.out ++ [.regRefused] } else { t with out := s.out }) := by
  have hc : isNocClass c = false := by rcases hk with rfl | rfl <;> rfl
  show execRegisterWrite c off size data full s = _
  simp only [execRegisterWrite, hc, Bool.false_eq_true, if_false, if_pos hk, hp]
  rfl

/-! ### The hub NoC -/

/-- The class of a request is one of those in which it may reach a register. -/
theorem nocClass_mem (s : State) (h : NocHdr) (off : Nat) : nocClass s h off ∈ nocClasses h := by
  rw [nocClass]
  cases hf : (nocClasses h).find? fun c => (windowAt s c off).isSome || (regAt s c (off / 8 * 8)).isSome with
  | some c => exact List.mem_of_find?_eq_some hf
  | none =>
    rw [Option.getD_none, nocClasses]
    split
    · next part =>
      have other : decide (h.dom = 64) = false := decide_eq_false fun e => by rw [e] at part; exact absurd part (by decide)
      rw [other]
      exact List.mem_cons_of_mem _ List.mem_cons_self
    · exact List.mem_cons_self

/-- A request has the class of a partition or of a chiplet. -/
theorem nocClass_isNoc (s : State) (h : NocHdr) (off : Nat) : isNocClass (nocClass s h off) = true := by
  have listed := nocClass_mem s h off
  unfold nocClasses at listed
  split at listed <;> simp only [List.mem_cons, List.not_mem_nil, or_false] at listed
  · rcases listed with e | e <;> rw [e] <;> rfl
  · rw [listed]; rfl

theorem accessSize_nocClass (s : State) (h : NocHdr) (off : Nat) (size : BitVec 7) : accessSize (nocClass s h off) size = min size.toNat 64 :=
  if_neg (ne_host_of_noc (nocClass_isNoc s h off))

theorem exec_reg_of_portRefuses {s : State} {h : NocHdr} (hp : s.portRefuses h = true) (size : BitVec 7) (data : Line) :
    exec (.regRead h size) s = .next (s.respond h .refused) ∧ exec (.regWrite h size data) s = .next (s.respond h .refused) := by
  constructor
  · show Host.Outcome.next (if s.portRefuses h = true then _ else _) = _
    rw [if_pos hp]
  · show Host.Outcome.next (if s.portRefuses h = true then _ else _) = _
    rw [if_pos hp]

theorem exec_regRead {s : State} {h : NocHdr} (hp : s.portRefuses h = false) (size : BitVec 7) :
    exec (.regRead h size) s = .next (s.answerReg (regRead s (nocClass s h h.addr.toNat) h.addr.toNat (min size.toNat 64)).1 h
      (ofLeBytes 512 (regRead s (nocClass s h h.addr.toNat) h.addr.toNat (min size.toNat 64)).2)) := by
  show execRegRead h size s = _
  simp only [execRegRead, hp, Bool.false_eq_true, if_false, accessSize_nocClass]

/-- A write in an area that R520 closes has no effect. -/
theorem exec_regWrite_closed {s : State} {h : NocHdr} (hp : s.portRefuses h = false) (hr : s.reaches (.C h.site false) h.addr.toNat = false) (size : BitVec 7)
    (data : Line) : exec (.regWrite h size data) s = .next (s.respond h .ok) := by
  show execRegWrite h size data s = _
  simp only [execRegWrite, hp, hr, Bool.false_eq_true, if_false, not_false_eq_true, if_true]

theorem exec_regWrite_post {s t : State} {h : NocHdr} {size : BitVec 7} {data : Line} (hp : s.portRefuses h = false)
    (hr : s.reaches (.C h.site false) h.addr.toNat = true) (hi : intakeWrite s h h.addr.toNat size.toNat data = some t) :
    exec (.regWrite h size data) s = .next t := by
  show execRegWrite h size data s = _
  simp only [execRegWrite, hp, hr, Bool.false_eq_true, if_false, not_true_eq_false, hi]

theorem exec_regWrite_access {s : State} {h : NocHdr} {size : BitVec 7} {data : Line} (hp : s.portRefuses h = false)
    (hr : s.reaches (.C h.site false) h.addr.toNat = true) (hi : intakeWrite s h h.addr.toNat size.toNat data = none) :
    exec (.regWrite h size data) s =
      .next (s.answerReg (regWrite s (nocClass s h h.addr.toNat) h.addr.toNat (leBytes (min size.toNat 64) data) true) h 0) := by
  show execRegWrite h size data s = _
  simp only [execRegWrite, hp, hr, Bool.false_eq_true, if_false, not_true_eq_false, hi, accessSize_nocClass]

/-! ### TIMEBASE (R36) -/

/-- The state in which the latch of class `c` holds `x`. -/
def State.latched (s : State) (c : Cls) (x : Option (BitVec 32)) : State := s.setBnd { s.bnd with tbLatch := SMap.set none s.bnd.tbLatch (clsNum c) x }

theorem tbHigh_latched (s : State) (c : Cls) (x : Option (BitVec 32)) : (s.latched c x).bnd.tbHigh c = x.getD (field s.bnd.timebase 32 32) := by
  show (SMap.get none (SMap.set none s.bnd.tbLatch (clsNum c) x) (clsNum c)).getD _ = _
  rw [SMap.get_set_self]
  rfl

theorem regRead_timebase (s : State) {c : Cls} (hc : c = .K ∨ c = .S ∨ c = .H ∨ c = .O) :
    regRead s c 0x1008 8 = (s, leBytes 8 s.bnd.timebase) ∧
    regRead s c 0x1008 4 = (s.latched c (some (field s.bnd.timebase 32 32)), leBytes 4 s.bnd.timebase) ∧
    regRead s c 0x100C 4 = (s.latched c none, leBytes 4 (s.bnd.tbHigh c)) := by
  have hI : c ≠ .I := by rintro rfl; simp at hc
  obtain ⟨low, high⟩ := windowAt_timebase s hc
  refine ⟨?_, ?_, ?_⟩
  · rw [regRead_of_reaches (contained_low s c (by decide)) (fun _ => by decide) (reaches_low s hI (by decide)), readBytes_of_window low (by decide)]
    rfl
  · rw [regRead_of_reaches (contained_low s c (by decide)) (fun _ => by decide) (reaches_low s hI (by decide)), readBytes_of_window low (by decide)]
    exact Prod.ext rfl (take_leBytes 4 8 _ (by decide))
  · rw [regRead_of_reaches (contained_low s c (by decide)) (fun _ => by decide) (reaches_low s hI (by decide)), readBytes_of_window high (by decide)]
    rfl

theorem registerRead_timebase (s : State) {c : Cls} (hc : c = .K ∨ c = .S ∨ c = .H ∨ c = .O) :
    exec (.registerRead c 0x1008 8) s = .next { s with out := s.out ++ [.regData (s.bnd.timebase.setWidth 512)] } ∧
    Answers (.registerRead c 0x1008 4) s (fun t => t.out = s.out ++ [.regData ((field s.bnd.timebase 0 32).setWidth 512)] ∧
      t.bnd.tbHigh c = field s.bnd.timebase 32 32 ∧ t = { s with bnd := { s.bnd with tbLatch := t.bnd.tbLatch }, out := t.out }) ∧
    Answers (.registerRead c 0x100C 4) s (fun t => t.out = s.out ++ [.regData ((s.bnd.tbHigh c).setWidth 512)] ∧ t.bnd.tbHigh c = field s.bnd.timebase 32 32) := by
  have noc : isNocClass c = false := by rcases hc with rfl | rfl | rfl | rfl <;> rfl
  have size8 : accessSize c 8 = 8 := by unfold accessSize; split <;> rfl
  have size4 : accessSize c 4 = 4 := by unfold accessSize; split <;> rfl
  obtain ⟨whole, low, high⟩ := regRead_timebase s hc
  refine ⟨?_, ⟨_, exec_registerRead_quiet (t := s.latched c (some _)) noc (by rw [size4]; exact low) rfl, ?_, tbHigh_latched s c (some _), rfl⟩,
    ⟨_, exec_registerRead_quiet (t := s.latched c none) noc (by rw [size4]; exact high) rfl, ?_, tbHigh_latched s c none⟩⟩
  · rw [exec_registerRead_quiet noc (by rw [size8]; exact whole) rfl, ofLeBytes_leBytes, BitVec.setWidth_eq]
    rfl
  · rw [State.emit_out, ofLeBytes_leBytes, field_zero]
    rfl
  · rw [State.emit_out, ofLeBytes_leBytes, BitVec.setWidth_eq]
    rfl

/-! ### Locations that the class does not reach, and malformed accesses (R8, R652) -/

theorem register_unmapped {s : State} {off : BitVec 26} {size : BitVec 7} (hw : windowAt s .O off.toNat = none)
    (hr : ∀ loc, regAt s .O loc = none ∨ loc ∉ locsOf off.toNat (min size.toNat 64)) (data : Line) (full : Bool) :
    exec (.registerRead .O off size) s = .next { s with out := s.out ++ [.regData 0] } ∧ exec (.registerWrite .O off size data full) s = .next s := by
  have unmapped : ∀ loc ∈ locsOf off.toNat (min size.toNat 64), regAt s .O loc = none := fun loc hl => (hr loc).resolve_right (not_not_intro hl)
  have opened : s.contained .O off.toNat = false := contained_of_ne_host s (by decide) _
  constructor
  · obtain ⟨k, hk⟩ := readBytes_unmapped hw unmapped
    have read : regRead s .O off.toNat (accessSize .O size) = (s, zeros k) := (regRead_of_reaches opened (by simp) rfl).trans hk
    rw [exec_registerRead_quiet rfl read rfl, zeros, ofLeBytes_replicate_zero]
    rfl
  · have write : regWrite s .O off.toNat (leBytes (accessSize .O size) data) full = s := by
      rw [regWrite_of_reaches opened (by simp) rfl]
      exact writeBytes_unmapped hw (by rw [length_leBytes]; exact unmapped)
    exact exec_registerWrite_quiet rfl (by decide) write rfl

theorem register_malformed {s : State} {off : BitVec 26} {size : BitVec 7} (hc : s.contained .H off.toNat = false)
    (hb : barOk off.toNat size.toNat = false ∨ 64 < size.toNat) (data : Line) (full : Bool) :
    exec (.registerRead .H off size) s = .next { s with host := { s.host with malformed := satAdd s.host.malformed 1 }, out := s.out ++ [.regData 0] } ∧
    exec (.registerWrite .H off size data full) s = .next { s with host := { s.host with malformed := satAdd s.host.malformed 1 } } := by
  have bad : barOk off.toNat size.toNat = false := hb.elim id barOk_of_long
  constructor
  · rw [exec_registerRead_quiet rfl (regRead_malformed hc bad) rfl, zeros, ofLeBytes_replicate_zero]
    rfl
  · exact exec_registerWrite_quiet rfl (by decide) (regWrite_malformed full hc (by rw [length_leBytes]; exact bad)) rfl

/-! ### HW_IRQ (R654) -/

theorem field_field {w : Nat} (v : BitVec w) (lo n k m : Nat) (h : k + m ≤ n) : field (field v lo n) k m = field v (lo + k) m := by
  refine BitVec.eq_of_getLsbD_eq fun i hi => ?_
  simp [field, hi, Nat.add_assoc, show k + i < n by omega]

theorem field_allOnes (lo n : Nat) (h : lo + n ≤ 64) : field (BitVec.allOnes 64) lo n = BitVec.allOnes n := by
  refine BitVec.eq_of_getLsbD_eq fun i hi => ?_
  simp only [field, BitVec.getLsbD_extractLsb', BitVec.getLsbD_allOnes, hi, show lo + i < 64 by omega, decide_true, Bool.true_and]

theorem mrg_allOnes {n : Nat} (old : BitVec n) (lo : Nat) (v : W64) (h : lo + n ≤ 64) : mrg old lo v (BitVec.allOnes 64) = field v lo n := by
  rw [mrg, field_allOnes lo n h, BitVec.not_allOnes, BitVec.and_zero, BitVec.zero_or, BitVec.and_allOnes]

theorem w1c_allOnes {n : Nat} (old : BitVec n) (lo : Nat) (v : W64) : w1c old lo v (BitVec.allOnes 64) = old &&& ~~~(field v lo n) := by
  rw [w1c, BitVec.and_allOnes]

theorem registerWrite_hwIrq {s : State} (hr : s.reaches .H 0x0E00008 = true) (data : Line) :
    exec (.registerWrite .H 0x0E00008 8 data true) s = .next { s with host := { s.host with
      irqPending := s.host.irqPending &&& ~~~(field data 0 3), irqMask := field data 8 3 } } := by
  have opened : s.contained .H 0x0E00008 = false := by
    rw [State.reaches, Bool.and_eq_true] at hr
    simpa [State.contained] using hr.2
  have write : regWrite s .H 0x0E00008 (leBytes 8 data) true =
      s.setHost { s.host with irqPending := s.host.irqPending &&& ~~~(field data 0 3), irqMask := field data 8 3 } := by
    rw [regWrite_of_reaches opened (fun _ => ⟨rfl, by rw [length_leBytes]; decide⟩) hr,
      writeBytes_of_register (windowAt_hwIrq s) (regAt_hwIrq s) (by decide), hwIrq_put, w1c_allOnes, mrg_allOnes _ _ _ (by decide),
      field_field _ _ _ _ _ (by decide), field_field _ _ _ _ _ (by decide)]
  exact exec_registerWrite_quiet rfl (by decide) write rfl

/-! ### The identity page over the NoC (R655) -/

theorem reaches_low_noc (s : State) {c : Cls} (hc : isNocClass c = true) {off : Nat} (h : off < 0x2000) : s.reaches c off = true := by
  rw [reaches_of_noc s hc, decide_eq_true h, Bool.or_true]

theorem regRead_identity (s : State) {c : Cls} (hc : isNocClass c = true) {off n : Nat} (h : off + n ≤ 0x1000) :
    ∃ bs, regRead s c off n = (s, bs) ∧ ofLeBytes 512 bs = ofLeBytes 512 (discoveryRead off n) := by
  rw [regRead_of_reaches (contained_low s c (by omega)) (fun h => absurd h (ne_host_of_noc hc)) (reaches_low_noc s hc (by omega))]
  by_cases inside : off < 0x1000
  · exact ⟨_, readBytes_of_window (windowAt_identity s c inside) h, rfl⟩
  · obtain ⟨rfl, rfl⟩ : off = 0x1000 ∧ n = 0 := by omega
    obtain ⟨k, hk⟩ := readBytes_unmapped (n := 0) (windowAt_behind_identity s c) (by simp [locsOf])
    exact ⟨_, hk, ofLeBytes_replicate_zero 512 k⟩

theorem regRead_discovery {s : State} {h : NocHdr} {size : BitVec 7} (hp : s.portRefuses h = false) (ha : h.addr.toNat + min size.toNat 64 ≤ 0x1000) :
    exec (.regRead h size) s = .next { s with out := s.out ++ [.nocResp h.txid .ok (ofLeBytes 512 (discoveryRead h.addr.toNat (min size.toNat 64)))] } := by
  obtain ⟨bs, read, bytes⟩ := regRead_identity s (nocClass_isNoc s h h.addr.toNat) ha
  rw [exec_regRead hp, read, answerReg_of_out_eq rfl, bytes]
  rfl

/-! ### Doorbells of a partition over the NoC (R109, R717) -/

theorem mailbox_setMailbox (c : Cmd) (m : Nat) (x : Mailbox) (k : Nat) : (c.setMailbox m x).mailbox k = if k = m then x else c.mailbox k :=
  SMap.get_set ..

/-- `bits` have been rung on the up direction of mailbox `m`. -/
def State.rung (s : State) (m : Nat) (bits : BitVec 32) : State :=
  { s with cmd := s.cmd.setMailbox m { s.cmd.mailbox m with up := (s.cmd.mailbox m).up.ring bits } }

@[simp] theorem State.rung_out (s : State) (m : Nat) (bits : BitVec 32) : (s.rung m bits).out = s.out := rfl
theorem State.rung_mailbox_self (s : State) (m : Nat) (bits : BitVec 32) : ((s.rung m bits).cmd.mailbox m).up = (s.cmd.mailbox m).up.ring bits := by
  rw [State.rung, mailbox_setMailbox, if_pos rfl]
theorem State.rung_mailbox_ne (s : State) {m k : Nat} (bits : BitVec 32) (h : k ≠ m) : (s.rung m bits).cmd.mailbox k = s.cmd.mailbox k := by
  rw [State.rung, mailbox_setMailbox, if_neg h]

/-- A client's doorbells on its enabled mailbox: they complete no message, and change nothing besides. -/
theorem mbSend_ring_up {s : State} {c : Cls} {m : Nat} (bits : BitVec 32) (hm : m < 80) (hc : mbClient (s.cmd.mailbox m) m c = true)
    (he : (s.cmd.mailbox m).en = true) : s.mbSend c m false (fun d => d.ring bits) = s.rung m bits := by
  have rung : s.mbUpd m false (fun d => d.ring bits) = s.rung m bits := by simp [State.mbUpd, State.rung, Mailbox.dir, Mailbox.setDir, MbDir.ring]
  rw [← rung]
  exact if_pos ⟨hc, he, hm⟩

theorem mbAllows_partition (s : State) (p : BitVec 6) {m : Nat} (hm : m < 64) : mbAllows s m (.P p) = decide (p.toNat = m) := by
  simp [mbAllows, mbClient, mbFirmware, hm]

theorem mbAllows_chiplet (s : State) (n : BitVec 5) (b : Bool) {m : Nat} (hm : m < 64) : mbAllows s m (.C n b) = false := by
  simp [mbAllows, mbClient, mbFirmware, show ¬ 72 ≤ m by omega]

/-- No port lies at a mailbox page. -/
theorem intakeWrite_mailboxPage (s : State) (h : NocHdr) {off : Nat} (ho : off < 0x0150000) (n : Nat) (d : Line) : intakeWrite s h off n d = none := by
  rw [intakeWrite, if_pos (.inl (by omega)), if_neg (by omega)]

theorem regWrite_noc_mailbox {s : State} {c : Cls} (hc : isNocClass c = true) (ha : s.accessClosed = false) (off : Nat) (bs : List Byte) :
    regWrite s c off bs true = s.writeBytes c off bs :=
  regWrite_of_reaches (contained_of_ne_host s (ne_host_of_noc hc) _) (fun h => absurd h (ne_host_of_noc hc)) (by rw [reaches_of_noc s hc, ha]; rfl)

theorem partition_toNat {h : NocHdr} (hd : h.dom.toNat < 64) : (h.dom.setWidth 6).toNat = h.dom.toNat := by
  rw [BitVec.toNat_setWidth, Nat.mod_eq_of_lt hd]

theorem regAt_dbSetUp_own (s : State) {h : NocHdr} {d : Nat} (hd : d < 64) (own : h.dom.toNat = d) :
    regAt s (.P (h.dom.setWidth 6)) (0x0100218 + 4096 * d) = some (dbSetUp, d) := by
  rw [regAt_dbSetUp s _ (by omega), mbAllows_partition s _ hd, partition_toNat (own ▸ hd), decide_eq_true own, if_pos rfl]

/-- At a doorbell of its own mailbox a request has its partition's class. -/
theorem nocClass_dbSetUp_own (s : State) {h : NocHdr} {d : Nat} (hd : d < 64) (own : h.dom.toNat = d) :
    nocClass s h (0x0100218 + 4096 * d) = .P (h.dom.setWidth 6) := by
  have here : (0x0100218 + 4096 * d) / 8 * 8 = 0x0100218 + 4096 * d := by omega
  rw [nocClass, nocClasses, if_pos (own ▸ hd), List.find?_cons, here, regAt_dbSetUp_own s hd own, Option.isSome_some, Bool.or_true]
  rfl

/-- At another mailbox's it reaches nothing. -/
theorem regAt_dbSetUp_other (s : State) {h : NocHdr} {d : Nat} (hd : d < 64) (part : h.dom.toNat < 64) (other : h.dom.toNat ≠ d) :
    ∀ c ∈ nocClasses h, regAt s c (0x0100218 + 4096 * d) = none := by
  intro c hc
  rw [nocClasses, if_pos part, List.mem_cons, List.mem_singleton] at hc
  rw [regAt_dbSetUp s c (by omega)]
  rcases hc with rfl | rfl
  · rw [mbAllows_partition s _ hd, partition_toNat part, decide_eq_false other, if_neg (by decide)]
  · rw [mbAllows_chiplet s _ _ hd, if_neg (by decide)]

theorem regWrite_dbSetUp_own {s : State} {h : NocHdr} {d : Nat} (hd : d < 64) (ha : s.accessClosed = false) (own : h.dom.toNat = d) (data : Line) :
    regWrite s (nocClass s h (0x0100218 + 4096 * d)) (0x0100218 + 4096 * d) (leBytes 8 data) true =
      s.mbSend (.P (h.dom.setWidth 6)) d false fun x => x.ring (field data 0 32) := by
  rw [nocClass_dbSetUp_own s hd own, regWrite_noc_mailbox rfl ha,
    writeBytes_of_register (windowAt_dbSetUp s _ (by omega)) (regAt_dbSetUp_own s hd own) (by omega), dbSetUp_put,
    BitVec.and_allOnes, field_field _ _ _ _ _ (by decide)]

theorem regWrite_dbSetUp_other {s : State} {h : NocHdr} {d : Nat} (hd : d < 64) (ha : s.accessClosed = false) (part : h.dom.toNat < 64) (other : h.dom.toNat ≠ d)
    (data : Line) : regWrite s (nocClass s h (0x0100218 + 4096 * d)) (0x0100218 + 4096 * d) (leBytes 8 data) true = s := by
  rw [regWrite_noc_mailbox (nocClass_isNoc s h _) ha]
  refine writeBytes_unmapped (windowAt_dbSetUp s _ (by omega)) ?_
  rw [length_leBytes, locsOf_location (by omega)]
  intro loc hl
  rw [List.mem_singleton.1 hl]
  exact regAt_dbSetUp_other s hd part other _ (nocClass_mem s h _)

theorem regWrite_dbSet {s : State} {h : NocHdr} {d : Nat} (hd : d < 64) (hp : s.portRefuses h = false) (ha : s.accessClosed = false)
    (hoff : h.addr.toNat = 0x0100218 + 4096 * d) (data : Line) :
    (h.dom.toNat = d → (s.cmd.mailbox d).en = true → Answers (.regWrite h 8 data) s fun t =>
      (t.cmd.mailbox d).up = { (s.cmd.mailbox d).up with db := (s.cmd.mailbox d).up.db ||| (field data 0 32 &&& 0x7FFFFFFF) } ∧
      (∀ m, m ≠ d → t.cmd.mailbox m = s.cmd.mailbox m) ∧ t.out = s.out ++ [.nocResp h.txid .ok 0]) ∧
    (h.dom.toNat < 64 → h.dom.toNat ≠ d → exec (.regWrite h 8 data) s = .next { s with out := s.out ++ [.nocResp h.txid .ok 0] }) := by
  have reached : s.reaches (.C h.site false) h.addr.toNat = true := by rw [reaches_of_noc s rfl, ha]; rfl
  have run := exec_regWrite_access (size := 8) (data := data) hp reached (by rw [hoff]; exact intakeWrite_mailboxPage s h (by omega) _ _)
  rw [hoff, show min (8 : BitVec 7).toNat 64 = 8 from rfl] at run
  refine ⟨fun own en => ?_, fun part other => ?_⟩
  · have client : mbClient (s.cmd.mailbox d) d (.P (h.dom.setWidth 6)) = true := by
      simp [mbClient, partition_toNat (own ▸ hd), own, hd]
    rw [regWrite_dbSetUp_own hd ha own, mbSend_ring_up _ (by omega) client en, answerReg_of_out_eq (s.rung_out d _)] at run
    exact ⟨_, run, s.rung_mailbox_self d _, fun m hm => s.rung_mailbox_ne _ hm, rfl⟩
  · rw [run, regWrite_dbSetUp_other hd ha part other, answerReg_of_out_eq rfl]
    rfl

/-! ### Every access outside and over the NoC -/

/-- What a core, the host, an operator or the instrument gets of its access. -/
theorem register_access (s : State) {c : Cls} (off : BitVec 26) (size : BitVec 7) (data : Line) (full : Bool) (hc : isNocClass c = false) :
    let n := accessSize c size
    let r := regRead s c off.toNat n
    let w := regWrite s c off.toNat (leBytes n data) full
    (r.1.out = s.out ∨ r.1.out = s.out ++ [.regRefused] →
      exec (.registerRead c off size) s = .next { r.1 with out := s.out ++ [.regData (ofLeBytes 512 r.2)] }) ∧
    ((c ≠ .K ∧ c ≠ .S) ∨ intakeWrite s coreHdr off.toNat n data = none → w.out = s.out ∨ w.out = s.out ++ [.regRefused] →
      exec (.registerWrite c off size data full) s = .next { w with out := s.out }) ∧
    (∀ t, c = .K ∨ c = .S → intakeWrite s coreHdr off.toNat n data = some t →
      (t.out = s.out ++ [.nocResp 0 .ok 0] → exec (.registerWrite c off size data full) s = .next { t with out := s.out }) ∧
      (t.out = s.out ++ [.nocResp 0 .refused 0] → exec (.registerWrite c off size data full) s = .next { t with out := s.out ++ [.regRefused] })) := by
  intro n r w
  refine ⟨fun ho => ?_, fun hp ho => ?_, fun t hk hi => ⟨fun ho => ?_, fun ho => ?_⟩⟩
  · rw [exec_registerRead s hc, unrefused_eq ho]
    rfl
  · rw [exec_registerWrite_of_no_post s hc off size data full hp, unrefused_eq ho]
  · rw [exec_registerWrite_of_post s hk off size data full hi, ho, List.getLast?_concat, if_neg (by simp)]
  · rw [exec_registerWrite_of_post s hk off size data full hi, ho, List.getLast?_concat, if_pos rfl]

/-- What a request over the NoC gets of its access. -/
theorem reg_access (s : State) (h : NocHdr) (size : BitVec 7) (data : Line) :
    let off := h.addr.toNat
    let n := min size.toNat 64
    let r := regRead s (nocClass s h off) off n
    let w := regWrite s (nocClass s h off) off (leBytes n data) true
    let goes := s.portRefuses h = false ∧ s.reaches (.C h.site false) off = true
    (s.portRefuses h = true → exec (.regRead h size) s = .next (s.respond h .refused) ∧ exec (.regWrite h size data) s = .next (s.respond h .refused)) ∧
    (s.portRefuses h = false → r.1.out = s.out → exec (.regRead h size) s = .next (r.1.respond h .ok (ofLeBytes 512 r.2))) ∧
    (s.portRefuses h = false → r.1.out = s.out ++ [.regRefused] → exec (.regRead h size) s = .next (({ r.1 with out := s.out } : State).respond h .refused)) ∧
    (s.portRefuses h = false → s.reaches (.C h.site false) off = false → exec (.regWrite h size data) s = .next (s.respond h .ok)) ∧
    (∀ t, goes → intakeWrite s h off size.toNat data = some t → exec (.regWrite h size data) s = .next t) ∧
    (goes → intakeWrite s h off size.toNat data = none → w.out = s.out → exec (.regWrite h size data) s = .next (w.respond h .ok)) ∧
    (goes → intakeWrite s h off size.toNat data = none → w.out = s.out ++ [.regRefused] →
      exec (.regWrite h size data) s = .next (({ w with out := s.out } : State).respond h .refused)) := by
  intro off n r w goes
  refine ⟨fun hp => exec_reg_of_portRefuses hp size data, fun hp ho => ?_, fun hp ho => ?_, fun hp hr => exec_regWrite_closed hp hr size data,
    fun t hg hi => exec_regWrite_post hg.1 hg.2 hi, fun hg hi ho => ?_, fun hg hi ho => ?_⟩
  · rw [exec_regRead hp, answerReg_of_out_eq ho]
  · rw [exec_regRead hp, answerReg_of_refused ho]
  · rw [exec_regWrite_access hg.1 hg.2 hi, answerReg_of_out_eq ho]
  · rw [exec_regWrite_access hg.1 hg.2 hi, answerReg_of_refused ho]

/-- Settles O56: each access is followed to the window or register of its class, and its answer to what the unit said. -/
theorem registerAccessesReachByClass : Obligations.RegisterAccessesReachByClass := by
  unfold Obligations.RegisterAccessesReachByClass
  refine ⟨fun s c hc => registerRead_timebase s hc, fun s off size data full => ⟨?_, ?_, ?_⟩, fun s data hr => registerWrite_hwIrq hr data,
    fun s h size hp ha => regRead_discovery hp ha, fun s h data d hd hp ha hoff => regWrite_dbSet hd hp ha hoff data,
    fun s c off size data full hc => register_access s off size data full hc, fun s h size data => reg_access s h size data⟩
  · exact fun hw hr => register_unmapped hw hr data full
  · exact fun hc hb => register_malformed hc hb data full
  · exact fun c hc => exec_register_of_noc s hc off size data full

end Sys2Proof.Machine
end
